-- ==== Sys2Proof/Word.lean ====
section
/-! DEFINITION. The word types of the block and their plainest arithmetic.
Fixed-width registers are bit vectors; counts, indexes and addresses while computed are natural numbers. -/
namespace Sys2Proof

/-- One byte. -/
abbrev Byte := BitVec 8

/-- A 64-bit word: scalar registers (R30), host registers (R267), counters. -/
abbrev Word := BitVec 64

/-- A fabric instruction: 128 bits (R50). -/
abbrev InsnWord := BitVec 128

end Sys2Proof
end

