-- ==== Sys2Proof/Syntax.lean ====
section
/-! DEFINITION. The commands of the block: one constructor for each row of spec/opcode_table.json.
The rows are the operations and events of the part, each whole and indivisible (95_what_each_step_holds.md).
Cells are named by cell number (R11), partitions by number (R275), requesters by owner id (R272), engines by engine
number (05, "Edge stream engines"), links by number (R298), memory channels as in R216. -/
namespace Sys2Proof

/-- One datagram as it reaches a management port: the port (0 MGA, 1 MGB), the sender's address and UDP port, to which an
answer goes, whether the frame is an IPv4 one, the address and the UDP port it is sent to (R357), and its bytes (R358). -/
structure Dgram where
  port  : Nat
  addr  : BitVec 128
  udp   : BitVec 16
  ipv4  : Bool
  dest  : BitVec 128
  dport : BitVec 16
  bytes : List Byte
  deriving DecidableEq, Repr, Inhabited

/-- What one rail answers to a PMBus poll (R330): voltage in mV, current in mA, power in mW, and whether STATUS_WORD reports
an output over-voltage, under-voltage or over-current fault. -/
structure RailReading where
  rail  : Nat
  vout  : Nat
  iout  : Nat
  pout  : Nat
  fault : Bool
  deriving DecidableEq, Repr, Inhabited

/-- One sensor reading in m°C (R344): `kind` 0 a fabric die, 1 an I/O die, 2 an HBM stack, 3 a DDR5 module through its
sideband (R180); `unit` its number; `sensor` the sensor on it (0 for a stack or a module). -/
structure TempReading where
  kind   : Nat
  unit   : Nat
  sensor : Nat
  mc     : Int
  deriving DecidableEq, Repr, Inhabited

/-- What a read of one memory word found: good, corrected in line, or uncorrectable (R179, R180). -/
inductive EccResult where
  | good | corrected | uncorrectable
  deriving DecidableEq, Repr, Inhabited

/-- What a read of tier 0 found other than good words (R182): the 8-byte word of the cell's bank, and whether its error cannot
be corrected. -/
structure Tier0Error where
  word : Nat
  bad  : Bool
  deriving DecidableEq, Repr, Inhabited

/-- A cell whose unit reads its memories, and what a read of tier 0 among them found other than good words (R182). -/
structure CellRead where
  cell : Nat
  t0   : Option Tier0Error
  deriving DecidableEq, Repr, Inhabited

/-- A flit that arrives in a partition, and what the die bridge that it has crossed, if any, found (R12, R423). -/
structure FlitRead where
  part   : Nat
  bridge : EccResult
  deriving DecidableEq, Repr, Inhabited

/-- What a fetched word's memory and its culvert found (R145, R423). -/
structure WordRead where
  memory  : EccResult
  culvert : EccResult
  deriving DecidableEq, Repr, Inhabited

/-- A tier-0 fill that ends (R168): its time in µs, and what its read of the granule at an object-space address found. -/
structure FillRead where
  micros : Nat
  addr   : Nat
  ecc    : EccResult
  deriving DecidableEq, Repr, Inhabited

/-- A transfer that starts (R318): its partition, what its reads found at an object-space address (R223), and whether the plan of a
peer on another node lacks a RECV of its channel (R325). -/
structure TransferRead where
  part      : Nat
  addr      : Nat
  ecc       : EccResult
  peerLacks : Bool
  deriving DecidableEq, Repr, Inhabited

/-- What a link's receiver takes in (R300, R301): the codewords that its FEC has corrected and has found uncorrectable since the
frame before, and the frame's bytes. -/
structure LinkArrival where
  corrected     : Nat
  uncorrectable : Nat
  bytes         : List Byte
  deriving DecidableEq, Repr, Inhabited

/-- A RoCEv2 packet as it reaches an ingest port (R207, R208): the bytes of its frame, the address and the queue-pair number it is
sent to, whether ECN-CE marks it, and its packet sequence number. -/
structure RdmaHead where
  frame : Nat
  dest  : BitVec 128
  qpn   : BitVec 24
  ce    : Bool
  psn   : BitVec 24
  deriving DecidableEq, Repr, Inhabited

/-- Why a link retrains (R303), or is told to (R394). -/
inductive RetrainCause where
  | lockLoss | tagRun | tagRate | replayOverflow
  deriving DecidableEq, Repr, Inhabited

/-- The commands. -/
inductive Instr where
  -- Instructions of a cell: "the cell issues the instruction at its firing's issue point, which is one of these".
  | nop (cell : Nat)
  | endFiring (cell : Nat)
  | emit (cell : Nat)
  | select (cell : Nat)
  | smovi (cell : Nat)
  | salu (cell : Nat)
  | scmp (cell : Nat)
  | pmov (cell : Nat)
  | opld (cell : Nat)
  | tagrd (cell : Nat)
  | spld (cell : Nat)
  | spst (cell : Nat)
  | chadraw (cell : Nat)
  | entdraw (cell : Nat)
  | gtread (cell : Nat)
  | nrgread (cell : Nat)
  | syadd (cell : Nat)
  | symax (cell : Nat)
  | sywait (cell : Nat)
  | syrd (cell : Nat)
  | syset (cell : Nat)
  | syarr (cell : Nat)
  | xpread (cell : Nat)
  | stld (cell : Nat)
  | stst (cell : Nat)
  | flow (cell : Nat)
  | stin (cell : Nat)
  | stidx (cell : Nat)
  | stptr (cell : Nat)
  | swap (cell : Nat)
  | sandbag (cell : Nat)
  | stwait (cell : Nat)
  | mldw (cell : CellRead)
  | mmul (cell : CellRead)
  | macc (cell : CellRead)
  | mmulProbe (cell : CellRead)
  | mout (cell : Nat)
  | manchSetMode (cell : Nat)
  | manchReadProbe (cell : Nat)
  | manchReadStatus (cell : Nat)
  | vcfg (cell : Nat)
  | vrun (cell : CellRead)
  | vrunt (cell : CellRead)
  | vstatRead (cell : Nat)
  | vstatLast (cell : Nat)
  | vstatReadClear (cell : Nat)
  -- Events of the mesh, the cells, the streams and the engines.
  | tokenInject (cell : Nat)
  | flitArrive (flit : FlitRead)
  | tokenMatch (cell : Nat)
  | firingSelect (cell : Nat)
  | dwellEnd (cell : Nat)
  | foldSwitchDone (cell : Nat)
  | flowFlitInject (cell : CellRead) (route : Nat)
  | flowHeadArrive (cell : Nat)
  | flowFlitLand (cell : Nat)
  | chainSourceRead (cell : CellRead)
  | chainFlitArrive (cell : Nat)
  | localStreamStart (cell : Nat)
  | localStreamWordWrite (cell : CellRead)
  | localStreamEnd (cell : Nat)
  | engineFetch (engine : Nat)
  | engineWordArrive (engine : Nat) (word : WordRead)
  | wordRelease (engine : Nat)
  | egressHeadArrive (engine : Nat)
  | egressFlitArrive (engine : Nat)
  | outfallWrite (engine : Nat) (culvert : EccResult)
  | matrixOpDone (cell : Nat)
  | tileQueuePush (cell : Nat)
  | vcfgLoadDone (cell : Nat)
  | vectorRunDone (cell : Nat)
  | syncOpAct (part : Nat)
  | syncResultReturn (cell : Nat)
  | syncWaitDone (cell : Nat)
  | syncWaitTimeout (cell : Nat)
  | jobEnd (part : Nat)
  | fcLimitReached (part : Nat)
  | launchStateRestoreDone (part : Nat)
  -- Planes and clocks. The operands of a breach raise are the event codes raised on one WCLK edge by the data,
  -- control and management planes (R19).
  | paceStepApply
  | breachRaise (data ctrl mgmt : Option (BitVec 16))
  | rootPllLock
  | rootPllLockLoss
  | mirrorUpdate (index sub element : Nat)
  | bar2HwWrite (fn offset : Nat) (value : Word)
  | bar2CollectionTimeout (fn : Nat)
  | hwWriteApply (fn : Nat)
  -- Configuration images.
  | partCtlEnable (src part : Nat) (image : BitVec 16)
  | partCtlDisable (src part : Nat)
  | imageLoadDone (part : Nat)
  | checkVerdict (part : Nat) (micros : Nat)
  | tier0FillDone (part : Nat) (fill : FillRead)
  | sluiceRecheck (part : Nat)
  -- Memory tiers and ingest.
  | mcDoorbell (src part tail : Nat)
  | alloc (part : Nat)
  | free (part : Nat)
  | move (part : Nat)
  | clean (part : Nat)
  | place (part : Nat)
  | ingest (part : Nat)
  | digest (part : Nat)
  | plotCopyDone (part vpn offset : Nat) (ecc : EccResult)
  | commit (part : Nat)
  | ttlTick
  | scrubRead (channel part frame offset : Nat) (ecc : EccResult)
  | channelOutOfService (channel : Nat)
  | sluiceTableApply (part : Nat)
  | bar4Read (fn offset len : Nat)
  | bar4Write (fn offset : Nat) (data : List Byte)
  | rdmaReadResponse (port : Nat) (head : RdmaHead) (answer : Option (List Byte))
  | rdmaWriteRecv (port : Nat) (head : RdmaHead) (va : Word) (rkey : BitVec 32) (data : List Byte)
  | qpAckTimeout (qp : Nat)
  | ingestPortLoss (port : Nat)
  -- Serving.
  | srDoorbell (src part tail : Nat)
  | start (part : Nat)
  | append (part : Nat)
  | park (part : Nat)
  | parkMove (part req : Nat)
  | resume (part : Nat)
  | resumeMoveDone (part req : Nat)
  | cancel (part : Nat)
  | tree (part : Nat)
  | serveStepAdmit (part : Nat)
  | serveStepComplete (part : Nat)
  | prefixHash (part : Nat) (cmd : BitVec 512)
  | prefixLookup (part : Nat) (cmd : BitVec 512)
  | prefixInsert (part : Nat) (cmd : BitVec 512)
  | prefixInval (part : Nat) (cmd : BitVec 512)
  | prefixRelease (part : Nat) (cmd : BitVec 512)
  -- Jobs and pre-emption.
  | sqDoorbell (src part queue tail : Nat)
  | sqCfgWrite (src part queue : Nat) (value : Word)
  | jobTake (part : Nat)
  | jobLaunch (part : Nat)
  | stopAck (src part : Nat) (value : Word)
  | preemptRequest (src part : Nat) (value : Word)
  | freeze (part : Nat)
  | cheapPointTimeout (part : Nat)
  | drainDone (part : Nat)
  | refillStart (part : Nat) (ecc : EccResult)
  | refillResume (part : Nat)
  | semReadAcquire (src n : Nat)
  | semWriteRelease (src n : Nat) (value : Word)
  | semLeaseExpire (n : Nat)
  | functionLevelReset (fn : Nat)
  | bootCtlGo (fn : Nat)
  | registerWrite (fn offset : Nat) (value : Word)
  -- Links, the global counter and torus transfers.
  | linkFrameSend (link : Nat)
  | linkFrameRecv (link : Nat) (arrival : LinkArrival)
  | linkAckSend (link : Nat)
  | linkReplayTimeout (link : Nat)
  | linkRetrain (link : Nat) (cause : RetrainCause)
  | linkTrainDone (link : Nat)
  | linkDownTimeout (link : Nat)
  | syncMsgRecv (link : Nat) (t1 t2 t3 : Int)
  | delayRespRecv (link : Nat) (t4 : Int)
  | launchMsgRecv (link : Nat) (src msg : Nat) (body : List Byte)
  | barrierMsgRecv (link : Nat) (src msg : Nat) (plan : Word) (chan : Nat)
  | abortMsgRecv (link : Nat) (src msg : Nat) (plan step : Word)
  | breachMsgRecv (link : Nat) (src msg : Nat) (plan step : Word)
  | keeperMsgRecv (link : Nat) (src msg mailbox : Nat) (body : List Byte)
  | switchPortReset (link : Nat) (frame : List Byte)
  | ctrSyncEdge (rootCycles : Int) (multiple : Word)
  | gcTick (n : Nat)
  | gcSyncLoss
  | gcHoldoverExpire
  | firstAcqTimeout
  | transferStart (transfer : TransferRead)
  | transferArrival (part chan member ofs : Nat) (data : List Byte)
  | holdRelease (part : Nat)
  | holdLimitExpire (part : Nat)
  -- Power and thermal.
  | railPoll (readings : List RailReading)
  | vrmAlertAssert
  | vrmAlertDeassert
  | governorEvaluation (activity : List Nat) (staticMw : Nat) (shelfOk : Bool) (busyMw : List (Nat × Nat))
  | governorStepPoint (vout : List Nat)
  | thermalReading (readings : List TempReading)
  | thermalTrip (source unit sensor : Nat)
  | tripClockStop
  -- Management.
  | openSession (d : Dgram)
  | get (d : Dgram)
  | set (d : Dgram)
  | tableGet (d : Dgram)
  | tableSet (d : Dgram)
  | semAcq (d : Dgram)
  | semRel (d : Dgram)
  | subscribe (d : Dgram)
  | sessionEnd (d : Dgram)
  | principalEnd (d : Dgram)
  | reset (d : Dgram)
  | lcAdvance (d : Dgram)
  | otpWrite (d : Dgram)
  | bootWrite (d : Dgram)
  | bootGo (d : Dgram)
  | flashWrite (d : Dgram)
  | bulkRead (d : Dgram)
  | bulkReadDatagram
  | renew (d : Dgram)
  | close (d : Dgram)
  | noop (d : Dgram)
  | notify (slot sub : Nat)
  | sessionIdleTimeout (slot : Nat)
  | starting (d : Dgram)
  | neighborDiscovery (port : Nat) (addr target : BitVec 128)
  | icmpv6Echo (port : Nat) (addr target : BitVec 128) (body : List Byte)
  -- Reset, boot, fuses and life cycle.
  | resetSourceAssert (source fn : Nat)
  | resetSourceDeassert (source fn : Nat)
  | wardenWatchdogExpire
  | keeperWatchdogExpire
  | otpPulseEnd
  | releaseStep
  | firmwareVerify
  | ddr5TrainingDone (channel : Nat) (ok : Bool)
  | devStateAccepting
  | l4Release (part : Nat)
  | l5Release (block : Nat)
  -- The entropy source.
  | entropyStartupTest (pass : Bool)
  | entropyHealthFail
  | entropyRetest (pass : Bool)
  | entropyBufferFill (die : Nat) (word : Word)
  -- Events added at the end of the table.
  | loopbackTokenDelivery (cell : Nat)
  | generatorFree (cell : Nat)
  | zeroingWritten (part vpn : Nat)
  | writeBackDone (part addr : Nat) (ecc : EccResult)
  | digestStored (part obj addr : Nat) (ecc : EccResult)
  | hbmInitialisationDone (stack : Nat)
  | pcieTrainingDone (port : Nat) (gen width : Nat)
  | ingestPortUp (port : Nat)
  | mgPortUp (port : Nat)
  deriving DecidableEq, Repr, Inhabited

end Sys2Proof
end

