-- ==== Sys2Proof/WellFormed.lean ====
section
/-! DEFINITION. Which commands are well formed: each names units that the part can have (R9, R11, R264, R272, R277,
R298). A command that is not is refused by name by its meaning. -/
namespace Sys2Proof

/-- A cell number (R11). -/
def isCell (n : Nat) : Bool := decide (n < 2304)

/-- A partition number (R275). -/
def isPart (n : Nat) : Bool := decide (n < 8)

/-- An engine number (R9). -/
def isEngine (n : Nat) : Bool := decide (n < 192)

/-- A link number (R298). -/
def isLink (n : Nat) : Bool := decide (n < 14)

/-- The owner id of a host function: PF0 or a VF of port A or B (R264, R272). -/
def isFnId (n : Nat) : Bool := (n / 4096 == 1 || n / 4096 == 2) && decide (n % 4096 ≤ 8)

/-- The owner id of a function, a keeper or a management session (R272). -/
def isRequester (n : Nat) : Bool :=
  isFnId n || (n / 4096 == 3 && decide (n % 4096 < 16)) || (n / 4096 == 4 && decide (1 ≤ n % 4096))

/-- A submission queue (R277). -/
def isQueue (n : Nat) : Bool := decide (n < 4)

/-- A queue pair (R192, R215). -/
def isQp (n : Nat) : Bool := decide (n < 256)

/-- One of two ports: management, ingest or host (R357, R207, R263). -/
def isPort (n : Nat) : Bool := decide (n < 2)

/-- A session slot (R381). -/
def isSlot (n : Nat) : Bool := decide (n < 32)

/-- A subscription number (R369). -/
def isSub (n : Nat) : Bool := decide (n < 16)

/-- A fabric die (R9). -/
def isDie (n : Nat) : Bool := decide (n < 4)

/-- An HBM stack position (R9). -/
def isStack (n : Nat) : Bool := decide (n < 8)

/-- A DDR5 channel (R1). -/
def isChannel (n : Nat) : Bool := decide (n < 16)

/-- A memory channel: a DDR5 channel or 16 + a stack (R216). -/
def isMemChannel (n : Nat) : Bool := decide (n < 24)

/-- A route number (R52). -/
def isRoute (n : Nat) : Bool := decide (n < 32)

/-- A semaphore (R270). -/
def isSem (n : Nat) : Bool := decide (n < 64)

/-- A node: X, Y and Z of 6 bits each (R300). -/
def isNode (n : Nat) : Bool := decide (n < 2 ^ 18)

/-- A reset source (R385). -/
def isSource (n : Nat) : Bool := decide (n ≤ 10)

/-- An offset in BAR0 (R266). -/
def isBar0 (n : Nat) : Bool := decide (n < 2 ^ 24)

/-- An offset in BAR2 (R266). -/
def isBar2 (n : Nat) : Bool := decide (n < 2 ^ 20)

/-- The command is well formed. -/
def Instr.wf : Instr → Bool
  | .nop cell => isCell cell
  | .endFiring cell => isCell cell
  | .emit cell => isCell cell
  | .select cell => isCell cell
  | .smovi cell => isCell cell
  | .salu cell => isCell cell
  | .scmp cell => isCell cell
  | .pmov cell => isCell cell
  | .opld cell => isCell cell
  | .tagrd cell => isCell cell
  | .spld cell => isCell cell
  | .spst cell => isCell cell
  | .chadraw cell => isCell cell
  | .entdraw cell => isCell cell
  | .gtread cell => isCell cell
  | .nrgread cell => isCell cell
  | .syadd cell => isCell cell
  | .symax cell => isCell cell
  | .sywait cell => isCell cell
  | .syrd cell => isCell cell
  | .syset cell => isCell cell
  | .syarr cell => isCell cell
  | .xpread cell => isCell cell
  | .stld cell => isCell cell
  | .stst cell => isCell cell
  | .flow cell => isCell cell
  | .stin cell => isCell cell
  | .stidx cell => isCell cell
  | .stptr cell => isCell cell
  | .swap cell => isCell cell
  | .sandbag cell => isCell cell
  | .stwait cell => isCell cell
  | .mldw u => isCell u.cell
  | .mmul u => isCell u.cell
  | .macc u => isCell u.cell
  | .mmulProbe u => isCell u.cell
  | .mout cell => isCell cell
  | .manchSetMode cell => isCell cell
  | .manchReadProbe cell => isCell cell
  | .manchReadStatus cell => isCell cell
  | .vcfg cell => isCell cell
  | .vrun u => isCell u.cell
  | .vrunt u => isCell u.cell
  | .vstatRead cell => isCell cell
  | .vstatLast cell => isCell cell
  | .vstatReadClear cell => isCell cell
  | .tokenInject cell => isCell cell
  | .flitArrive f => isPart f.part
  | .tokenMatch cell => isCell cell
  | .firingSelect cell => isCell cell
  | .dwellEnd cell => isCell cell
  | .foldSwitchDone cell => isCell cell
  | .flowFlitInject u route => isCell u.cell && isRoute route
  | .flowHeadArrive cell => isCell cell
  | .flowFlitLand cell => isCell cell
  | .chainSourceRead u => isCell u.cell
  | .chainFlitArrive cell => isCell cell
  | .localStreamStart cell => isCell cell
  | .localStreamWordWrite u => isCell u.cell
  | .localStreamEnd cell => isCell cell
  | .engineFetch engine => isEngine engine
  | .engineWordArrive engine _ => isEngine engine
  | .wordRelease engine => isEngine engine
  | .egressHeadArrive engine => isEngine engine
  | .egressFlitArrive engine => isEngine engine
  | .outfallWrite engine _ => isEngine engine
  | .matrixOpDone cell => isCell cell
  | .tileQueuePush cell => isCell cell
  | .vcfgLoadDone cell => isCell cell
  | .vectorRunDone cell => isCell cell
  | .syncOpAct part => isPart part
  | .syncResultReturn cell => isCell cell
  | .syncWaitDone cell => isCell cell
  | .syncWaitTimeout cell => isCell cell
  | .jobEnd part => isPart part
  | .fcLimitReached part => isPart part
  | .launchStateRestoreDone part => isPart part
  | .paceStepApply => true
  | .breachRaise _ _ _ => true
  | .rootPllLock => true
  | .rootPllLockLoss => true
  | .mirrorUpdate _ _ _ => true
  | .bar2HwWrite fn offset _ => isFnId fn && isBar2 offset
  | .bar2CollectionTimeout fn => isFnId fn
  | .hwWriteApply fn => isFnId fn
  | .partCtlEnable src part _ => isRequester src && isPart part
  | .partCtlDisable src part => isRequester src && isPart part
  | .imageLoadDone part => isPart part
  | .checkVerdict part _ => isPart part
  | .tier0FillDone part _ => isPart part
  | .sluiceRecheck part => isPart part
  | .mcDoorbell src part _ => isRequester src && isPart part
  | .alloc part => isPart part
  | .free part => isPart part
  | .move part => isPart part
  | .clean part => isPart part
  | .place part => isPart part
  | .ingest part => isPart part
  | .digest part => isPart part
  | .plotCopyDone part _ _ _ => isPart part
  | .commit part => isPart part
  | .ttlTick => true
  | .scrubRead channel part _ _ _ => isMemChannel channel && isPart part
  | .channelOutOfService channel => isChannel channel
  | .sluiceTableApply part => isPart part
  | .bar4Read fn _ _ => isFnId fn
  | .bar4Write fn _ _ => isFnId fn
  | .rdmaReadResponse port _ _ => isPort port
  | .rdmaWriteRecv port _ _ _ _ => isPort port
  | .qpAckTimeout qp => isQp qp
  | .ingestPortLoss port => isPort port
  | .srDoorbell src part _ => isRequester src && isPart part
  | .start part => isPart part
  | .append part => isPart part
  | .park part => isPart part
  | .parkMove part _ => isPart part
  | .resume part => isPart part
  | .resumeMoveDone part _ => isPart part
  | .cancel part => isPart part
  | .tree part => isPart part
  | .serveStepAdmit part => isPart part
  | .serveStepComplete part => isPart part
  | .prefixHash part _ => isPart part
  | .prefixLookup part _ => isPart part
  | .prefixInsert part _ => isPart part
  | .prefixInval part _ => isPart part
  | .prefixRelease part _ => isPart part
  | .sqDoorbell src part queue _ => isRequester src && isPart part && isQueue queue
  | .sqCfgWrite src part queue _ => isRequester src && isPart part && isQueue queue
  | .jobTake part => isPart part
  | .jobLaunch part => isPart part
  | .stopAck src part _ => isRequester src && isPart part
  | .preemptRequest src part _ => isRequester src && isPart part
  | .freeze part => isPart part
  | .cheapPointTimeout part => isPart part
  | .drainDone part => isPart part
  | .refillStart part _ => isPart part
  | .refillResume part => isPart part
  | .semReadAcquire src n => isRequester src && isSem n
  | .semWriteRelease src n _ => isRequester src && isSem n
  | .semLeaseExpire n => isSem n
  | .functionLevelReset fn => isFnId fn
  | .bootCtlGo fn => isFnId fn
  | .registerWrite fn offset _ => isFnId fn && isBar0 offset
  | .linkFrameSend link => isLink link
  | .linkFrameRecv link _ => isLink link
  | .linkAckSend link => isLink link
  | .linkReplayTimeout link => isLink link
  | .linkRetrain link _ => isLink link
  | .linkTrainDone link => isLink link
  | .linkDownTimeout link => isLink link
  | .syncMsgRecv link _ _ _ => isLink link
  | .delayRespRecv link _ => isLink link
  | .launchMsgRecv link src _ _ => isLink link && isNode src
  | .barrierMsgRecv link src _ _ _ => isLink link && isNode src
  | .abortMsgRecv link src _ _ _ => isLink link && isNode src
  | .breachMsgRecv link src _ _ _ => isLink link && isNode src
  | .keeperMsgRecv link src _ mailbox _ => isLink link && isNode src && decide (mailbox < 64)
  | .switchPortReset link _ => isLink link
  | .ctrSyncEdge _ _ => true
  | .gcTick _ => true
  | .gcSyncLoss => true
  | .gcHoldoverExpire => true
  | .firstAcqTimeout => true
  | .transferStart r => isPart r.part
  | .transferArrival part _ _ _ _ => isPart part
  | .holdRelease part => isPart part
  | .holdLimitExpire part => isPart part
  | .railPoll _ => true
  | .vrmAlertAssert => true
  | .vrmAlertDeassert => true
  | .governorEvaluation _ _ _ _ => true
  | .governorStepPoint _ => true
  | .thermalReading _ => true
  | .thermalTrip source _ _ => decide (1 ≤ source) && decide (source ≤ 3)
  | .tripClockStop => true
  | .openSession _ => true
  | .get _ => true
  | .set _ => true
  | .tableGet _ => true
  | .tableSet _ => true
  | .semAcq _ => true
  | .semRel _ => true
  | .subscribe _ => true
  | .sessionEnd _ => true
  | .principalEnd _ => true
  | .reset _ => true
  | .lcAdvance _ => true
  | .otpWrite _ => true
  | .bootWrite _ => true
  | .bootGo _ => true
  | .flashWrite _ => true
  | .bulkRead _ => true
  | .bulkReadDatagram => true
  | .renew _ => true
  | .close _ => true
  | .noop _ => true
  | .notify slot sub => isSlot slot && isSub sub
  | .sessionIdleTimeout slot => isSlot slot
  | .starting _ => true
  | .neighborDiscovery port _ _ => isPort port
  | .icmpv6Echo port _ _ _ => isPort port
  | .resetSourceAssert source fn => isSource source && (source != 10 || isFnId fn)
  | .resetSourceDeassert source _ => isSource source
  | .wardenWatchdogExpire => true
  | .keeperWatchdogExpire => true
  | .otpPulseEnd => true
  | .releaseStep => true
  | .firmwareVerify => true
  | .ddr5TrainingDone channel _ => isChannel channel
  | .devStateAccepting => true
  | .l4Release part => isPart part
  | .l5Release _ => true
  | .entropyStartupTest _ => true
  | .entropyHealthFail => true
  | .entropyRetest _ => true
  | .entropyBufferFill die _ => isDie die
  | .loopbackTokenDelivery cell => isCell cell
  | .generatorFree cell => isCell cell
  | .zeroingWritten part _ => isPart part
  | .writeBackDone part _ _ => isPart part
  | .digestStored part _ _ _ => isPart part
  | .hbmInitialisationDone stack => isStack stack
  | .pcieTrainingDone port _ _ => isPort port
  | .ingestPortUp port => isPort port
  | .mgPortUp port => isPort port

end Sys2Proof
end

