-- ==== Sys2Proof/Machine/Bits.lean ====
section
/-! DEFINITION. Bit fields, sign extension, byte order (R7) and small arithmetic. -/
namespace Sys2Proof.Machine

/-- Bits [hi:lo] of a number. -/
def nbits (x hi lo : Nat) : Nat := (x >>> lo) % 2 ^ (hi + 1 - lo)

/-- Bits [hi:lo] of a register, instruction or record, as a number. -/
def bits {n : Nat} (x : BitVec n) (hi lo : Nat) : Nat := nbits x.toNat hi lo

/-- Bit `i` of a register. -/
def bit {n : Nat} (x : BitVec n) (i : Nat) : Bool := x.getLsbD i

/-- 1 for true. -/
def ofBool (b : Bool) : Nat := if b then 1 else 0

/-- The `n`-bit two's-complement reading of a number's low `n` bits. -/
def signed (n x : Nat) : Int :=
  let v := x % 2 ^ n
  if v < 2 ^ (n - 1) then (v : Int) else (v : Int) - (2 ^ n : Nat)

/-- The `n`-bit two's-complement code of an integer. -/
def toCode (n : Nat) (x : Int) : Nat := (x % (2 ^ n : Nat)).toNat

/-- A byte string read as a little-endian number (R7). -/
def leNat : List Byte → Nat
  | [] => 0
  | b :: bs => b.toNat + 256 * leNat bs

/-- The low `n` bytes of a number, little-endian (R7). -/
def leBytes : Nat → Nat → List Byte
  | 0, _ => []
  | n + 1, x => BitVec.ofNat 8 x :: leBytes n (x / 256)

/-- The low `n` bytes of a number, big-endian. -/
def beBytes (n x : Nat) : List Byte := (leBytes n x).reverse

/-- A byte string read as a big-endian number. -/
def beNat (bs : List Byte) : Nat := leNat bs.reverse

/-- A byte string cut or padded with zeros to exactly `n` bytes. -/
def fit (n : Nat) (bs : List Byte) : List Byte := (bs ++ List.replicate n 0).take n

/-- Bytes `a` to `a + n - 1` of a byte string, zeros past its end. -/
def slice (bs : List Byte) (a n : Nat) : List Byte := fit n (bs.drop a)

/-- The little-endian number in bytes `a` to `a + n - 1` of a byte string. -/
def leAt (bs : List Byte) (a n : Nat) : Nat := leNat ((bs.drop a).take n)

/-- An ASCII string as bytes. -/
def ascii (s : String) : List Byte := s.toList.map (fun c => BitVec.ofNat 8 c.toNat)

/-- Division rounded up. -/
def ceilDiv (a b : Nat) : Nat := (a + b - 1) / b

/-- `x` moved into `lo` to `hi`. -/
def clampInt (x lo hi : Int) : Int := if x < lo then lo else if hi < x then hi else x

/-- Counter addition that saturates at `2 ^ n - 1` (R420). -/
def satAdd (n a b : Nat) : Nat := min (a + b) (2 ^ n - 1)

/-- The least `x' ≥ x` with `x' mod m = r`. -/
def nextMod (m r x : Nat) : Nat := x + (r + m - x % m) % m

/-- Tag `a` precedes tag `b` (R41). -/
def tagPrecedes (a b : BitVec 16) : Bool :=
  let d := (b - a).toNat
  decide (1 ≤ d) && decide (d ≤ 32767)

/-- Element `i` of a list, `d` past its end. -/
def nth {α : Type} (d : α) (l : List α) (i : Nat) : α := (l[i]?).getD d

/-- The list with element `i` replaced. -/
def setNth {α : Type} (l : List α) (i : Nat) (v : α) : List α := l.set i v

/-- The numbers `lo` to `lo + n - 1`. -/
def range (lo n : Nat) : List Nat := (List.range n).map (lo + ·)

/-- An element put before the first that has a larger key. -/
def insertOn {α : Type} (key : α → Nat) (a : α) : List α → List α
  | [] => [a]
  | b :: bs => if key a < key b then a :: b :: bs else b :: insertOn key a bs

/-- A list in order of a key, equal keys in their order in the list. -/
def sortOn {α : Type} (key : α → Nat) (l : List α) : List α := l.foldl (fun m a => insertOn key a m) []

/-- The lowest number from `k` upward, below `k + fuel`, that satisfies `p`. -/
def lowest (p : Nat → Bool) (k : Nat) : Nat → Option Nat
  | 0 => none
  | fuel + 1 => if p k then some k else lowest p (k + 1) fuel

end Sys2Proof.Machine
end

