-- ==== Sys2Proof/Config.lean ====
section
/-! DEFINITION. What an implementation fixes and what the spec leaves open: the free values.
Each is an opaque constant without a body, so nothing can be proved of it but what holds of every value
(assumption log, entries named beside each). -/
namespace Sys2Proof.Config

/-- A byte of a memory whose contents the spec calls undefined (R167, R172, R293, R443): free value number `n` at an
address. Log entry 5. -/
opaque freeByte (n addr : Nat) : Byte

/-- The entropy source's words (R417, R363): a physical source; free value number `n`. Log entry 6. -/
opaque entropy (n : Nat) : Nat

/-- An SFU result where R117 states only an error bound: function `op` on binary32 bits `x` (R118: a fixed map of its
input bits). Log entry 7. -/
opaque sfu (op : Nat) (x : BitVec 32) : BitVec 32

/-- The code, in an integer format of `width` bits, of a RAW sum on the grid of an anchor that SUMRAW converts: R89, which
R121 names, states no conversion to an integer format. Log entry 16. -/
opaque rawToInt (width : Nat) (anchor sum : Int) : Nat

/-- VID values fused at manufacture that the spec does not state: element `k` of die `d`'s VID table in mV above 600,
modulo 201 (R331: within 600 to 800). Log entry 8. -/
opaque vid (d k : Nat) : Nat

/-- Identity values the spec leaves to the fuses: SERIAL, STEPPING, BOOTROM_VERSION, MAC addresses (R1, R27, R357),
numbered as in Machine/Dictionary.lean. Log entry 8. -/
opaque fused (n : Nat) : Nat

/-- A byte of a poisoned sector, whose data is lost (R199), at an address. Log entry 5. -/
opaque poisonByte (addr : Nat) : Byte

/-- A choice that the spec leaves to the part: which of several virtual plots or frames it takes (R193, R195). Log
entry 18. -/
opaque pick (n : Nat) : Nat

/-- Whether the DDR5 module of a channel is a 128 GB one, and otherwise a 64 GB one (R180): what the board carries.
Log entry 10. -/
opaque module128 (channel : Nat) : Bool

/-- Which of the references of a partition's image the keepers use as the step object: firmware's choice (R238). Log
entry 32. -/
opaque stepRef (part : Nat) : Nat

/-- The payload of a privileged message: its code, the source node, the message number and its body (R312 gives no layout).
Log entry 45. -/
opaque messagePayload (code src num : Nat) (body : List Byte) : List Byte

/-- The payload of a link-control frame of a kind (1 acknowledgement up to LSEQ `a`, 2 negative acknowledgement from LSEQ
`a`, 3 `b` credits of VC `a`, 4 the full frame counter `a`, 5 RESET, 6 a request for the full counter; R302, R304, R308, R385 give no layout). Log entry 46. -/
opaque controlPayload (kind a b : Nat) : List Byte

/-- What a link-control payload says: its kind, `a` and `b`. Log entry 46. -/
opaque readControl (payload : List Byte) : Nat × Nat × Nat

/-- The full frame counter that a link-control exchange carries on a frame, where a receiver has lost count (R308 gives no layout).
Log entry 46. -/
opaque fullCounter (frame : List Byte) : Nat

/-- The mirror offset, in units of 8 bytes, of element 0 of an entry: fixed by the firmware version (R376). Log entry 48. -/
opaque mirrorSlot (index sub : Nat) : Nat

/-- LAYOUT, the layout generation of the mirror, which only the firmware changes (R376). Log entry 48. -/
opaque mirrorLayout : Nat

/-- The node to which a package addresses its DELAY_REQ: the counter master is a function of the switches, and the spec names no
node for it (R312, R314). Log entry 57. -/
opaque masterNode : Nat

/-- FG slots lent over the ticks that end at a value of the global counter: lending follows the timing of accesses that the spec
leaves open (R205, R214). Log entry 88. -/
opaque lentSlots (gt : Nat) : Nat

/-- The part, in µJ, of a poll's energy `e` of rail 5 or 6 that the link and ingest lanes take, at most `e`: no split between
lanes and the rest of the rail is stated (R341). Log entry 59. -/
opaque laneEnergy (rail e : Nat) : Nat

/-- A die's static energy over one rail poll, in µJ (R341). Log entry 59. -/
opaque dieStatic (die : Nat) : Nat

end Sys2Proof.Config
end

