-- ==== Sys2Proof/Machine/Assoc.lean ====
section
/-! DEFINITION. Sparse tables and byte memories in one canonical form: key-value lists, keys strictly rising. -/
namespace Sys2Proof.Machine

/-- A sparse table: its entries in strictly rising order of key. -/
abbrev Assoc (α : Type) := List (Nat × α)

namespace Assoc
variable {α : Type}

/-- The entry at key `k`, if one is listed. -/
def find? : Assoc α → Nat → Option α
  | [], _ => none
  | (k', v) :: m, k => if k = k' then some v else find? m k

/-- The table with `v` at key `k`. -/
def insert : Assoc α → Nat → α → Assoc α
  | [], k, v => [(k, v)]
  | (k', v') :: m, k, v =>
    if k < k' then (k, v) :: (k', v') :: m
    else if k = k' then (k, v) :: m
    else (k', v') :: insert m k v

/-- The table without key `k`. -/
def erase : Assoc α → Nat → Assoc α
  | [], _ => []
  | (k', v) :: m, k => if k = k' then erase m k else (k', v) :: erase m k

/-- The entry at key `k`, or `d k` where none is listed. -/
def get (d : Nat → α) (m : Assoc α) (k : Nat) : α := (m.find? k).getD (d k)

/-- The table with `v` at key `k`; an entry equal to what an unlisted key reads as is not listed. -/
def set [DecidableEq α] (d : Nat → α) (m : Assoc α) (k : Nat) (v : α) : Assoc α :=
  if v = d k then m.erase k else m.insert k v

/-- A key lies above `lo`, if there is one. -/
def above : Option Nat → Nat → Bool
  | none, _ => true
  | some l, k => decide (l < k)

/-- Keys strictly rising, from above `lo`. -/
def sortedFrom : Option Nat → Assoc α → Bool
  | _, [] => true
  | lo, (k, _) :: m => above lo k && sortedFrom (some k) m

/-- Keys strictly rising. -/
abbrev sorted (m : Assoc α) : Bool := sortedFrom none m

/-- The table's values, in order of key. -/
def values (m : Assoc α) : List α := m.map (·.2)

end Assoc

/-- A byte memory: what an unlisted byte reads as (`fill` 0: zero; `fill` n > 0: the free bytes number n, where the
spec calls the contents undefined), the listed bytes, and the words that hold an uncorrectable error (R179, R180,
R182), by the memory's own word number. -/
structure Mem where
  fill  : Nat
  cells : List Host.Cell
  bad   : List Nat
  deriving DecidableEq, Repr, Inhabited

namespace Mem

/-- A memory of zeros. -/
def zero : Mem := { fill := 0, cells := [], bad := [] }

/-- A memory whose contents are undefined: free bytes number `n + 1`. -/
def undef (n : Nat) : Mem := { fill := n + 1, cells := [], bad := [] }

/-- What an unlisted byte of the memory reads as. -/
def dflt (fill addr : Nat) : Byte := if fill = 0 then 0 else Config.freeByte fill addr

/-- The byte at `addr`. -/
def read (m : Mem) (addr : Nat) : Byte := Assoc.get (dflt m.fill) m.cells addr

/-- The memory with `b` at `addr`. -/
def write (m : Mem) (addr : Nat) (b : Byte) : Mem :=
  { m with cells := Assoc.set (dflt m.fill) m.cells addr b }

/-- The canonical form: addresses strictly rising, no entry equal to what an unlisted address reads as. -/
def wf (m : Mem) : Bool :=
  Assoc.sorted m.cells && m.cells.all (fun c => decide (c.2 ≠ dflt m.fill c.1))

/-- `n` bytes from `addr`, each address taken modulo `size` (R73; `size` 0: no wrap). -/
def readN (m : Mem) (size addr : Nat) : Nat → List Byte
  | 0 => []
  | n + 1 => m.read (if size = 0 then addr else addr % size) :: readN m size (addr + 1) n

/-- The bytes written from `addr` upward, each address taken modulo `size` (`size` 0: no wrap). -/
def writeN (m : Mem) (size addr : Nat) : List Byte → Mem
  | [] => m
  | b :: bs => (m.write (if size = 0 then addr else addr % size) b).writeN size (addr + 1) bs

end Mem
end Sys2Proof.Machine
end

