-- ==== Sys2Proof/Machine/State.lean ====
section
/-! DEFINITION. The state of the block: every register, queue, buffer, counter, mode and pin that the spec names, as
plain data, and the queue of waiting commands. Settings and counters of the object dictionary have their one home in
`State.dict` (13_management_dictionary.md), under the entry's index, subindex and element. -/
namespace Sys2Proof.Machine

/-- Why the block stops. No meaning of this model stops so on a well-formed command. -/
inductive Fault where
  /-- Raised by nothing: kept so that the type is not empty. Safe. -/
  | none
  deriving DecidableEq, Repr, Inhabited

/-- Why a command has no meaning. -/
inductive Refusal where
  /-- The command has no meaning yet. Raised by a refused arm of `exec` only. Safe. -/
  | notModelled (mnemonic : String)
  /-- The command names a unit (a cell, partition, engine, link, function, port, channel ...) that the part does not
  have (R9, R11, R264, R298). Raised by the meaning of every command that names one. Safe. -/
  | noSuchUnit (kind : String) (number : Nat)
  deriving DecidableEq, Repr, Inhabited

/-! ### Tokens and the cell (02_cells_and_firing.md) -/

/-- A fabric token: the fields of its header (R35) and its inline payload. -/
structure Token where
  tag     : BitVec 16
  pred    : Bool
  last    : Bool
  len     : Nat
  half    : BitVec 2
  dfold   : BitVec 3
  dport   : BitVec 2
  kind    : BitVec 4
  src     : Nat
  flow    : BitVec 8
  aux     : Word
  payload : List Byte
  deriving DecidableEq, Repr, Inhabited

/-- A token held in a queue and the fc in which it entered (R33, R37). -/
structure Queued where
  tok     : Token
  entered : Nat
  deriving DecidableEq, Repr, Inhabited

/-- A match slot that is taken (R37): its fold and tag, one token position for each port P0 to P3, the fc in which it
became complete (R38), and whether its firing is in progress (R39). -/
structure Slot where
  fold     : Nat
  tag      : BitVec 16
  ops      : List (Option Token)
  complete : Option Nat
  firing   : Bool
  deriving DecidableEq, Repr, Inhabited

/-- A firing in progress or suspended (R38, R39, R47): its fold, its tag, its slot (none for a fold with an empty
operand mask), its issue point, the first fc in which its next instruction may issue, whether it waits for a SYWAIT,
SYARR or STWAIT to end (R57, R142), and the issue fcs of the local streams that its STWAIT awaits. -/
structure Firing where
  fold    : Nat
  tag     : BitVec 16
  slot    : Option Nat
  pc      : Nat
  ready   : Nat
  waiting : Bool
  strm    : List Nat
  deriving DecidableEq, Repr, Inhabited

/-- One fold of a cell's configuration store and route tables (R30, R162), its registers (R55), the scalars that await
a sync result (R54), the suspended firing (R47), and whether its empty-mask firing has run (R38). -/
structure Fold where
  instrs  : List InsnWord
  opMask  : BitVec 4
  routes  : List Word
  fwd     : BitVec 128
  regs    : Assoc Word
  preds   : BitVec 8
  awaited : List Nat
  susp    : Option Firing
  fired   : Bool
  deriving DecidableEq, Repr, Inhabited

/-- A token that an EMIT or SELECT has sent and the router has not yet injected (R32). -/
structure Outgoing where
  fold   : Nat
  route  : Word
  issued : Nat
  tok    : Token
  deriving DecidableEq, Repr, Inhabited

/-- What a flit carries. A token of more than 48 payload bytes travels as two flits (R34, "Tokens and bulk flows"). Of an
edge head only SRC_CELL, FLOW and AUX are meaningful (R131). -/
inductive FlitBody where
  | token (t : Token)
  | tokenFirst
  | tokenSecond (t : Token)
  | flowHead (t : Token) (lofs : Nat)
  | edgeHead (src : Nat) (flow : BitVec 8) (aux : Word)
  | flowData (bytes : List Byte)
  | chain (bytes : List Byte)
  deriving DecidableEq, Repr, Inhabited

/-- A flit in flight: the router (cell, or engine when `toEngine`) it reaches next, the fc in which it does, the side
on which it arrives there (0 N, 1 E, 2 S, 3 W, 4 loopback; R162), its lane, and whether that link is a die bridge. -/
structure Flit where
  dest     : Nat
  toEngine : Bool
  due      : Nat
  side     : Nat
  lane     : Nat
  bridge   : Bool
  body     : FlitBody
  deriving DecidableEq, Repr, Inhabited

/-- A landing in progress (R129, R131): the link side and lane (4 * side + lane) on which its flits come, its half,
the next byte offset, the data flits still to come, whether one has been written and in which fc the first was, and the
completion token's header. -/
structure Landing where
  key     : Nat
  half    : Nat
  ofs     : Nat
  left    : Nat
  started : Bool
  since   : Nat
  tok     : Token
  deriving DecidableEq, Repr, Inhabited

/-- A flit delivered to this cell and not yet acted on: a flow head, a flow data flit or a chain flit. -/
structure Delivered where
  key  : Nat
  fc   : Nat
  body : FlitBody
  deriving DecidableEq, Repr, Inhabited

/-- A bulk flow that a FLOW has started (R132): its route entry, its issuing fold and tag, the memory and address it
reads, the data flits it has, the ones sent, the head until it is sent, the fc of the last injection, and whether its
predicate held. -/
structure OutFlow where
  fold    : Nat
  tag     : BitVec 16
  route   : Nat
  entry   : Word
  src     : Nat
  addr    : Nat
  total   : Nat
  sent    : Nat
  head    : Option Token
  lofs    : Nat
  lastFc  : Nat
  live    : Bool
  deriving DecidableEq, Repr, Inhabited

/-- An arm for one edge flow (R146). -/
structure Arm where
  tag  : BitVec 16
  port : Nat
  fold : Nat
  ofs  : Nat
  deriving DecidableEq, Repr, Inhabited

/-- A sandbag-chain member (R150, R151): what its SANDBAG recorded, the flits kept and forwarded so far, and for a
first member that reads its own flits, the memory and address and the flits read. -/
structure Member where
  tag    : BitVec 16
  port   : Nat
  fold   : Nat
  route  : Nat
  keep   : Nat
  rest   : Nat
  kept   : Nat
  passed : Nat
  ofs    : Nat
  half   : Nat
  src    : Nat
  addr   : Nat
  read   : Nat
  issued : Nat
  deriving DecidableEq, Repr, Inhabited

/-- The position of a walk along a loop descriptor (R135): the runs done, and the bytes of the current run already
moved. -/
structure Walk where
  step : Nat
  ofs  : Nat
  deriving DecidableEq, Repr, Inhabited

/-- Kinds of local stream (R141). -/
inductive StreamKind where
  | stld | stst | stidx | stptr
  deriving DecidableEq, Repr, Inhabited

/-- A word that the local stream unit has read and not yet written (R142): the fc of its read, the address in tier 0 or
the landing offset that it goes to, its bytes, and the reason code of a read that faulted (0: none). -/
structure StreamWord where
  read  : Nat
  dst   : Nat
  bytes : List Byte
  code  : Nat
  deriving DecidableEq, Repr, Inhabited

/-- A local stream that is outstanding (R142): its fields as issued (the walk's base, the contiguous side's memory and
address, the list's memory and address, the descriptor's scratch address), whether its descriptor has been read, and the
descriptor; its walk, the bytes moved, the count word and the list entry that governs the current runs; whether it has
written, in which half it lands, the fcs of its first and last write; the fc of its next LR read, the words read and not yet
written, and the fault that its walk has met, with its fc (R136 to R138). -/
structure LocalStream where
  kind    : StreamKind
  sid     : Nat
  fold    : Nat
  tag     : BitVec 16
  live    : Bool
  issued  : Nat
  base    : Nat
  side    : Nat
  contig  : Nat
  listMem : Nat
  list    : Nat
  dsAddr  : Nat
  started : Bool
  desc    : BitVec 512
  walk    : Walk
  moved   : Nat
  count   : Option Nat
  entry   : Option Nat
  written : Bool
  half    : Nat
  since   : Nat
  lastFc  : Nat
  nextFc  : Nat
  buf     : List StreamWord
  fault   : Option (Nat × Nat)
  deriving DecidableEq, Repr, Inhabited

/-- A sync operation that has issued (R56, R57): its kind by opcode, its object (die and number), its value, its
destination scalar, its limit in fc (0: none), whether its predicate held, its issue fc; then whether it has acted, the
object it returned, and for a wait the fc at whose end COUNT met the value. A MANCH with MODE AGREED reads its object as
such an operation does (R80). -/
structure SyncOp where
  cell   : Nat
  fold   : Nat
  tag    : BitVec 16
  opcode : Nat
  die    : Nat
  obj    : Nat
  value  : Word
  dest   : Nat
  limit  : Nat
  live   : Bool
  issued : Nat
  acted  : Bool
  result : Word
  met    : Option Nat
  deriving DecidableEq, Repr, Inhabited

/-- A byte that a unit has written in the present fc (R128): the memory and address, what it held at the start of the fc, and
the writer's place in the order SPST 1, LD 2, LW 3, VR 4, VO 5. -/
structure ByteWrite where
  mem  : Nat
  addr : Nat
  old  : Byte
  rank : Nat
  deriving DecidableEq, Repr, Inhabited

/-! ### The matrix unit (03_matrix_unit.md) -/

/-- One element of the accumulation window (R83): the 192-bit internal sum and its special state. -/
structure WinElem where
  sum  : BitVec 192
  nan  : Bool
  pinf : Bool
  ninf : Bool
  deriving DecidableEq, Repr, Inhabited

/-- A tile-queue entry with its descriptor (R96), and the first fc in which a VRUNT may pop it (R97). -/
structure TileEntry where
  ready  : Nat
  row0   : Nat
  rows   : Nat
  cols   : Nat
  ofmt   : Nat
  status : BitVec 32
  anchor : BitVec 16
  bytes  : List Byte
  deriving DecidableEq, Repr, Inhabited

/-- A conversion in progress (R95, R97): the fc in which it is ready, its issuing fold and tag, the flags it sets, and its
entry; a MOUT under a false predicate occupies the converter and pushes nothing. -/
structure Conversion where
  ready  : Nat
  fold   : Nat
  tag    : BitVec 16
  status : BitVec 32
  entry  : Option TileEntry
  deriving DecidableEq, Repr, Inhabited

/-- Operations of the matrix unit that read operands (R74, R75, R79): MLDW, MMUL, MACC, and the probe form. -/
inductive MatrixKind where
  | mldw | mmul | macc | probe
  deriving DecidableEq, Repr, Inhabited

/-- A matrix operation in progress (R79, R80): its kind, the fcs in which it issued, leaves what it does and has read its
operands, its issuing fold and tag, whether its predicate held, its instruction, its A and W addresses, the anchor that an MMUL
takes (none: it scans for it); then the bytes it has read, by the number of the access, the rows of W (code and scale) once its
panels are in the planes, and the fault it has met, with its fc. -/
structure MatrixOp where
  kind   : MatrixKind
  issued : Nat
  done   : Nat
  free   : Nat
  fold   : Nat
  tag    : BitVec 16
  live   : Bool
  insn   : InsnWord
  aBase  : Nat
  wBase  : Nat
  given  : Option Int
  got    : Assoc (List Byte)
  rows   : List (List (Nat × Nat))
  loaded : Bool
  abort  : Option (Nat × Nat)
  deriving DecidableEq, Repr, Inhabited

/-- The matrix unit: the two weight planes (R64), the active one, the anchor mode and the GIVEN or AGREED anchor
(R86), the window with its anchor and its flags since the MMUL (R83, R94), the probe result, the sticky unit status
word (R94), the operations in progress, the first fc in which a MACC, an MMUL or MOUT, and an MLDW may issue (R80), the
fcs in which the W port's load, the converter and an AGREED MANCH end (R80, R95), the conversions in progress, and the
tile queue (R97). A plane holds the element code of row k and column n at byte 2 (64 k + n), and its block's scale at byte
16384 + 64 k + n. -/
structure MatrixUnit where
  wp0       : Mem
  wp1       : Mem
  active    : Nat
  mode      : BitVec 2
  given     : Int
  anchor    : Int
  window    : Assoc WinElem
  winStatus : BitVec 32
  probe     : Int
  status    : BitVec 32
  ops       : List MatrixOp
  maccFrom  : Nat
  mmulFrom  : Nat
  mldwFrom  : Nat
  wPortFree : Nat
  convFree  : Nat
  manchFree : Nat
  conv      : List Conversion
  tiles     : List TileEntry
  deriving DecidableEq, Repr, Inhabited

/-! ### The vector chain (04_vector_chain.md) -/

/-- A result of the chain on its way to a memory (R111): the fc of its write, the memory and byte address, the bytes, and the
bits of them, as a mask, that stay as they are there; whether it goes through VR, the port of R's results (R127). -/
structure PassWrite where
  fc    : Nat
  mem   : Nat
  addr  : Nat
  bytes : List Byte
  keep  : Nat
  viaR  : Bool
  deriving DecidableEq, Repr, Inhabited

/-- Where a pass stands (R111, R126): its next batch of reads; the elements before a PERMUTE whose group is not whole, each with
its inputs and the P outputs so far; the elements evaluated; the last value of each broadcast input with its segment; the
operands of the open segment, of which the partial sum is formed; the anchors that a first sweep has formed; the open MX block;
the results still to be written, and those written to scratch, which other reads see at the pass's end; its flags, and the fault
it has met, with its fc. An element is its code and its block's scale byte. -/
structure PassState where
  next   : Nat
  buf    : List (List (Nat × Nat))
  done   : Nat
  cast   : List (Option (Nat × (Nat × Nat)))
  segOps : List Nat
  grids  : List Int
  block  : List (Nat × Nat)
  writes : List PassWrite
  late   : List (Nat × Nat × Byte)
  st     : BitVec 32
  abort  : Option (Nat × Nat)
  deriving DecidableEq, Repr, Inhabited

/-- A vector chain pass in progress under the active configuration (R109 to R111, R126): the fc of its issue and the fc in which
the chain is free, its fold and tag, whether its predicate held, its count (0 where it reads nothing) and segment length, whether
X0 comes from the input register, the scalars as read at issue, and where it stands. -/
structure VectorRun where
  issued : Nat
  done   : Nat
  fold   : Nat
  tag    : BitVec 16
  live   : Bool
  n      : Nat
  seg    : Nat
  tile   : Bool
  regs   : List Word
  pos    : PassState
  deriving DecidableEq, Repr, Inhabited

/-- A VCFG load in progress (R107, R126): the fc of its issue, the scratch address, whether its predicate held, and the bytes
read, 16 an fc. -/
structure VcfgLoad where
  issued : Nat
  addr   : Nat
  live   : Bool
  got    : List Byte
  deriving DecidableEq, Repr, Inhabited

/-- The vector chain (R100, R107, R126): active and shadow configurations with their validity, a VCFG load and a pass in
progress, the first fc in which the loader and the chain are free again, the 16 KiB input register with the entry's descriptor,
and the status words of R113. -/
structure VectorUnit where
  active      : BitVec 1024
  activeValid : Bool
  shadow      : BitVec 1024
  shadowValid : Bool
  load        : Option VcfgLoad
  run         : Option VectorRun
  loadFree    : Nat
  runFree     : Nat
  input       : TileEntry
  acc         : BitVec 32
  last        : BitVec 32
  captured    : BitVec 32
  deriving DecidableEq, Repr, Inhabited

/-- A cell (R30 and "What a cell holds"): its fold store, fold schedule and position (R45 to R49), match store and
queues with the first fc of the next match (R37), the fc of the last END and the slot it released (R38, R39), the firing in
progress, cheap point (R290), memories, roles of the halves (R129), landings in progress and the halves and fcs of those that
have ended, the bytes written in the fc `wroteFc` with what they held before it and their writer's place in the order of R128,
streams with the fc and SID of the last to end, units, and the written-page map (R291). `record` says whether the enabled image has a record for it (R161). -/
structure Cell where
  record    : Bool
  folds     : Assoc Fold
  sched     : List (BitVec 32)
  schedPos  : Nat
  dwellFrom : Nat
  switching : Option Nat
  slots     : Assoc Slot
  queues    : List (List Queued)
  matchFrom : Nat
  firing    : Option Firing
  lastEnd   : Option Nat
  freed     : Option Nat
  cheap     : Bool
  outbox    : List Outgoing
  loopback  : List (Nat × Token)
  inbox     : List Delivered
  scratch   : Mem
  half0     : Mem
  half1     : Mem
  useHalf   : Nat
  tier0     : Mem
  pages     : BitVec 168
  wroteFc   : Nat
  wrote     : List ByteWrite
  landings  : List Landing
  flows     : List OutFlow
  arms      : Assoc Arm
  chain     : Option Member
  streams   : List LocalStream
  landed    : List (Nat × Nat)
  lastStrm  : Option (Nat × Nat)
  matrix    : MatrixUnit
  vector    : VectorUnit
  genFree   : Nat
  genBusy   : Bool
  deriving DecidableEq, Repr, Inhabited

/-! ### Edge stream engines (05_streams_and_loops.md) -/

/-- A word of an ingress entry's walk in the release buffer (R145): the entry, its number in the walk, its release fc,
its data once arrived, and the ST code it is marked with. -/
structure RelWord where
  entry   : Nat
  index   : Nat
  release : Nat
  data    : Option (List Byte)
  mark    : Option Nat
  deriving DecidableEq, Repr, Inhabited

/-- An egress flit in the outfall buffer (R147): the device address and tier of its run and its bytes. -/
structure OutWord where
  entry : Nat
  addr  : Nat
  bytes : List Byte
  deriving DecidableEq, Repr, Inhabited

/-- An edge stream engine (R143): its ingress and egress entries, the words fetched and the words released of each
ingress entry, the release buffer, the bytes each egress entry's walk has taken, the egress entry and the flits still to
come on each lane, the flits delivered to it, and the outfall buffer. -/
structure Engine where
  ingress  : List (BitVec 1024)
  egress   : List (BitVec 1024)
  fetched  : Assoc Nat
  released : Assoc Nat
  buffer   : List RelWord
  outWalk  : Assoc Nat
  selected : Assoc (Nat × Nat)
  inbox    : List Delivered
  outfall  : List OutWord
  deriving DecidableEq, Repr, Inhabited

/-! ### Memory (07_memory_tiers.md) -/

/-- An object record (R186) and its lease count (R251). HELD is not stored: `objHeld` computes it (R186). -/
structure Obj where
  expiring : Bool
  vbase    : Nat
  nplots   : Nat
  ttl      : Nat
  clen     : Nat
  root     : List Byte
  rvalid   : Bool
  qclass   : Nat
  keep2    : Bool
  pin      : Bool
  allow    : BitVec 2
  home     : BitVec 2
  leases   : Nat
  deriving DecidableEq, Repr, Inhabited

/-- A plot-table entry and its sector map (R187); V is 1 for a plot that is listed and whose object is live or expiring.
`took` says that the copy in progress took the frame it copies to, and `cancel` that the pending change is dropped at the
next commit (R196). -/
structure Plot where
  obj     : Nat
  cur     : BitVec 2
  has1    : Bool
  has2    : Bool
  copy    : Bool
  pend    : Bool
  poison  : Bool
  t1frame : Nat
  t2frame : Nat
  resync  : BitVec 32
  dirty   : BitVec 32
  took    : Bool
  cancel  : Bool
  deriving DecidableEq, Repr, Inhabited

/-- A 2 MiB frame: its bytes, its poisoned sectors, and of each poisoned sector the bytes that have been written since, as a map
of its 65,536 bytes (R199). -/
structure Frame where
  mem    : Mem
  poison : BitVec 32
  mended : Assoc Nat
  deriving DecidableEq, Repr, Inhabited

/-- A memory command that has started (R193, R194): its 64 bytes, its object, the plots on which its work is not
finished (R196), the plots whose change it awaits at a commit, the record of an ALLOC, the count for its completion, and
the status it will complete with. -/
structure McRun where
  cmd      : BitVec 512
  obj      : Nat
  todo     : List Nat
  awaiting : List Nat
  record   : Option Obj
  count    : Nat
  status   : Nat
  deriving DecidableEq, Repr, Inhabited

/-- An INGEST in progress on a queue pair (R210): its partition and command, the bytes its READs have asked for, the
bytes landed, the bytes of the leaf in progress, and the digests of the leaves that are complete. -/
structure IngestRun where
  part    : Nat
  cmd     : BitVec 512
  asked   : Nat
  landed  : Nat
  leaf    : List Byte
  digests : List (List Byte)
  deriving DecidableEq, Repr, Inhabited

/-- A queue pair's working state (R208, R209): state (0 invalid, 1 ready, 2 error), the next PSN to send, the PSN of the
next response, the expected receive PSN, whether a sequence error NAK stands for it, the retries made in a row, and the
INGESTs in progress, of which the first runs. Its context is OD 0x1700.10. -/
structure QueuePair where
  state   : Nat
  sendPsn : BitVec 24
  respPsn : BitVec 24
  recvPsn : BitVec 24
  nakSent : Bool
  retries : Nat
  runs    : List IngestRun
  deriving DecidableEq, Repr, Inhabited

/-! ### Images, jobs and pre-emption (06, 10) -/

/-- What the partition controller keeps of the enabled image (R158): its handle, the header as stored, the digest
computed as the bytes passed (R168), whether every byte could be read, and the objects its OBJREFS name with the tier
that each states (R160). -/
structure Image where
  handle : Nat
  header : List Byte
  digest : List Byte
  whole  : Bool
  refs   : List (Nat × Nat)
  deriving DecidableEq, Repr, Inhabited

/-- Partition states (R166). -/
inductive PState where
  | off | loading | checking | filling | ready | refused | busy | draining | halted
  deriving DecidableEq, Repr, Inhabited

/-- A job in progress (R279, R282): its descriptor, the queue it was taken from, the owner of that queue and whether a
reset of that function has suppressed the record's copy (R265, R277), W and P (R229, R230), its first gt, its drains, its
ND operations so far (R224), its held cycles (R321), its partition's energy at its launch and that of the jobs that have
overtaken it (R342), its torus plan object (R317), and whether it is a step of the serving loop. -/
structure Job where
  desc     : BitVec 1024
  queue    : Nat
  owner    : Nat
  noCopy   : Bool
  weights  : List Byte
  prov     : List Byte
  startGt  : Nat
  preempts : Nat
  ndops    : BitVec 8
  held     : Nat
  energy0  : Nat
  plan     : Option Nat
  loop     : Bool
  deriving DecidableEq, Repr, Inhabited

/-- The progress of one torus-plan entry (R318, R319): the fc in which it triggered, the value ALLMAX contributes, the
frames sent, the frames landed (member and offset, bytes), the contributions received (member, offset, bytes), and whether its arrival is counted. -/
structure Transfer where
  trigger  : Option Nat
  value    : BitVec 32
  sent     : Nat
  sending  : Bool
  landed   : List (Nat × Nat)
  contrib  : List (Nat × Nat × List Byte)
  counted  : Bool
  deriving DecidableEq, Repr, Inhabited

/-- A hold (R320): the gt in which it began and the gt spent in it in earlier stretches (R322). -/
structure Hold where
  since : Nat
  spent : Nat
  deriving DecidableEq, Repr, Inhabited

/-- A drained job (R291): its job context, the fabric cycle of the freeze, the state the drain saved (cells with the
tier-0 pages of the mode, engines, sync objects, flits, sync operations, transfers and hold), whether another job has
launched since, and whether it is to be discarded when the partition next enters READY (R294). -/
structure Drained where
  job       : Job
  fc        : Nat
  cheap     : Bool
  cells     : Assoc Cell
  engines   : Assoc Engine
  sync      : Assoc Word
  flits     : List Flit
  syncOps   : List SyncOp
  transfers : Assoc Transfer
  hold      : Option Hold
  overtaken : Bool
  discard   : Bool
  deriving DecidableEq, Repr, Inhabited

/-- A pre-emption request (R289): its mode, the fc of the request, whether it is AUTOPRE's, and whether its cheap-point
wait has ended (R290). -/
structure Preempt where
  cheap   : Bool
  since   : Nat
  expired : Bool
  deriving DecidableEq, Repr, Inhabited

/-- What DRAINING has saved until the drain is written (R290, R291). -/
structure Freeze where
  fc    : Nat
  cheap : Bool
  deriving DecidableEq, Repr, Inhabited

/-- The fault that ends the partition's job (R59, R155): its code, the fc in which it was detected, its rank in that fc
(R60: lowest cell, ST before OV, lowest code), the event entry that reports it, whether it is a partition stop, and
whether the torus partners are told (R323). -/
structure FaultRec where
  code   : BitVec 16
  fc     : Nat
  rank   : Nat
  seq    : Nat
  stop   : Bool
  notify : Bool
  deriving DecidableEq, Repr, Inhabited

/-- The record of a job refused or cancelled before launch that waits for the record of an earlier job of its queue, or for
space in the ring (R284): its queue, descriptor, reason code and gt, the owner of its queue, and whether its copy is
suppressed. -/
structure Late where
  queue  : Nat
  desc   : BitVec 1024
  code   : Nat
  gt     : Nat
  owner  : Nat
  noCopy : Bool
  deriving DecidableEq, Repr, Inhabited

/-- A submission queue (R277, R278): its configuration word, head and tail, and the places whose descriptor the partition's
keepers wrote (R234, R280). -/
structure SubQueue where
  cfg       : Word
  head      : Nat
  tail      : Nat
  byKeepers : List Nat
  deriving DecidableEq, Repr, Inhabited

/-- A ring as the partition sees it (R268): consumer index, producer index, and the total of entries the producer has
written, which gives the PHASE (R285). -/
structure Ring where
  head  : Nat
  tail  : Nat
  total : Nat
  deriving DecidableEq, Repr, Inhabited

/-- A PARK or RESUME request that has been taken (R235, R236): which of the two, its CTX and the TTL of a PARK. -/
structure ParkTurn where
  resume : Bool
  ctx    : Word
  ttl    : Nat
  deriving DecidableEq, Repr, Inhabited

/-- A live serving request (R235, R236): its customer, conversation object, namespace and options (NOPFX, NOINS, PROGRESS),
the positions of its prompt and its next position, tokens left to generate (none: until LAST), parking state (0 running, 2
parked, 3 its MOVE to the polder issued, 4 the PLACE of its resume issued, 5 the MOVE of its resume issued), the PARK and
RESUME requests that wait for their turn, the tokens of an APPEND and a TREE to apply at the next admission, the blocks
matched (object, block), the objects it leases, the order of its START, the blocks inserted, whether a step in progress has
it, the status of the memory command that the keepers await for it, and the CTX of the RESUME and of the TREE that act. -/
structure Request where
  cust     : Nat
  kobj     : Nat
  ns       : Word
  flags    : BitVec 3
  ctx      : Word
  prompt   : Nat
  pos      : Nat
  left     : Option Nat
  parking  : Nat
  turns    : List ParkTurn
  append   : Nat
  tree     : Bool
  matched  : List (Nat × Nat)
  leases   : List Nat
  order    : Nat
  inserted : Nat
  inStep   : Bool
  status   : Nat
  resumeCtx : Word
  treeCtx   : Word
  deriving DecidableEq, Repr, Inhabited

/-- One entry of the serving step in progress (R238): its request, first position, positions, draft nodes, whether it computes
prompt positions, and whether its request has ended since (R236). -/
structure StepEntry where
  req       : Nat
  pos       : Nat
  npos      : Nat
  drafts    : Nat
  prefill   : Bool
  cancelled : Bool
  deriving DecidableEq, Repr, Inhabited

/-- The serving step in progress (R238, R239): its step object, the bytes digested of it, its entries, its input digest, the job
seed read at its admission (R262), the byte offset of its result area, whether this is the retry, and the STATUS of its job's record once it is written. -/
structure ServeStep where
  obj     : Option Nat
  len     : Nat
  seed    : Nat
  entries : List StepEntry
  digest  : List Byte
  results : Nat
  retry   : Bool
  outcome : Option Nat
  deriving DecidableEq, Repr, Inhabited

/-- The serving loop of a partition: live requests by id, the step in progress, the next START order, the completions that
wait for space in their ring, and the memory commands that the keepers have to issue and that wait for space in theirs. -/
structure Serving where
  requests : Assoc Request
  step     : Option ServeStep
  order    : Nat
  posts    : List (BitVec 128)
  cmds     : List (BitVec 512)
  deriving DecidableEq, Repr, Inhabited

/-- A partition (R166, R268): its state and status, the pending disable (R167), image, launch-state restore, fabric
cycle counter, flits, sync operations, job, drained job, pre-emption, hold, torus transfers, queues and rings with the
ring memory of its BAR0 block (by 8-byte word), PREEMPT as written (R268, R289), memory commands in progress, the slots of the
memory command ring that hold commands of the keepers, serving, and the prefix commands that have completed. `prepared` is the queue and descriptor that has passed the
checks of R280 and has not launched; `stopped` that HALTED follows a partition stop (R286). -/
structure Part where
  state     : PState
  ctlImage  : BitVec 16
  enable    : Bool
  code      : BitVec 8
  lkind     : BitVec 2
  lunit     : BitVec 12
  lsub      : BitVec 6
  lfold     : BitVec 3
  stepNo    : BitVec 5
  disabling : Bool
  image     : Option Image
  restoring : Bool
  recheck   : Bool
  fc        : Nat
  first     : Bool
  flits     : List Flit
  syncOps   : List SyncOp
  job       : Option Job
  fault     : Option FaultRec
  drained   : Option Drained
  freezing  : Option Freeze
  refilling : Bool
  preReg    : BitVec 2
  preempt   : Option Preempt
  preCode   : BitVec 8
  preVoid   : Bool
  fellBack  : Bool
  freezeFc  : Nat
  hold      : Option Hold
  transfers : Assoc Transfer
  queues    : Assoc SubQueue
  late      : List Late
  prepared  : Option (Nat × BitVec 1024)
  stopped   : Bool
  seq       : Nat
  cq        : Ring
  mc        : Ring
  mcc       : Ring
  sr        : Ring
  sc        : Ring
  ringMem   : Assoc Word
  mcRuns    : List McRun
  mcKeepers : List Nat
  serving   : Serving
  pfxDone   : List (BitVec 128)
  deriving DecidableEq, Repr, Inhabited

/-! ### Host ports, semaphores, management -/

/-- A semaphore that is held (R270): its owner and the gt at which its lease ends. -/
structure Sem where
  owner : Nat
  until_ : Nat
  deriving DecidableEq, Repr, Inhabited

/-- A BAR2 collection (R379): the subindex of its entry of 0x1A10 and its element, the words collected, whether the function
owned the guarding semaphore when the last word arrived, and the gt of its last write. -/
structure Collection where
  sub   : Nat
  elem  : Nat
  words : Assoc Word
  owned : Bool
  last  : Nat
  deriving DecidableEq, Repr, Inhabited

/-- A host function (R266): BAR4_CTL (R269), its collection buffer, the collections that are whole and await the warden
(R15), its MSI-X table words and pending bits. -/
structure HostFn where
  bar4     : Word
  collect  : Option Collection
  ready    : List Collection
  msix     : Assoc Word
  pba      : Nat
  deriving DecidableEq, Repr, Inhabited

/-- A subscription (R369): the entry (256 * index + subindex) and element watched (none: the event log), the minimum interval, one
more than the gt of the last notification (0: none yet), the value last sent or the next event's sequence number. -/
structure Subscription where
  key      : Option Nat
  elem     : Nat
  interval : Nat
  last     : Nat
  sent     : Nat
  deriving DecidableEq, Repr, Inhabited

/-- A management session (R363 to R369): SESSION, principal, role, ENC, keys, port and address of the last request,
highest SEQ accepted, the responses stored for the 16 most recent (a BULK_READ's as an empty one and its datagrams), NSEQ,
its renewals, its times, and its subscriptions. -/
structure Session where
  sid       : BitVec 32
  principal : Nat
  role      : Nat
  enc       : Bool
  kmac      : List Byte
  kenc      : List Byte
  port      : Nat
  addr      : BitVec 128
  udp       : BitVec 16
  seq       : Nat
  stored    : List (Nat × List Byte)
  nseq      : Nat
  renewals  : Nat
  opened    : Nat
  last      : Nat
  subs      : Assoc Subscription
  deriving DecidableEq, Repr, Inhabited

/-- A BULK_READ in progress (R370): session slot, SEQ, the session's renewals at its execution, where its datagrams go (R357),
the entry (none: the event log), the first element or event sequence number, the elements left, the byte offset reached and
the datagrams sent; or the datagrams of a stored one that are to be sent again (R364). -/
structure Bulk where
  slot  : Nat
  seq   : Nat
  gen   : Nat
  port  : Nat
  addr  : BitVec 128
  udp   : BitVec 16
  again : Option (List (List Byte))
  key   : Option Nat
  next  : Nat
  left  : Nat
  ofs   : Nat
  sent  : Nat
  deriving DecidableEq, Repr, Inhabited

/-- The management side (13): sessions by slot, session numbers used, client nonces of the last 64 OPENs (R363),
principal keys (R360) and roles are in the dictionary; bulk reads, the request and STARTING rates of the current second
(R372, R373), and the entropy draws made so far. -/
structure Mgmt where
  sessions  : Assoc Session
  used      : List Nat
  nonces    : List (List Byte)
  keys      : Assoc (List Byte)
  bulk      : List Bulk
  reqSecond : Nat
  reqCount  : Nat
  stSecond  : Nat
  stCount   : Nat
  deriving DecidableEq, Repr, Inhabited

/-! ### Links and the global counter (11) -/

/-- A key slot (R309). -/
structure Key where
  key      : List Byte
  epoch    : BitVec 32
  switchAt : Nat
  deriving DecidableEq, Repr, Inhabited

/-- A frame before encryption (R300); `part` is the partition whose transfer it is of, at the node
that sends it first; `held` the receive buffer that it still stands in, by link and virtual channel (R304). -/
structure LinkFrame where
  typ     : BitVec 4
  vc      : BitVec 2
  dest    : BitVec 18
  src     : BitVec 18
  chan    : BitVec 8
  len     : BitVec 10
  ofs     : BitVec 28
  lseq    : BitVec 24
  payload : List Byte
  resent  : Nat
  part    : Option Nat
  held    : Option (Nat × BitVec 2)
  deriving DecidableEq, Repr, Inhabited

/-- One link, both directions (R298 to R311): key slots, frame counter and frames under the key, LSEQ of both
directions, the frames waiting, the replay buffer and how many of it are to be sent again, the credits of VC 0, 1 and 2 and
those to be returned, the least frame counter the receiver takes next, frames since the last acknowledgement, the LSEQ for
which a negative one went, the failing run of R303 and the gts of the last 1,001 tag failures, the frames rejected in a row
(32,768 while the full counter is awaited, R308), the gt at which the retraining began, the reach class of the training in
progress (R299), and the source that was served last (R304). -/
structure Link where
  txCur    : Option Key
  txNext   : Option Key
  rxCur    : Option Key
  rxNext   : Option Key
  txFrames : Nat
  txUnder  : Nat
  txSeq    : BitVec 24
  rxSeq    : BitVec 24
  rxFrom   : Nat
  waiting  : List LinkFrame
  replay   : List LinkFrame
  resend   : Nat
  credits  : List Nat
  returned : List Nat
  owed     : Nat
  nakFor   : Option (BitVec 24)
  tagRun   : Nat
  tagTimes : List Nat
  rejected : Nat
  since    : Nat
  reach    : Nat
  turn     : Nat
  deriving DecidableEq, Repr, Inhabited

/-- The global counter and its servo (R313 to R315): the count, whether the first acquisition has completed, the correction
of a late one that waits to be applied, the gt of the last SYNC, the gt of step 11 and whether the wait for the first
acquisition has ended, the exchange in progress (link, t1, t2, t3), the t1 of the last SYNC taken, the offsets of up to 16
exchanges, the exchanges since the last average, the correction still to slew in root cycles, the gt of the last slewed
period, the last frequency estimate, and the gt at which HOLDOVER began. -/
structure Counter where
  gt       : Nat
  acquired : Bool
  pending  : Option Int
  lastSync : Nat
  waitFrom : Option Nat
  waitOver : Bool
  exchange : Option (Nat × Int × Int × Int)
  lastT1   : Option Int
  offsets  : List Int
  batch    : Nat
  slew     : Int
  lastSlew : Nat
  freq     : Int
  holdFrom : Nat
  deriving DecidableEq, Repr, Inhabited

/-! ### Clocks, power and thermal (01, 12) -/

/-- Clocks and pace (R16, R22, R23, R336): root PLL released and locked, all clocks stopped by a trip, the fabric
stopped by a breach, the pace in force, the governor's k, the source edge within the pace step, the VRM-alert clamp, and
the straps sampled. -/
structure Clocks where
  pllOn    : Bool
  locked   : Bool
  tripStop : Bool
  pace     : Nat
  govPace  : Nat
  edge     : Nat
  alert    : Bool
  clkMode  : BitVec 2
  bootSel  : BitVec 2
  deriving DecidableEq, Repr, Inhabited

/-- The governor and the limiter (R332 to R338): the last M, the package power summed over the polls of this step interval and
their number, the envelope, the next pace and spillway (set at the step point), the spillway of each die, the windows
Pact(1) has exceeded CAP, READ_VOUT and READ_IOUT of each rail's last answer, the rails' out-of-tolerance and failed polls
(R330), telemetry lost, whether the evaluation of this window is done, the partitions BUSY since the step point, the
VDD_AON fault that stops OTP writes, the static power, which term set the next and the present pace (R336), and the bytes
that the link and ingest lanes have carried for each partition since the last poll (R341). -/
structure Power where
  measured  : Nat
  pollSum   : Nat
  pollCount : Nat
  envelope  : Nat
  nextPace  : Nat
  nextSpill : Nat
  spill     : Assoc Nat
  overCap   : Nat
  vout      : Assoc Nat
  iout      : Assoc Nat
  outOfTol  : Assoc Nat
  missed    : Assoc Nat
  telLost   : Bool
  evaluated : Bool
  wasBusy   : List Nat
  aonFault  : Bool
  static    : Nat
  nextTerm  : Nat
  govTerm   : Nat
  carried   : Assoc Nat
  deriving DecidableEq, Repr, Inhabited

/-- The run of readings of one sensor that have not changed (R345): the value, the readings, and the least and the greatest
power of its die, in mW, among them. -/
structure SensorRun where
  mc    : Int
  count : Nat
  low   : Nat
  high  : Nat
  deriving DecidableEq, Repr, Inhabited

/-- Thermal protection (R344 to R347): the thermal ceiling, sensors excluded and the runs of the sensors' readings (kind *
65536 + unit * 256 + sensor), whether every reading since the step point has been 3 °C below its threshold (none: no
reading yet), what that was at the evaluation, the dies throttled, the trip latch, the trip record, and whether PW-0x05 has
been logged of it. -/
structure Thermal where
  ceiling   : Nat
  excluded  : List Nat
  runs      : Assoc SensorRun
  coolRun   : Option Bool
  coolEval  : Bool
  throttled : List Nat
  latch     : Bool
  record    : List Byte
  logged    : Bool
  deriving DecidableEq, Repr, Inhabited

/-! ### Reset, boot and fuses (14) -/

/-- An episode (R388): its level code and target (0 for L0 to L3B, the partition, or the block id), the sources that
hold it, the sources seen in it, whether its release sequence runs, the last step released, and what TIER1_KEEP was at its
assertion as L2 (R384). -/
structure Episode where
  level    : Nat
  target   : Nat
  sources  : List Nat
  seen     : BitVec 16
  running  : Bool
  step     : Nat
  keep     : Bool
  deriving DecidableEq, Repr, Inhabited

/-- One generation of an OTP record (R399): its 256 data bits, its marker byte, whether it holds an uncorrectable word
and whether a word was corrected. A generation that is not blank and not marked was interrupted (R400). -/
structure OtpGen where
  data    : BitVec 256
  marker  : BitVec 8
  bad     : Bool
  fixed   : Bool
  deriving DecidableEq, Repr, Inhabited

/-- An OTP write in progress (R399, R389): record, generation, data, and the pulses left (data and check bits, then the
marker); `state` names the life-cycle state record that follows an intent record (R401). -/
structure OtpWrite where
  record : Nat
  gen    : Nat
  data   : BitVec 256
  pulses : Nat
  then_  : Option Nat
  deriving DecidableEq, Repr, Inhabited

/-- An assertion that waits for an OTP pulse to end (R389): its source, level and target, and whether the source has deasserted
since. -/
structure Deferred where
  source   : Nat
  level    : Nat
  target   : Nat
  released : Bool
  deriving DecidableEq, Repr, Inhabited

/-- Fuses, straps, boot and firmware (14): OTP generations (4 * record + generation), a write in progress, the assertions
that wait for its pulse, the records found exhausted, the fused assembly, the source map's shadow
(R385), the boot buffer, flash contents and size, RESULT and WSEL of BOOT_CTL, the running bundle, the version of the training image
accepted with it (none: none was), whether the keepers run,
whether the ROM waits for a bundle (R397), DEV_STATE, and the gt of the last deassertion. -/
structure Boot where
  otp       : Assoc OtpGen
  writing   : Option OtpWrite
  deferred  : List Deferred
  exhausted : List Nat
  assembly  : Nat
  map       : BitVec 256
  buffer    : Mem
  flash     : Mem
  flashSize : Nat
  result    : Nat
  wsel      : Nat
  running   : List Byte
  memFw     : Option Nat
  keepersOk : Bool
  waiting   : Bool
  devState  : Nat
  releaseGt : Nat
  deriving DecidableEq, Repr, Inhabited

/-- Input pins as sampled and open-drain outputs (R386, R428): true is the high level. -/
structure Pins where
  pwrGood   : Bool
  coldRstN  : Bool
  warmRstN  : Bool
  perstAN   : Bool
  perstBN   : Bool
  shelfOk   : Bool
  pmbAlertN : Bool
  alertN    : Bool
  thermtripN : Bool
  bootSel   : BitVec 2
  clkMode   : BitVec 2
  deriving DecidableEq, Repr, Inhabited

/-- The entropy source (R417, R418): the buffer of each fabric die, the retests failed in a row, the gt of the last
failure, and the words delivered of the block that goes to the die buffers. -/
structure Entropy where
  buffers : Assoc (List Word)
  retests : Nat
  failGt  : Nat
  words   : Nat
  deriving DecidableEq, Repr, Inhabited

/-! ### Events, watermarks, outputs (15) -/

/-- An event-log entry (R410). -/
structure Event where
  seq    : Nat
  gt     : Nat
  code   : BitVec 16
  reason : BitVec 16
  eclass : BitVec 3
  plane  : BitVec 2
  part   : Option Nat
  detail : BitVec 95
  deriving DecidableEq, Repr, Inhabited

/-- A watermark record (R414) and its latest sample (R415); `noted` that its first crossing since the last read has
been logged. -/
structure Mark where
  extreme : Int
  count   : Nat
  crossed : Bool
  above   : Bool
  latest  : Int
  noted   : Bool
  deriving DecidableEq, Repr, Inhabited

/-- What the block has sent to the outside, newest last. -/
inductive Output where
  /-- An MSI-X message of a function (owner id) on a vector (R267). -/
  | msix (fn vector : Nat)
  /-- A memory write through a host function: the copy of a completion record (R285). -/
  | dma (fn : Nat) (addr : Nat) (bytes : List Byte)
  /-- The answer to a PCIe read of a register or of BAR4. -/
  | readData (fn : Nat) (bytes : List Byte)
  /-- A datagram or ICMPv6 message out of a management port (R357). -/
  | datagram (port : Nat) (addr : BitVec 128) (udp : BitVec 16) (bytes : List Byte)
  /-- An encrypted frame on a link, or an unencrypted link-control exchange (R300). -/
  | frame (link : Nat) (bytes : List Byte)
  /-- An RDMA packet of a queue pair: 0 READ request, 1 acknowledgement, 2 remote access error NAK, 3 READ retry, 4 CNP,
  5 sequence error NAK. -/
  | rdma (qp kind : Nat) (psn : BitVec 24) (va len : Nat)
  deriving DecidableEq, Repr, Inhabited

/-- The block. `dict` holds what a SET or a counter has stored (R355); `inForce` what an entry that waits for a step
boundary still acts with (R191, R214), and `shareWait` of each element of SYNC_SHARE the bits that wait for the boundary of its own
partition and those that wait for that of the partition they name (R62); `mirror` the value of each mirrored element, with its entry's SEQ under element 2^32 − 1, and
`mirrorGt` UPDATED_GT (R376, R378); `ttlGt` the global counter at the last TTL tick (R198); `bar4Bad` the BAR4 accesses counted by R183 and R184;
`refillL` L of R243; `lastSecond` the counts at the last second that the watermarks 47 to 71 difference (R416); `privLogged`
the gt of the last LK-0x0B (R312); `pathDrops` the frames dropped for want of a way (R306); `free` the free values used. -/
structure State where
  pending   : List Instr
  dict      : Assoc Nat
  inForce   : Assoc Nat
  shareWait : Assoc (BitVec 8 × BitVec 8)
  mirror    : Assoc (Nat × Nat)
  mirrorGt  : Nat
  cells     : Assoc Cell
  engines   : Assoc Engine
  sync      : Assoc Word
  parts     : Assoc Part
  objects   : Assoc Obj
  plots     : Assoc Plot
  frames    : Assoc Frame
  qps       : Assoc QueuePair
  windowNak : List Nat
  ttlGt     : Nat
  bar4Bad   : Nat
  refillL   : Nat
  lastSecond : Assoc Nat
  privLogged : Option Nat
  pathDrops : Nat
  sems      : Assoc Sem
  fns       : Assoc HostFn
  breach    : BitVec 32
  clocks    : Clocks
  counter   : Counter
  links     : Assoc Link
  seenMsgs  : List (Nat × Nat)
  msgSeq    : Nat
  mailbox   : List (Nat × List Byte)
  power     : Power
  thermal   : Thermal
  mgmt      : Mgmt
  episodes  : List Episode
  boot      : Boot
  pins      : Pins
  entropy   : Entropy
  events    : Assoc Event
  marks     : Assoc Mark
  outputs   : List Output
  free      : Nat
  deriving DecidableEq, Repr, Inhabited

/-! ### Values after enable and after reset -/

/-- A fold that no record gives: no instructions, no routes, scalars zero (R162). -/
def Fold.init : Fold :=
  { instrs := [], opMask := 0, routes := [], fwd := 0, regs := [], preds := 0, awaited := [], susp := none,
    fired := false }

/-- The matrix unit at enable (R64). -/
def MatrixUnit.init : MatrixUnit :=
  { wp0 := Mem.zero, wp1 := Mem.zero, active := 0, mode := 0, given := 0, anchor := 0, window := [], winStatus := 0,
    probe := 0, status := 0, ops := [], maccFrom := 0, mmulFrom := 0, mldwFrom := 0, wPortFree := 0, convFree := 0, manchFree := 0, conv := [],
    tiles := [] }

/-- The vector chain at enable (R171). -/
def VectorUnit.init : VectorUnit :=
  { active := 0, activeValid := true, shadow := 0, shadowValid := true, load := none, run := none, loadFree := 0, runFree := 0,
    input := { ready := 0, row0 := 0, rows := 0, cols := 0, ofmt := 0, status := 0, anchor := 0, bytes := [] },
    acc := 0, last := 0, captured := 0 }

/-- A cell with no record, its memories zero and half 0 the use half (R129, R161, R390 step 7). -/
def Cell.init : Cell :=
  { record := false, folds := [], sched := [], schedPos := 0, dwellFrom := 0, switching := none, slots := [],
    queues := [[], [], [], []], matchFrom := 0, firing := none, lastEnd := none, freed := none, cheap := false, outbox := [], loopback := [],
    inbox := [], scratch := Mem.zero, half0 := Mem.zero, half1 := Mem.zero, useHalf := 0, tier0 := Mem.zero, pages := 0, wroteFc := 0, wrote := [],
    landings := [], flows := [], arms := [], chain := none, streams := [], landed := [], lastStrm := none, matrix := MatrixUnit.init,
    vector := VectorUnit.init, genFree := 0, genBusy := false }

/-- An engine without entries (R164). -/
def Engine.init : Engine :=
  { ingress := [], egress := [], fetched := [], released := [], buffer := [], outWalk := [], selected := [], inbox := [],
    outfall := [] }

/-- A frame of zeros. -/
def Frame.init : Frame := { mem := Mem.zero, poison := 0, mended := [] }

/-- A queue pair that is invalid (R209). -/
def QueuePair.init : QueuePair := { state := 0, sendPsn := 0, respPsn := 0, recvPsn := 0, nakSent := false, retries := 0, runs := [] }

/-- A submission queue at reset: disabled and empty (R277). -/
def SubQueue.init : SubQueue := { cfg := 0, head := 0, tail := 0, byKeepers := [] }

/-- An empty ring. -/
def Ring.init : Ring := { head := 0, tail := 0, total := 0 }

/-- A partition at reset: OFF, its rings empty, nothing in progress (R166, R383). -/
def Part.init : Part :=
  { state := .off, ctlImage := 0, enable := false, code := 0, lkind := 0, lunit := 0, lsub := 0, lfold := 0,
    stepNo := 0, disabling := false, image := none, restoring := false, recheck := false, fc := 0, first := false,
    flits := [], syncOps := [], job := none, fault := none, drained := none, freezing := none,
    refilling := false, preReg := 0, preempt := none, preCode := 0, preVoid := false, fellBack := false, freezeFc := 0, hold := none,
    transfers := [], queues := [], late := [], prepared := none, stopped := false, seq := 0, cq := Ring.init, mc := Ring.init, mcc := Ring.init, sr := Ring.init,
    sc := Ring.init, ringMem := [], mcRuns := [], mcKeepers := [],
    serving := { requests := [], step := none, order := 0, posts := [], cmds := [] }, pfxDone := [] }

/-- A host function at reset (R269). -/
def HostFn.init : HostFn := { bar4 := 0, collect := none, ready := [], msix := [], pba := 0 }

/-- A link at reset: no keys, counters zero, 256 credits on VC 0 and 1, 64 on VC 2 (R304, R311). -/
def Link.init : Link :=
  { txCur := none, txNext := none, rxCur := none, rxNext := none, txFrames := 0, txUnder := 0, txSeq := 0, rxSeq := 0,
    rxFrom := 0, waiting := [], replay := [], resend := 0, credits := [256, 256, 64], returned := [0, 0, 0], owed := 0,
    nakFor := none, tagRun := 0, tagTimes := [], rejected := 0, since := 0, reach := 0, turn := 26 }

/-- A watermark at L0: armed, nothing recorded (R414). -/
def Mark.init : Mark := { extreme := 0, count := 0, crossed := false, above := false, latest := 0, noted := false }

/-- An unblown OTP generation (R399). -/
def OtpGen.blank : OtpGen := { data := 0, marker := 0, bad := false, fixed := false }

/-- The part right after power-on reset: the L0 episode's sources have deasserted and no step of its release sequence
has run (R388, R390). The global counter is 0 (R383), DEV_STATE reads STARTING (R392), every partition is OFF, the
breach summary and the dictionary hold their defaults, OTP is unblown but for the identity of CDL-H8X4-24 (log 3). -/
def State.reset : State :=
  { pending := [], dict := [], inForce := [], shareWait := [], mirror := [], mirrorGt := 0, cells := [], engines := [], sync := [], parts := [], objects := [],
    plots := [], frames := [], qps := [], windowNak := [], ttlGt := 0, bar4Bad := 0, refillL := 0, lastSecond := [], privLogged := none, pathDrops := 0, sems := [], fns := [], breach := 0,
    clocks := { pllOn := false, locked := false, tripStop := false, pace := 16, govPace := 16, edge := 0,
                alert := false, clkMode := 0, bootSel := 0 },
    counter := { gt := 0, acquired := false, pending := none, lastSync := 0, waitFrom := none, waitOver := false,
                 exchange := none, lastT1 := none, offsets := [], batch := 0, slew := 0, lastSlew := 0, freq := 0,
                 holdFrom := 0 },
    links := [], seenMsgs := [], msgSeq := 0, mailbox := [],
    power := { measured := 0, pollSum := 0, pollCount := 0, envelope := 0, nextPace := 16, nextSpill := 0, spill := [],
               overCap := 0, vout := [], iout := [], outOfTol := [], missed := [], telLost := false, evaluated := false, wasBusy := [], aonFault := false, static := 0,
               nextTerm := 0, govTerm := 0, carried := [] },
    thermal := { ceiling := 16, excluded := [], runs := [], coolRun := some false, coolEval := false, throttled := [],
                 latch := false, record := List.replicate 16 0, logged := false },
    mgmt := { sessions := [], used := [], nonces := [], keys := [], bulk := [], reqSecond := 0, reqCount := 0,
              stSecond := 0, stCount := 0 },
    episodes := [{ level := 0, target := 0, sources := [], seen := 3, running := true, step := 0, keep := false }],
    boot := { otp := [], writing := none, deferred := [], exhausted := [], assembly := 1, map := 0, buffer := Mem.zero,
              flash := Mem.zero, flashSize := 67108864, result := 0, wsel := 0, running := [],
              memFw := none, keepersOk := false, waiting := false, devState := 0, releaseGt := 0 },
    pins := { pwrGood := true, coldRstN := true, warmRstN := true, perstAN := true, perstBN := true, shelfOk := false,
              pmbAlertN := true, alertN := true, thermtripN := true, bootSel := 0, clkMode := 0 },
    entropy := { buffers := [], retests := 0, failGt := 0, words := 0 }, events := [], marks := [], outputs := [],
    free := 0 }

end Sys2Proof.Machine
end

