-- ==== Sys2Proof/Machine/Geometry.lean ====
section
/-! DEFINITION. Where things stand: assemblies (R1, R9, R10), cells and coordinates (R11), shapes (R159, R275),
engines (01, "Floor plan and stack positions"), stacks and channels (R188), links (R298). -/
namespace Sys2Proof.Machine

/-- Cells in the package (R9). -/
def numCells : Nat := 2304

/-- Engines in the package (R9). -/
def numEngines : Nat := 192

/-- An assembly is X4 (R1). -/
def isX4 (assembly : Nat) : Bool := decide (assembly ≤ 3)

/-- The fitted HBM stack positions as a bit map (R10). -/
def stackMap (assembly : Nat) : Nat :=
  match assembly with
  | 1 => 0xFF
  | 2 => 0x5F
  | 4 => 0xFF
  | _ => 0x55

/-- Stack position `i` is fitted (R10). -/
def stackFitted (assembly i : Nat) : Bool := (stackMap assembly).testBit i

/-- The stack that serves eighth `e`: its own, or its die's one fitted stack (R10). -/
def stackOfEighth (assembly e : Nat) : Nat := if stackFitted assembly e then e else 2 * (e / 2)

/-- HBM stacks fitted (R1). -/
def numStacks (assembly : Nat) : Nat := ((List.range 8).filter (stackFitted assembly)).length

/-- I/O dies fitted (R1). -/
def numIo (assembly : Nat) : Nat := if isX4 assembly then 4 else 2

/-- DDR5 channels (R1). -/
def numChannels (assembly : Nat) : Nat := if isX4 assembly then 16 else 8

/-- Keepers (R9). -/
def numKeepers (assembly : Nat) : Nat := if isX4 assembly then 16 else 8

/-- Frames that one stack holds (R181). -/
def stackFrames (assembly : Nat) : Nat := if assembly = 5 then 7424 else 11264

/-- The die of a cell (R11). -/
def cellDie (c : Nat) : Nat := c / 576

/-- The cell's x on its die (R11). -/
def cellX (c : Nat) : Nat := c % 24

/-- The cell's y on its die (R11). -/
def cellY (c : Nat) : Nat := c % 576 / 24

/-- The cell's package coordinate X (R11). -/
def pkgX (c : Nat) : Nat := cellX c + 24 * (cellDie c % 2)

/-- The cell's package coordinate Y (R11). -/
def pkgY (c : Nat) : Nat := cellY c + 24 * (cellDie c / 2)

/-- The cell at package coordinates (R11). -/
def cellAt (X Y : Nat) : Nat := 576 * (X / 24 + 2 * (Y / 24)) + 24 * (Y % 24) + X % 24

/-- The cell beyond side 0 N, 1 E, 2 S, 3 W of a cell, and whether a die bridge lies between (R12, R31). -/
def neighbour (c side : Nat) : Option (Nat × Bool) :=
  let X := pkgX c
  let Y := pkgY c
  let n : Option Nat := match side with
    | 0 => if Y < 47 then some (cellAt X (Y + 1)) else none
    | 1 => if X < 47 then some (cellAt (X + 1) Y) else none
    | 2 => if 0 < Y then some (cellAt X (Y - 1)) else none
    | 3 => if 0 < X then some (cellAt (X - 1) Y) else none
    | _ => none
  n.map (fun d => (d, decide (cellDie c ≠ cellDie d)))

/-- The side opposite to a side. -/
def opposite (side : Nat) : Nat := (side + 2) % 4

/-- Fabric cycles of a hop (R32). -/
def hopFc (bridge : Bool) : Nat := if bridge then 8 else 2

/-- The eighth position that holds a cell (R159): its die's lower rows, then its upper rows. -/
def cellEighth (c : Nat) : Nat := 2 * cellDie c + (if cellY c < 12 then 0 else 1)

/-- The eighths that a SHAPE code covers (R159). -/
def shapeEighths (shape : Nat) : List Nat :=
  match shape / 16 with
  | 1 => if shape = 0x10 then List.range 8 else []
  | 2 => if shape % 16 < 2 then range (4 * (shape % 16)) 4 else []
  | 3 => if shape % 16 < 4 then range (2 * (shape % 16)) 2 else []
  | 4 => if shape % 16 < 8 then [shape % 16] else []
  | _ => []

/-- The partition number of a SHAPE code: the lowest eighth it contains (R275). -/
def shapePart (shape : Nat) : Option Nat := (shapeEighths shape).head?

/-- The fabric dies that a SHAPE code spans. -/
def shapeDies (shape : Nat) : List Nat := ((shapeEighths shape).map (· / 2)).eraseDups

/-- Frames of a partition's drain area (R190). -/
def drainFrames (shape : Nat) : Nat := if shape / 16 = 4 then 113 else 226 * (shapeDies shape).length

/-- The cell at which an engine sits: ES0 to ES23 on the HBM edge, ES24 to ES47 on the I/O edge. -/
def engineCell (n : Nat) : Nat :=
  let d := n / 48
  let i := n % 48
  if i < 24 then 576 * d + 24 * i + (if d % 2 = 0 then 0 else 23)
  else 576 * d + 24 * (if d < 2 then 0 else 23) + (i - 24)

/-- The side of an engine's cell on which the engine stands: the HBM edge W or E, the I/O edge S or N. -/
def engineSide (n : Nat) : Nat :=
  let d := n / 48
  if n % 48 < 24 then (if d % 2 = 0 then 3 else 1) else (if d < 2 then 2 else 0)

/-- The engine that stands on a side of a cell, if one does. -/
def engineAt (c side : Nat) : Option Nat :=
  let d := cellDie c
  let a := 48 * d + cellY c
  let b := 48 * d + 24 + cellX c
  if engineCell a = c ∧ engineSide a = side then some a
  else if engineCell b = c ∧ engineSide b = side then some b
  else none

/-- The DDR5 channels of an eighth (R188). -/
def eighthChannels (assembly e : Nat) : List Nat := if isX4 assembly then [2 * e, 2 * e + 1] else [e]

/-- The staging ways of an eighth, as (I/O die, way) pairs (R188). -/
def eighthWays (assembly e : Nat) : List (Nat × Nat) :=
  if isX4 assembly then (range (8 * (e % 2)) 8).map (fun w => (e / 2, w))
  else (range (4 * (e % 4)) 4).map (fun w => (e / 4, w))

/-- The keepers of an eighth (R276). -/
def eighthKeepers (assembly e : Nat) : List Nat := if isX4 assembly then [2 * e, 2 * e + 1] else [e]

/-- Lanes of a link; 0 when it is absent (R298). -/
def linkLanes (assembly link : Nat) : Nat :=
  if link < 6 then 16
  else if link < 12 then (if isX4 assembly then 16 else 0)
  else if link < 14 then 8 else 0

/-- The I/O die that carries a link (R298). -/
def linkIo (link : Nat) : Nat :=
  match link with
  | 12 => 0
  | 13 => 1
  | _ => (if link < 6 then 0 else 2) + (if link % 2 = 0 then 1 else 0)

/-- The assembly's largest power cap CAP_MAX in W (R337). -/
def capMax (assembly : Nat) : Nat :=
  match assembly with
  | 1 => 1250
  | 2 => 1150
  | 3 => 1050
  | 4 => 1100
  | _ => 900

/-- The default power cap in W (R337). -/
def capDefault (assembly : Nat) : Nat := capMax assembly - 150

/-- Half-die sync object home: object `obj` of die `die` belongs to this eighth ("Sync objects"). -/
def syncEighth (die obj : Nat) : Nat := 2 * die + (if obj < 2048 then 0 else 1)

end Sys2Proof.Machine
end

