-- ==== Sys2Proof/Machine/Dictionary.lean ====
section
/-! DEFINITION. The object dictionary's entries: index, type, access, elements, defaults and limits (R352 to R356,
and the dictionary tables of every chapter). -/
namespace Sys2Proof.Machine

/-- Entry types with the codes of R353. -/
inductive Ty where
  | u8 | u16 | u32 | u64 | i32 | i64 | bool | enum | string | octets | time64 | energy
  deriving DecidableEq, Repr, Inhabited

/-- Access codes of R354. -/
inductive Access where
  | const | ro | rw | rws | wo | hw
  deriving DecidableEq, Repr, Inhabited

/-- The type code (R353). -/
def Ty.code : Ty → Nat
  | .u8 => 0 | .u16 => 1 | .u32 => 2 | .u64 => 3 | .i32 => 4 | .i64 => 5 | .bool => 6 | .enum => 7 | .string => 8
  | .octets => 9 | .time64 => 10 | .energy => 11

/-- The access code (R354). -/
def Access.code : Access → Nat
  | .const => 0 | .ro => 1 | .rw => 2 | .rws => 3 | .wo => 4 | .hw => 5

/-- One entry: its index (of a family's first member), subindex, type, access, whether it is a TABLE, its elements, the
bytes of one value (the most, for a STRING), its plain default, and the least and greatest value a write may store. -/
structure Entry where
  index : Nat
  sub   : Nat
  ty    : Ty
  acc   : Access
  table : Bool
  count : Nat
  size  : Nat
  dflt  : Nat
  lo    : Nat
  hi    : Nat
  deriving DecidableEq, Repr, Inhabited

/-- Bytes of a value of a type with a fixed size (R353). -/
def Ty.size : Ty → Nat
  | .u8 => 1 | .u16 => 2 | .u32 => 4 | .u64 => 8 | .i32 => 4 | .i64 => 8 | .bool => 1 | .enum => 1 | .string => 64
  | .octets => 0 | .time64 => 8 | .energy => 8

/-- A plain entry whose value any code of its type may take. -/
def plain (index sub : Nat) (ty : Ty) (acc : Access) (dflt : Nat := 0) : Entry :=
  { index, sub, ty, acc, table := false, count := 1, size := ty.size, dflt, lo := 0,
    hi := if ty = .bool then 1 else 256 ^ ty.size - 1 }

/-- A plain entry with limits. -/
def ranged (index sub : Nat) (ty : Ty) (acc : Access) (dflt lo hi : Nat) : Entry :=
  { plain index sub ty acc dflt with lo, hi }

/-- A TABLE entry. -/
def tbl (index sub : Nat) (ty : Ty) (acc : Access) (count : Nat) (dflt : Nat := 0) : Entry :=
  { plain index sub ty acc dflt with table := true, count }

/-- A TABLE entry with limits. -/
def tblr (index sub : Nat) (ty : Ty) (acc : Access) (count dflt lo hi : Nat) : Entry :=
  { tbl index sub ty acc count dflt with lo, hi }

/-- A TABLE of OCTETS. -/
def octs (index sub : Nat) (acc : Access) (count size : Nat) : Entry :=
  { tbl index sub .octets acc count with size, hi := 256 ^ size - 1 }

/-- An OCTETS entry. -/
def oct (index sub : Nat) (acc : Access) (size : Nat) : Entry := { octs index sub acc 1 size with table := false }

/-- Identity and clocks (R2, R27, R29, R349). FC_AT_PACE has an element 0 here, so that element *k* is pace *k*; it reads 0. DESIGN
CHOICE (log 109). -/
def entries10 : List Entry :=
  [plain 0x1000 0x01 .string .const, plain 0x1000 0x02 .string .const, oct 0x1000 0x03 .const 16,
   plain 0x1000 0x04 .string .const, plain 0x1000 0x05 .enum .const, plain 0x1000 0x06 .u16 .const 576,
   plain 0x1000 0x07 .u8 .const 4, plain 0x1000 0x08 .u8 .const, plain 0x1000 0x09 .u8 .const,
   plain 0x1000 0x0A .u8 .const, plain 0x1000 0x0B .u8 .const, plain 0x1000 0x0C .u8 .const,
   plain 0x1000 0x0D .u8 .const, plain 0x1000 0x10 .u32 .const, plain 0x1000 0x11 .u32 .ro, plain 0x1000 0x12 .u32 .ro,
   plain 0x1000 0x13 .u32 .ro, oct 0x1000 0x14 .ro 32,
   plain 0x1100 0x01 .u16 .ro 6400, plain 0x1100 0x02 .enum .ro, plain 0x1100 0x03 .bool .ro,
   plain 0x1100 0x04 .u32 .ro, plain 0x1100 0x05 .u8 .ro 16, ranged 0x1100 0x06 .u8 .rws 16 1 16,
   plain 0x1100 0x07 .u64 .ro, tbl 0x1100 0x10 .u64 .ro 17, plain 0x1100 0x11 .u64 .ro,
   plain 0x1100 0x20 .u16 .rws, plain 0x1100 0x21 .u16 .const, ranged 0x1100 0x22 .u16 .rws 50 5 400,
   ranged 0x1100 0x23 .u16 .rws 50 5 400, ranged 0x1100 0x24 .u8 .rws 4 1 16, plain 0x1100 0x25 .bool .ro,
   plain 0x1100 0x26 .u32 .ro, plain 0x1100 0x27 .u32 .ro, plain 0x1100 0x28 .enum .ro,
   plain 0x1100 0x29 .u32 .const 100000, plain 0x1100 0x2A .u32 .ro, plain 0x1100 0x2B .u32 .ro]

/-- Reset, straps, fuses, life cycle; boot (R404, R405). -/
def entries12 : List Entry :=
  [plain 0x1200 0x01 .u8 .ro, plain 0x1200 0x02 .u16 .ro 3, tbl 0x1200 0x03 .u32 .ro 11, plain 0x1200 0x04 .u8 .ro,
   tbl 0x1200 0x05 .u8 .const 11, plain 0x1200 0x06 .enum .ro, plain 0x1200 0x07 .bool .ro,
   plain 0x1200 0x08 .bool .rws 1, tbl 0x1200 0x09 .u8 .ro 32, octs 0x1200 0x0A .ro 32 32,
   plain 0x1200 0x0B .u64 .ro, tbl 0x1200 0x0C .bool .ro 65536,
   plain 0x1300 0x01 .enum .ro, plain 0x1300 0x02 .u8 .ro, plain 0x1300 0x03 .u8 .ro, tbl 0x1300 0x04 .u8 .ro 4,
   plain 0x1300 0x05 .u32 .ro]

/-- Power, thermal, energy; determinism (R350, and the table of 08). -/
def entries14 : List Entry :=
  [plain 0x1400 0x01 .u32 .ro, plain 0x1400 0x02 .energy .ro, plain 0x1400 0x03 .energy .ro,
   tbl 0x1400 0x04 .energy .ro 8, tbl 0x1400 0x05 .u32 .ro 12, tbl 0x1400 0x06 .energy .ro 12,
   ranged 0x1400 0x10 .u8 .rws 100 85 105, ranged 0x1400 0x11 .u8 .rws 90 80 95, plain 0x1400 0x12 .u8 .const 115,
   plain 0x1400 0x13 .i32 .ro, plain 0x1400 0x14 .u8 .ro 16, plain 0x1400 0x15 .u64 .ro, oct 0x1400 0x16 .rws 16,
   tblr 0x1400 0x30 .u8 .rws 12 0 0 127,
   plain 0x1500 0x01 .u8 .const 1, plain 0x1500 0x02 .enum .const 1, octs 0x1500 0x10 .ro 8 32,
   octs 0x1500 0x11 .ro 8 32, tbl 0x1500 0x12 .u16 .ro 8, tbl 0x1500 0x20 .bool .rws 8, tbl 0x1500 0x21 .u64 .ro 8,
   tbl 0x1500 0x22 .u32 .ro 8]

/-- Tiers and ingest (R214, R215). -/
def entries16 : List Entry :=
  [plain 0x1600 0x01 .u16 .const, tbl 0x1600 0x02 .u32 .ro 8, tbl 0x1600 0x03 .u32 .ro 16, tbl 0x1600 0x10 .u32 .rws 128,
   tbl 0x1600 0x11 .u32 .ro 128, tbl 0x1600 0x12 .u16 .rws 32, tbl 0x1600 0x13 .u8 .rws 8, tbl 0x1600 0x14 .bool .rws 8 1,
   octs 0x1600 0x20 .rws 256 128, octs 0x1600 0x21 .rws 16 128, plain 0x1600 0x30 .u64 .ro, plain 0x1600 0x31 .u64 .ro,
   tbl 0x1700 0x01 .enum .ro 2, octs 0x1700 0x02 .rws 2 6, octs 0x1700 0x03 .rws 8 16, tbl 0x1700 0x04 .u8 .rws 2 0xFF,
   octs 0x1700 0x10 .rws 256 64, tbl 0x1700 0x11 .enum .ro 256, octs 0x1700 0x20 .rws 64 32, tbl 0x1700 0x30 .u32 .ro 2,
   tbl 0x1700 0x31 .u32 .ro 2, tbl 0x1700 0x32 .u32 .ro 2]

/-- Partitions and ports; fabric and configuration (R62, R177, R296). -/
def entries18 : List Entry :=
  [tblr 0x1800 0x01 .u8 .rws 8 0 0 0x47, tbl 0x1800 0x02 .enum .ro 2, tbl 0x1800 0x03 .u8 .ro 2,
   ranged 0x1800 0x04 .u32 .rws 100000000 1000 0xFFFFFFFF, tbl 0x1800 0x05 .u64 .ro 64, plain 0x1800 0x06 .u32 .ro,
   tbl 0x1800 0x10 .u64 .ro 12288, plain 0x1800 0x11 .u32 .ro,
   plain 0x1900 0x01 .u8 .const 8, tbl 0x1900 0x02 .u8 .rws 8, tbl 0x1900 0x03 .u32 .ro 12, plain 0x1900 0x04 .u32 .ro,
   tbl 0x1900 0x05 .u32 .ro 8, plain 0x1900 0x20 .u32 .const 0x10000, plain 0x1900 0x21 .u32 .const 23592960,
   tbl 0x1900 0x22 .u32 .rws 64, tbl 0x1900 0x23 .u64 .ro 8, tbl 0x1900 0x24 .u32 .ro 25, plain 0x1900 0x25 .u64 .ro,
   plain 0x1900 0x26 .u32 .ro, plain 0x1900 0x27 .u32 .ro]

/-- Serving (R262). -/
def entries1A : List Entry :=
  [tbl 0x1A00 0x01 .bool .rws 8, tblr 0x1A00 0x02 .u16 .rws 8 256 1 4096, tbl 0x1A00 0x03 .u32 .rws 8 512,
   tbl 0x1A00 0x04 .u32 .rws 8, tblr 0x1A00 0x05 .u32 .rws 8 0 0 126976, tbl 0x1A00 0x06 .u16 .rws 16,
   octs 0x1A00 0x07 .wo 8 32, tbl 0x1A00 0x08 .u64 .rws 8, tbl 0x1A00 0x10 .u64 .ro 8, tbl 0x1A00 0x11 .u32 .ro 8,
   tbl 0x1A00 0x12 .u32 .ro 8, octs 0x1A10 0x01 .hw 4096 16,
   ranged 0x1A10 0x02 .u64 .hw 100000000 1 (2 ^ 64 - 1), tbl 0x1A10 0x03 .u32 .ro 4096,
   tbl 0x1A20 0x01 .u16 .rws 8 0xFFFF, tbl 0x1A20 0x02 .u64 .ro 8, tbl 0x1A20 0x03 .u32 .ro 8, tbl 0x1A20 0x04 .u32 .ro 8,
   tbl 0x1A30 0x01 .u16 .rws 8, tbl 0x1A30 0x02 .u64 .ro 8, tbl 0x1A40 0x01 .u32 .ro 8, tbl 0x1A40 0x02 .u32 .ro 8]

/-- Torus and the global counter (R327). -/
def entries1C : List Entry :=
  [plain 0x1C00 0x01 .u32 .rws, plain 0x1C00 0x02 .u32 .rws 0x10101, tbl 0x1C00 0x03 .u8 .rws 12,
   tblr 0x1C00 0x04 .enum .rws 14 0 0 3, plain 0x1C00 0x06 .u32 .rws 10000000, tbl 0x1C00 0x10 .u16 .rws 8 0xFFFF,
   tbl 0x1C00 0x11 .u64 .rws 8 100000000, tbl 0x1C00 0x12 .u64 .ro 8, plain 0x1C00 0x20 .enum .ro,
   ranged 0x1C00 0x21 .enum .rws 1 0 2, plain 0x1C00 0x22 .i32 .ro, plain 0x1C00 0x23 .u32 .ro,
   tbl 0x1C00 0x24 .i32 .rws 2, plain 0x1C00 0x25 .i32 .rws, plain 0x1C00 0x26 .u32 .rws 1000000,
   plain 0x1C00 0x27 .u64 .ro, plain 0x1C00 0x28 .u32 .rws 200000000, plain 0x1C00 0x30 .u32 .ro,
   plain 0x1C00 0x31 .u32 .ro, plain 0x1C00 0x32 .u32 .ro]

/-- Events and watermarks; management (R422, R381). -/
def entries1E : List Entry :=
  [plain 0x1E00 0x01 .u64 .ro 1, plain 0x1E00 0x02 .u64 .ro, octs 0x1E00 0x03 .ro 4096 32, plain 0x1E00 0x04 .u64 .ro,
   octs 0x1E00 0x10 .ro 72 16, tbl 0x1E00 0x11 .i64 .rws 72, tblr 0x1E00 0x12 .i64 .rws 72 0 0 (2 ^ 63 - 1),
   plain 0x1E00 0x20 .enum .ro, plain 0x1E00 0x21 .u32 .ro, plain 0x1E00 0x22 .u64 .ro, tbl 0x1E00 0x30 .u32 .ro 45,
   plain 0x1F00 0x01 .u8 .const 1, plain 0x1F00 0x02 .u16 .const 7439, octs 0x1F00 0x03 .const 2 6,
   tbl 0x1F00 0x04 .enum .ro 2, octs 0x1F00 0x05 .rws 8 17, octs 0x1F00 0x06 .rws 2 16,
   tbl 0x1F00 0x07 .u8 .rws 2, plain 0x1F00 0x08 .u8 .ro, ranged 0x1F00 0x09 .u64 .rws 6000000000 100000000 (2 ^ 64 - 1),
   plain 0x1F00 0x0A .u8 .const 32, plain 0x1F00 0x0B .u32 .const 20000, ranged 0x1F00 0x0C .enum .rws 0 0 1,
   tblr 0x1F00 0x10 .u8 .rws 16 0 0 3, octs 0x1F00 0x11 .wo 16 32, tbl 0x1F00 0x12 .u8 .ro 16, octs 0x1F00 0x20 .ro 32 32,
   plain 0x1F00 0x21 .u32 .ro, plain 0x1F00 0x22 .u32 .ro, plain 0x1F00 0x23 .u32 .ro, plain 0x1F00 0x24 .u64 .ro,
   plain 0x1F00 0x25 .u32 .ro, plain 0x1F00 0x26 .u32 .ro, plain 0x1F00 0x27 .u32 .ro]

/-- The families: per partition, link, die and memory channel (R297, R328, R351, R423, R216, R349). -/
def entries20 : List Entry :=
  [plain 0x2000 0x01 .u64 .rws, plain 0x2000 0x02 .u64 .ro, ranged 0x2000 0x03 .enum .rws 1 1 2,
   plain 0x2000 0x04 .u32 .rws 4000000, plain 0x2000 0x05 .bool .wo, plain 0x2000 0x06 .u64 .ro, plain 0x2000 0x07 .u64 .ro,
   plain 0x2000 0x08 .u32 .ro, plain 0x2000 0x09 .u64 .ro, plain 0x2000 0x0A .u32 .ro, plain 0x2000 0x10 .u32 .ro,
   plain 0x3000 0x01 .enum .ro, plain 0x3000 0x02 .u8 .const, oct 0x3000 0x03 .wo 36, oct 0x3000 0x04 .wo 44,
   oct 0x3000 0x05 .wo 36, oct 0x3000 0x06 .wo 44, plain 0x3000 0x07 .u64 .ro, plain 0x3000 0x08 .u64 .ro,
   plain 0x3000 0x09 .u64 .ro, plain 0x3000 0x0A .u32 .ro, plain 0x3000 0x0B .u32 .ro, plain 0x3000 0x0C .u32 .ro,
   plain 0x3000 0x0D .u32 .ro, plain 0x3000 0x0E .u32 .ro,
   plain 0x4000 0x01 .u16 .ro, tbl 0x4000 0x02 .u16 .const 17, plain 0x4000 0x03 .u32 .ro, plain 0x4000 0x04 .energy .ro,
   tbl 0x4000 0x05 .i32 .ro 64, plain 0x4000 0x06 .u64 .ro, plain 0x4000 0x07 .u16 .ro, tbl 0x4000 0x08 .u32 .ro 2,
   plain 0x4000 0x20 .u32 .ro, plain 0x4000 0x21 .u32 .ro, plain 0x4000 0x22 .u32 .ro, plain 0x4000 0x23 .u32 .ro,
   plain 0x5000 0x01 .enum .ro, plain 0x5000 0x02 .u64 .ro, plain 0x5000 0x03 .u32 .ro, plain 0x5000 0x04 .u32 .ro,
   plain 0x5000 0x05 .u32 .ro, plain 0x5000 0x06 .u64 .ro, plain 0x5000 0x07 .i32 .ro]

/-- Every documented entry. -/
def entries : List Entry :=
  entries10 ++ entries12 ++ entries14 ++ entries16 ++ entries18 ++ entries1A ++ entries1C ++ entries1E ++ entries20

/-- An index split into its family's first index and the member's number (0 outside the families; R356). -/
def family (index : Nat) : Nat × Nat :=
  if 0x2000 ≤ index ∧ index < 0x2800 ∧ index % 0x100 = 0 then (0x2000, (index - 0x2000) / 0x100)
  else if 0x3000 ≤ index ∧ index < 0x31C0 ∧ index % 0x20 = 0 then (0x3000, (index - 0x3000) / 0x20)
  else if 0x4000 ≤ index ∧ index < 0x4400 ∧ index % 0x100 = 0 then (0x4000, (index - 0x4000) / 0x100)
  else if 0x5000 ≤ index ∧ index < 0x5018 then (0x5000, index - 0x5000)
  else (index, 0)

/-- The entry's description, subindex 0 of an assigned index included (R352). -/
def findEntry (index sub : Nat) : Option Entry :=
  let base := (family index).1
  match entries.filter (fun e => e.index == base) with
  | [] => none
  | es => if sub = 0 then some (plain base 0 .u8 .const (es.foldl (fun a e => max a e.sub) 0))
          else es.find? (fun e => e.sub == sub)

/-- The key of an element in `State.dict`. -/
def odKey (index sub elem : Nat) : Nat := (index * 256 + sub) * 2 ^ 32 + elem

/-- Order codes (R1). -/
def orderCode (assembly : Nat) : String :=
  match assembly with
  | 1 => "CDL-H8X4-24"
  | 2 => "CDL-H6X4-24"
  | 3 => "CDL-H4X4-24"
  | 4 => "CDL-H8X2-24"
  | _ => "CDL-H4X2-16"

/-- Default THRESHOLD of a watermark, as an I64 code (R416). -/
def markThreshold (assembly w : Nat) : Nat :=
  if w < 8 then 95000
  else if w < 16 then 768
  else if w < 32 then 2 ^ 63 - 1
  else if w < 46 then 2 ^ 39
  else if w = 46 then capMax assembly * 1000
  else if w = 47 then 1000
  else 100

/-- Default HYST of a watermark (R416). -/
def markHyst (w : Nat) : Nat :=
  if w < 8 then 2000
  else if w < 16 then 64
  else if w < 46 then 0
  else if w = 46 then 10000
  else if w = 47 then 100
  else 10

/-- Element `k` of die `d`'s fused VID table, within 600 to 800 mV (R331). VDD_MV, whose default R351 leaves open, starts at
the one of pace 16, the pace at reset (log 4). -/
def vidFuse (d k : Nat) : Nat := 600 + Config.vid d k % 201

/-- The default of an element (the Default columns of the dictionary tables). QUOTA, WAYS and INGEST_WAYS hold 0 for
"the default of R188 and R189", which Ops computes, and one more than the value a SET stored otherwise. -/
def odDflt (assembly key : Nat) : Nat :=
  let elem := key % 2 ^ 32
  let sub := key / 2 ^ 32 % 256
  let index := key / 2 ^ 40
  let (base, k) := family index
  match base, sub with
  | 0x1000, 0x01 => leNat (ascii "Bilbacor")
  | 0x1000, 0x02 => leNat (ascii (orderCode assembly))
  | 0x1000, 0x03 => Config.fused 0 % 2 ^ 128
  | 0x1000, 0x04 => Config.fused 1 % 2 ^ 16
  | 0x1000, 0x05 => assembly
  | 0x1000, 0x08 => numStacks assembly
  | 0x1000, 0x09 => numIo assembly
  | 0x1000, 0x0A => if assembly = 5 then 16 else 24
  | 0x1000, 0x0B => numKeepers assembly
  | 0x1000, 0x0C => stackMap assembly
  | 0x1000, 0x0D => if isX4 assembly then 0x0F else 0x03
  | 0x1000, 0x10 => Config.fused 2 % 2 ^ 32
  | 0x1100, 0x20 => capDefault assembly
  | 0x1100, 0x21 => capMax assembly
  | 0x1400, 0x30 => 0x40 + elem
  | 0x1600, 0x01 => stackFrames assembly
  | 0x1700, 0x02 => Config.fused (3 + elem) % 2 ^ 48
  | 0x1800, 0x01 => if elem = 0 then 0x10 else 0
  | 0x1C00, 0x03 => elem % 6
  | 0x1C00, 0x04 => if elem < 12 then 1 else 2
  | 0x1E00, 0x11 => markThreshold assembly elem
  | 0x1E00, 0x12 => markHyst elem
  | 0x1F00, 0x03 => Config.fused (5 + elem) % 2 ^ 48
  | 0x1F00, 0x07 => elem
  | 0x3000, 0x02 => linkLanes assembly k
  | 0x4000, 0x01 => vidFuse k 16
  | 0x4000, 0x02 => vidFuse k elem
  | _, _ => match findEntry index sub with
    | some e => e.dflt
    | none => 0

/-- The value stored for an element. -/
def od (s : State) (index sub : Nat) (elem : Nat := 0) : Nat :=
  Assoc.get (odDflt s.boot.assembly) s.dict (odKey index sub elem)

/-- A value stored for an element. -/
def odSet (s : State) (index sub elem v : Nat) : State :=
  { s with dict := Assoc.set (odDflt s.boot.assembly) s.dict (odKey index sub elem) v }

/-- `n` added to a counter of `w` bits that saturates (R420). -/
def odCount (s : State) (index sub elem w : Nat) (n : Nat := 1) : State :=
  odSet s index sub elem (satAdd w (od s index sub elem) n)

/-- The value an element acts with: the old one while a stored one waits for a step boundary (R191, R214). -/
def odForce (s : State) (index sub elem : Nat) : Nat :=
  (s.inForce.find? (odKey index sub elem)).getD (od s index sub elem)

/-- The partition that an element names, if its table is one of partitions (R274). -/
def elemPart (index sub elem : Nat) : Option Nat :=
  let (base, k) := family index
  match base, sub with
  | 0x2000, _ => some k
  | 0x1500, 0x20 => some elem
  | 0x1600, 0x10 => some (elem / 16)
  | 0x1600, 0x12 => some (elem / 4)
  | 0x1600, 0x13 => some elem
  | 0x1600, 0x14 => some elem
  | 0x1900, 0x02 => some elem
  | 0x1900, 0x22 => some (elem / 8)
  | 0x1A00, 0x06 => some (elem / 2)
  | 0x1A00, _ => some elem
  | 0x1A20, _ => some elem
  | 0x1A30, _ => some elem
  | 0x1A40, _ => some elem
  | 0x1C00, 0x10 => some elem
  | 0x1C00, 0x11 => some elem
  | _, _ => none

/-- The semaphore that guards an RWS or HW element (R274, R381). -/
def guardOf (index sub elem : Nat) : Nat :=
  if index = 0x1F00 ∧ sub = 0x0C then 0
  else if index = 0x1A10 then 2
  else match elemPart index sub elem with
    | some p => 8 + p
    | none => 1

end Sys2Proof.Machine
end

