-- ==== Sys2Proof/Machine/Ops.lean ====
section
/-! DEFINITION. The named operations that the meanings share: reading and updating the parts of the state, the event
log (R410 to R413), watermarks (R414), interrupts (R267), semaphores (R270), fabric time (R24), task aborts (R59, R155)
and breaches (R17). -/
namespace Sys2Proof.Machine

/-! ### Parts of the state -/

/-- A cell. -/
def State.cell (s : State) (c : Nat) : Cell := Assoc.get (fun _ => Cell.init) s.cells c

/-- A cell replaced. -/
def State.setCell (s : State) (c : Nat) (x : Cell) : State :=
  { s with cells := Assoc.set (fun _ => Cell.init) s.cells c x }

/-- A cell changed by a function. -/
def State.updCell (s : State) (c : Nat) (f : Cell → Cell) : State := s.setCell c (f (s.cell c))

/-- A partition. -/
def State.part (s : State) (p : Nat) : Part := Assoc.get (fun _ => Part.init) s.parts p

/-- A partition replaced. -/
def State.setPart (s : State) (p : Nat) (x : Part) : State :=
  { s with parts := Assoc.set (fun _ => Part.init) s.parts p x }

/-- A partition changed by a function. -/
def State.updPart (s : State) (p : Nat) (f : Part → Part) : State := s.setPart p (f (s.part p))

/-- An engine. -/
def State.engine (s : State) (e : Nat) : Engine := Assoc.get (fun _ => Engine.init) s.engines e

/-- An engine changed by a function. -/
def State.updEngine (s : State) (e : Nat) (f : Engine → Engine) : State :=
  { s with engines := Assoc.set (fun _ => Engine.init) s.engines e (f (s.engine e)) }

/-- A link. -/
def State.link (s : State) (l : Nat) : Link := Assoc.get (fun _ => Link.init) s.links l

/-- A link changed by a function. -/
def State.updLink (s : State) (l : Nat) (f : Link → Link) : State :=
  { s with links := Assoc.set (fun _ => Link.init) s.links l (f (s.link l)) }

/-- A host function, by its owner id. -/
def State.fn (s : State) (f : Nat) : HostFn := Assoc.get (fun _ => HostFn.init) s.fns f

/-- A host function changed by a function. -/
def State.updFn (s : State) (f : Nat) (g : HostFn → HostFn) : State :=
  { s with fns := Assoc.set (fun _ => HostFn.init) s.fns f (g (s.fn f)) }

/-- A queue pair. -/
def State.qp (s : State) (q : Nat) : QueuePair := Assoc.get (fun _ => QueuePair.init) s.qps q

/-- A queue pair changed by a function. -/
def State.updQp (s : State) (q : Nat) (g : QueuePair → QueuePair) : State :=
  { s with qps := Assoc.set (fun _ => QueuePair.init) s.qps q (g (s.qp q)) }

/-- A sync object of a die (R56). -/
def State.syncObj (s : State) (die obj : Nat) : Word := Assoc.get (fun _ => 0) s.sync (4096 * die + obj)

/-- A sync object written. -/
def State.setSync (s : State) (die obj : Nat) (v : Word) : State :=
  { s with sync := Assoc.set (fun _ => 0) s.sync (4096 * die + obj) v }

/-- What the block sends outward, appended. -/
def State.send (s : State) (o : Output) : State := { s with outputs := s.outputs ++ [o] }

/-- A fresh number for a free value, and the state that has used it. -/
def State.fresh (s : State) : Nat × State := (s.free, { s with free := s.free + 1 })

/-! ### Partitions and their resources -/

/-- The SHAPE of a partition, 0 when it is not formed (R275). -/
def shapeOf (s : State) (p : Nat) : Nat := od s 0x1800 0x01 p

/-- The partition that owns an eighth, if one does. -/
def partOfEighth (s : State) (e : Nat) : Option Nat :=
  (List.range 8).find? (fun p => (shapeEighths (shapeOf s p)).contains e)

/-- The partition that owns a cell, if one does. -/
def partOfCell (s : State) (c : Nat) : Option Nat := partOfEighth s (cellEighth c)

/-- The cells of an eighth, ascending (R11). -/
def eighthCells (e : Nat) : List Nat := range (576 * (e / 2) + 288 * (e % 2)) 288

/-- The eighths of a partition. -/
def partEighths (s : State) (p : Nat) : List Nat := shapeEighths (shapeOf s p)

/-- The cells of a partition, ascending. -/
def partCells (s : State) (p : Nat) : List Nat := (partEighths s p).flatMap eighthCells

/-- The cell is of the partition. -/
def inPart (s : State) (p c : Nat) : Bool := (partEighths s p).contains (cellEighth c) && decide (c < numCells)

/-- The listed cells of a partition: those that can differ from an empty cell. -/
def partListed (s : State) (p : Nat) : List Nat := (s.cells.map (·.1)).filter (fun c => inPart s p c)

/-- The engine is of the partition. -/
def engineInPart (s : State) (p e : Nat) : Bool := decide (e < numEngines) && inPart s p (engineCell e)

/-- The listed engines of a partition. -/
def partEngines (s : State) (p : Nat) : List Nat := (s.engines.map (·.1)).filter (fun e => engineInPart s p e)

/-- The fitted stacks of a partition (R188). -/
def partStacks (s : State) (p : Nat) : List Nat := (partEighths s p).filter (stackFitted s.boot.assembly)

/-- The DDR5 channels of a partition (R188). -/
def partChannels (s : State) (p : Nat) : List Nat := (partEighths s p).flatMap (eighthChannels s.boot.assembly)

/-- The partition that owns a DDR5 channel. -/
def partOfChannel (s : State) (ch : Nat) : Option Nat :=
  (List.range 8).find? (fun p => (partChannels s p).contains ch)

/-- The keepers of a partition (R276). -/
def partKeepers (s : State) (p : Nat) : List Nat := (partEighths s p).flatMap (eighthKeepers s.boot.assembly)

/-- The sync object is the partition's ("Sync objects"). -/
def syncInPart (s : State) (p die obj : Nat) : Bool := (partEighths s p).contains (syncEighth die obj)

/-- Plot-table entries in a partition's slice: the I/O dies' entries shared by eighths (R187, R188). -/
def sliceSize (s : State) (p : Nat) : Nat := numIo s.boot.assembly * 327680 / 8 * (partEighths s p).length

/-- Frames of a module (R181). -/
def moduleFrames (ch : Nat) : Nat := if Config.module128 ch then 60928 else 30464

/-- Frames of a channel: those of the smallest module of its partition, 0 out of service (R181, R214). -/
def channelFrames (s : State) (ch : Nat) : Nat :=
  if od s (0x5000 + ch) 1 = 2 then
    (match partOfChannel s ch with
     | some p => (partChannels s p).foldl (fun a c => min a (moduleFrames c)) (moduleFrames ch)
     | none => moduleFrames ch)
  else 0

/-- A channel of the partition is out of service (R180). -/
def polderOut (s : State) (p : Nat) : Bool := (partChannels s p).any (fun ch => od s (0x5000 + ch) 1 != 2)

/-- Tier-1 frames the partition may give to objects (R189). -/
def tier1Frames (s : State) (p : Nat) : Nat := (partStacks s p).length * stackFrames s.boot.assembly - 2

/-- Polder frames the partition may give to objects: none while a channel is out of service (R180, R181, R189). -/
def polderFrames (s : State) (p : Nat) : Nat :=
  if polderOut s p then 0
  else
    let chs := partChannels s p
    chs.length * (chs.foldl (fun a ch => min a (channelFrames s ch)) 60928) - 2

/-- Frames of a tier (1, or 2 the polder) that a partition may give to objects. -/
def tierFrames (s : State) (p tier : Nat) : Nat := if tier = 1 then tier1Frames s p else polderFrames s p

/-- The partition is at a step boundary (R191). -/
def stepBoundary (x : Part) : Bool :=
  match x.state with
  | .off | .ready | .refused | .halted => true
  | _ => false

/-- PART_STAT's STATE code (R166). -/
def PState.code : PState → Nat
  | .off => 0 | .loading => 1 | .checking => 2 | .filling => 3 | .ready => 4 | .refused => 5 | .busy => 6
  | .draining => 7 | .halted => 8

/-! ### Blocks in reset (R393, R394) -/

/-- The partition that owns a block: an engine, a pseudo-channel controller or a DDR5 channel controller (R394). -/
def blockPart (s : State) (b : Nat) : Option Nat :=
  match b / 4096 with
  | 1 => partOfCell s (engineCell (b % 4096))
  | 2 => partOfEighth s (b % 4096 / 32)
  | 3 => partOfChannel s (b % 4096)
  | _ => none

/-- A block of the kind, owned by partition `p` where the kind has an owner, is held in reset by an L5 (R393). -/
def blockHeld (s : State) (p : Nat) (kinds : List Nat) : Bool :=
  s.episodes.any (fun e => e.level == 6 && kinds.contains (e.target / 4096) &&
    (decide (4 ≤ e.target / 4096) || blockPart s e.target == some p))

/-- The partition, or one of its blocks, is held in reset: a launch, an enable or a refill waits (R393). -/
def partBlocked (s : State) (p : Nat) : Bool :=
  s.episodes.any (fun e => e.level == 5 && e.target == p) || blockHeld s p [1, 2, 3]

/-! ### The event log -/

/-- An event enters the log with the next sequence number, overwriting the oldest when the log is full (R410, R413),
and counts in its class (R422). `eclass` 0 is a notice. -/
def logEvent (s : State) (code reason eclass plane : Nat) (part : Option Nat) (detail : Nat) : State :=
  let seq := od s 0x1E00 0x01
  let e : Event :=
    { seq := seq, gt := s.counter.gt % 2 ^ 56, code := BitVec.ofNat 16 code, reason := BitVec.ofNat 16 reason,
      eclass := BitVec.ofNat 3 eclass, plane := BitVec.ofNat 2 plane, part := part, detail := BitVec.ofNat 95 detail }
  let s := { s with events := s.events.insert (seq % 4096) e }
  let s := if 4096 < seq then odSet s 0x1E00 0x02 0 (od s 0x1E00 0x02 + 1) else s
  let s := odSet s 0x1E00 0x01 0 (seq + 1)
  if eclass = 0 then s else odCount s 0x1E00 0x30 (5 * part.getD 8 + (eclass - 1)) 32

/-- Class bytes of R285. -/
inductive Cls where
  | en | st | ov | jb | mm | lk | pw | sv | ey | mg
  deriving DecidableEq, Repr, Inhabited

/-- The class byte (R285). -/
def Cls.byte : Cls → Nat
  | .en => 1 | .st => 2 | .ov => 3 | .jb => 4 | .mm => 5 | .lk => 6 | .pw => 7 | .sv => 8 | .ey => 9 | .mg => 10

/-- The encoding of a reason code (R285). -/
def reasonCode (c : Cls) (n : Nat) : Nat := 256 * c.byte + n

/-- The event that reports a reason code (R410). -/
def logReason (s : State) (c : Cls) (n eclass plane : Nat) (part : Option Nat) (detail : Nat) : State :=
  logEvent s (0x1000 + reasonCode c n) (reasonCode c n) eclass plane part detail

/-- DETAIL of a fabric fault (R411): the fc, the engine flag, the cell, the fold, and the tag or engine number. -/
def fabricDetail (fc : Nat) (eng : Bool) (cell fold tag : Nat) : Nat :=
  fc % 2 ^ 63 * 2 ^ 32 + ofBool eng * 2 ^ 31 + cell % 4096 * 2 ^ 19 + fold % 8 * 2 ^ 16 + tag % 2 ^ 16

/-- DETAIL of a memory event (R411). -/
def memDetail (addr obj : Nat) : Nat := addr % 2 ^ 52 * 2 ^ 43 + obj % 2 ^ 16 * 2 ^ 27

/-- DETAIL of a link event (R411). -/
def linkDetail (link frame plan : Nat) : Nat := link % 16 * 2 ^ 91 + frame % 2 ^ 64 * 2 ^ 27 + plan % 2 ^ 24 * 8

/-- DETAIL of a power event (R411). -/
def powerDetail (unit sensor value : Nat) : Nat := unit % 256 * 2 ^ 87 + sensor % 256 * 2 ^ 79 + value % 2 ^ 32 * 2 ^ 47

/-! ### Watermarks -/

/-- A watermark's record. -/
def State.mark (s : State) (w : Nat) : Mark := Assoc.get (fun _ => Mark.init) s.marks w

/-- The event that a crossing logs: EV-0x0B01 for a key mark, otherwise EV-0x0F01 (R414). -/
def markEvent (w : Nat) : Nat := if 32 ≤ w ∧ w < 46 then 0x0B01 else 0x0F01

/-- A watermark takes a sample (R414, R415). Every mark of R416 is a high mark. -/
def markSample (s : State) (w : Nat) (v : Int) : State :=
  let m := s.mark w
  let thr := signed 64 (od s 0x1E00 0x11 w)
  let hyst := signed 64 (od s 0x1E00 0x12 w)
  let enabled := decide (thr ≠ 2 ^ 63 - 1)
  let crossing := enabled && !m.above && decide (thr ≤ v)
  let extreme := if m.extreme < v then v else m.extreme
  let above := if crossing then true else if m.above && decide (v < thr - hyst) then false else m.above
  let m' : Mark :=
    { extreme := extreme, count := if crossing then satAdd 16 m.count 1 else m.count, crossed := m.crossed || crossing,
      above := above, latest := v, noted := m.noted || crossing }
  let s := { s with marks := Assoc.set (fun _ => Mark.init) s.marks w m' }
  if crossing && !m.noted then logEvent s (markEvent w) 0 0 2 none w else s

/-! ### Interrupts -/

/-- The owner id of PF0 of port A (0) or B (1), and of a VF (R272). -/
def fnId (port fn : Nat) : Nat := 0x1000 * (port + 1) + fn

/-- The word of a function's MSI-X table that holds the vector control of a vector; masked at reset (log 11). -/
def msixControl (s : State) (f vector : Nat) : Word :=
  Assoc.get (fun _ => 0x100000000) (s.fn f).msix (2 * vector + 1)

/-- A message on a function's vector: sent, or pending while the vector is masked (R267). -/
def raiseMsix (s : State) (f vector : Nat) : State :=
  if bit (msixControl s f vector) 32 then s.updFn f (fun x => { x with pba := x.pba ||| 2 ^ vector })
  else s.send (.msix f vector)

/-- The vector of a function that serves event `v` of partition `p` (R267). -/
def partVector (f p v : Nat) : Nat := if f % 0x1000 = 0 then 5 * p + v else v

/-- The functions that serve partition `p`: PF0 of both ports and the partition's VF of both (R264, log 12). -/
def partFns (p : Nat) : List Nat := [fnId 0 0, fnId 0 (p + 1), fnId 1 0, fnId 1 (p + 1)]

/-- Every host function (R263). -/
def allFns : List Nat := (List.range 9).map (fnId 0) ++ (List.range 9).map (fnId 1)

/-- An event `v` of partition `p` raised on every function that serves it. -/
def raisePart (s : State) (p v : Nat) : State :=
  (partFns p).foldl (fun s f => raiseMsix s f (partVector f p v)) s

/-- The bits of an element of SYNC_SHARE that wait, of those that its own partition's boundary and its readers' hold back. -/
def shareBits (w : BitVec 8 × BitVec 8) : BitVec 8 := w.1 ||| w.2

/-- The value of an element of SYNC_SHARE that acts while bits of it wait: those as they were, the others as stored (R62). -/
def shareValue (s : State) (q : Nat) (w : BitVec 8 × BitVec 8) : Nat :=
  ((BitVec.ofNat 8 (odForce s 0x1900 0x02 q) &&& shareBits w) ||| (BitVec.ofNat 8 (od s 0x1900 0x02 q) &&& ~~~shareBits w)).toNat

/-- What waits of SYNC_SHARE after a step boundary of partition `p`: a bit waits for its element's partition and for the partition
that it names (R62; log 98). -/
def shareWaits (s : State) (p : Nat) : Assoc (BitVec 8 × BitVec 8) :=
  (s.shareWait.map (fun e => (e.1, if e.1 = p then 0 else e.2.1, e.2.2 &&& ~~~BitVec.ofNat 8 (2 ^ p)))).filter
    (fun e => shareBits e.2 != 0)

/-- The settings of a partition that wait for its step boundary take effect; the sluice tables wait for a period start
(R62, R202, R214). -/
def applyWaiting (s : State) (p : Nat) : State :=
  let shares := shareWaits s p
  { s with
    shareWait := shares,
    inForce := s.inForce.filterMap (fun e =>
      let elem := e.1 % 2 ^ 32
      let sub := e.1 / 2 ^ 32 % 256
      let index := e.1 / 2 ^ 40
      if index = 0x1900 ∧ sub = 0x02 then (shares.find? elem).map (fun w => (e.1, shareValue s elem w))
      else if elemPart index sub elem = some p then none
      else some e) }

/-- ALERT_N is driven low; where it was high, vector 40 of PF0 of both ports is raised (R267). -/
def assertAlertN (s : State) : State :=
  let was := s.pins.alertN
  let s := { s with pins := { s.pins with alertN := false } }
  if was then [fnId 0 0, fnId 1 0].foldl (fun s f => raiseMsix s f 40) s else s

/-- The state of a partition changes: a prepared descriptor is no longer so (R278), PART_STAT shows it and the state vector is
raised, and the HALTED vector when it is HALTED (R166, R267); at a step boundary the waiting settings take effect (R214); a
partition that leaves BUSY has not been BUSY throughout the step interval (R333). -/
def setPState (s : State) (p : Nat) (st : PState) : State :=
  let busy := if st = .busy then s.power.wasBusy else s.power.wasBusy.filter (fun q => q != p)
  let s := { s with power := { s.power with wasBusy := busy } }
  let s := s.updPart p (fun x => { x with state := st, prepared := none })
  let s := if stepBoundary (s.part p) then applyWaiting s p else s
  let s := raisePart s p 3
  if st = .halted then raisePart s p 4 else s

/-! ### Semaphores -/

/-- The semaphore as it stands now: a lease that has ended leaves it free (R270). -/
def semNow (s : State) (n : Nat) : Option Sem :=
  match s.sems.find? n with
  | some x => if s.counter.gt < x.until_ then some x else none
  | none => none

/-- `id` owns semaphore `n` (R270). -/
def owns (s : State) (n id : Nat) : Bool :=
  match semNow s n with
  | some x => x.owner == id
  | none => false

/-- The semaphore register as `id` reads it (R271). -/
def semWord (s : State) (n id : Nat) : Word :=
  match semNow s n with
  | none => 0
  | some x =>
    let left := min ((x.until_ - s.counter.gt) / 2) (2 ^ 31 - 1)
    BitVec.ofNat 64 (ofBool (x.owner == id) * 2 ^ 63 + 2 ^ 62 + x.owner % 65536 * 2 ^ 32 + left * 2)

/-- An acquire and renewal (R270): the state after it; the word it returns is `semWord` of that state. -/
def semAcquire (s : State) (n id : Nat) : State :=
  if (semNow s n).isNone || owns s n id then
    { s with sems := s.sems.insert n { owner := id, until_ := s.counter.gt + od s 0x1800 0x04 } }
  else s

/-- A release: by the owner it frees the semaphore; any other write changes nothing and is counted (R270). -/
def semRelease (s : State) (n id : Nat) (rel : Bool) : State :=
  if rel && owns s n id then { s with sems := s.sems.erase n } else odCount s 0x1800 0x06 0 32

/-- Every semaphore whose owner satisfies `f` is freed (R273). -/
def semFree (s : State) (f : Nat → Bool) : State :=
  { s with sems := s.sems.filter (fun x => !f x.2.owner) }

/-! ### Fabric time -/

/-- The clocks derived from the root run: the root is locked or bypassed, and no trip has stopped every clock (R20, R22, R26,
R346). -/
def derivedRun (s : State) : Bool := (s.clocks.locked || s.clocks.clkMode == 1) && !s.clocks.tripStop

/-- The effect of a command that runs on a derived clock: none while those clocks stand (R20, R22). -/
def onDerived (f : State → State) (s : State) : State := if derivedRun s then f s else s

/-- The effect of a command of the warden, which REFCLK clocks: none once a trip has gated REFCLK from it (R22, R346). -/
def onWarden (f : State → State) (s : State) : State := if s.clocks.tripStop then s else f s

/-- FCLK edges can be delivered: the derived clocks run, and no breach has stopped FCLK. A breach stops it at the next pace
step: the edges left in the step under way are delivered (R17). -/
def clocksRun (s : State) : Bool := derivedRun s && (!bit s.breach 7 || s.clocks.edge != 0)

/-- The partition's job runs: BUSY, its first fabric cycle delivered, not scanning in (R282, R288, R293). -/
def jobRuns (x : Part) : Bool := decide (x.state = .busy) && x.first && !x.refilling && x.freezing.isNone

/-- Fabric cycles can be delivered to the partition: its job runs, it is not held and no fault has stopped it (R59, R320). -/
def delivers (x : Part) : Bool := jobRuns x && x.hold.isNone && x.fault.isNone

/-- `d` delivered edges: every partition that runs counts them, a held one counts held cycles (R24, R29, R321). -/
def deliver (d : Nat) (s : State) : State :=
  let parts : Assoc Part := s.parts.map (fun (e : Nat × Part) =>
    let x := e.2
    if delivers x then (e.1, { x with fc := x.fc + d })
    else if jobRuns x && x.hold.isSome && x.fault.isNone then
      (e.1, { x with job := x.job.map (fun j => { j with held := j.held + d }) })
    else e)
  let held := s.parts.filter (fun e => jobRuns e.2 && e.2.hold.isSome && e.2.fault.isNone)
  let s := { s with parts := parts }
  let s := held.foldl (fun s e => odSet s 0x1C00 0x12 e.1 (satAdd 64 (od s 0x1C00 0x12 e.1) d)) s
  let s := odSet s 0x1100 0x10 s.clocks.pace (od s 0x1100 0x10 s.clocks.pace + d)
  odSet s 0x1100 0x11 0 (od s 0x1100 0x11 + d)

/-- Something may happen in the partition at fabric cycle `t`: `t` is not ahead, or the cycles up to it can be
delivered. -/
def reachable (s : State) (p t : Nat) : Bool :=
  let x := s.part p
  jobRuns x && (decide (t ≤ x.fc) || (delivers x && clocksRun s && !bit s.breach 7))

/-- The state at fabric cycle `t` of the partition (log 13). -/
def reach (s : State) (p t : Nat) : State := let x := s.part p; if t ≤ x.fc then s else deliver (t - x.fc) s

/-- Run `f` at fabric cycle `t` of partition `p`; nothing happens where that cycle cannot be reached. -/
def atFc (s : State) (p t : Nat) (f : State → State) : State := if reachable s p t then f (reach s p t) else s

/-! ### Faults -/

/-- The rank of a fault among those of one fc: the lowest cell, ST before OV, the lowest code (R60, R155). -/
def faultRank (cell : Nat) (c : Cls) (n : Nat) : Nat := cell * 1024 + (if c = .st then 0 else 512) + n

/-- A fault of a cell or an engine is counted by its code (R59, R155). -/
def countFault (s : State) (c : Cls) (n : Nat) : State :=
  match c with
  | .ov => odCount s 0x1900 0x03 n 32
  | .st => odCount s 0x1900 0x05 n 32
  | _ => s

/-- A task abort (R59, R155): the code is counted; the first fault in the order of R60 is reported by an event entry, and
the partition delivers no fabric cycle after `fc`. A later one of the same fc that ranks before it takes its place. -/
def abortTask (s : State) (p : Nat) (c : Cls) (n cell fold tag : Nat) (engine : Option Nat := none) : State :=
  let x := s.part p
  let s := countFault s c n
  let rank := faultRank cell c n
  let detail := fabricDetail x.fc engine.isSome cell fold (engine.getD tag)
  match x.fault with
  | none =>
    let seq := od s 0x1E00 0x01
    let s := logReason s c n 3 0 (some p) detail
    s.updPart p (fun x => { x with fault := some { code := BitVec.ofNat 16 (reasonCode c n), fc := x.fc, rank := rank,
                                                   seq := seq, stop := false, notify := true } })
  | some f =>
    if f.fc = x.fc ∧ rank < f.rank ∧ f.stop = false then
      let s := { s with events := s.events.map (fun (e : Nat × Event) =>
        if e.2.seq = f.seq then
          (e.1, { e.2 with code := BitVec.ofNat 16 (0x1000 + reasonCode c n), reason := BitVec.ofNat 16 (reasonCode c n),
                           detail := BitVec.ofNat 95 detail })
        else e) }
      s.updPart p (fun x => { x with fault := some { f with code := BitVec.ofNat 16 (reasonCode c n), rank := rank } })
    else s

/-- A fault that is no cell's: JB, LK and EY task aborts and partition stops (R283, R322, R180). -/
def abortJob (s : State) (p : Nat) (c : Cls) (n detail : Nat) (stop notify : Bool) : State :=
  let x := s.part p
  if x.fault.isSome then s
  else
    let seq := od s 0x1E00 0x01
    let s := logReason s c n (if stop then 4 else 3) 0 (some p) detail
    s.updPart p (fun x => { x with fault := some { code := BitVec.ofNat 16 (reasonCode c n), fc := x.fc, rank := 0,
                                                   seq := seq, stop := stop, notify := notify } })

/-! ### Outcomes -/

/-- The outcome of a command on a unit: its effect where the part has the unit, otherwise refused by name. -/
def onUnit (ok : Bool) (kind : String) (n : Nat) (s : State) (f : State → State) :
    Host.Outcome State Fault Refusal :=
  if ok then .next (f s) else .refused (.noSuchUnit kind n)

/-- The outcome of a command on a cell. -/
def onCell (c : Nat) (s : State) (f : State → State) : Host.Outcome State Fault Refusal :=
  onUnit (isCell c) "cell" c s f

/-- The outcome of a command on a partition. -/
def onPart (p : Nat) (s : State) (f : State → State) : Host.Outcome State Fault Refusal :=
  onUnit (isPart p) "partition" p s f

/-- The outcome of a command on an engine. -/
def onEngine (e : Nat) (s : State) (f : State → State) : Host.Outcome State Fault Refusal :=
  onUnit (isEngine e) "engine" e s f

/-- The outcome of a command on a link. -/
def onLink (l : Nat) (s : State) (f : State → State) : Host.Outcome State Fault Refusal :=
  onUnit (isLink l) "link" l s f

/-- The outcome of a command of a host function. -/
def onFn (f : Nat) (s : State) (g : State → State) : Host.Outcome State Fault Refusal :=
  onUnit (isFnId f) "function" f s g

/-- The outcome of a requester's command on a partition. -/
def onSrcPart (src p : Nat) (s : State) (f : State → State) : Host.Outcome State Fault Refusal :=
  if isRequester src then onPart p s f else .refused (.noSuchUnit "requester" src)

end Sys2Proof.Machine
end

