-- ==== Sys2Proof/Machine/PowerOps.lean ====
section
/-! DEFINITION. Power shared by the governor and the job events: predicted dynamic power and the spillway (R331 to
R334), in mW. -/
namespace Sys2Proof.Machine

/-- VID(k) of a die in mV (R331). -/
def vidMv (s : State) (d k : Nat) : Nat := od s (0x4000 + 0x100 * d) 0x02 k

/-- A partition's load estimate in W (R333). -/
def loadW (s : State) (p : Nat) : Nat := od s (0x2000 + 0x100 * p) 0x10

/-- A load of `w` mW on die `d` at pace `k`: scaled by (k / 16) × (VID(k) / VID(16))² (R332). -/
def scaledMw (s : State) (d k w : Nat) : Nat :=
  w * k * (vidMv s d k) ^ 2 / (16 * (vidMv s d 16) ^ 2)

/-- The dies of a partition. -/
def partDies (s : State) (p : Nat) : List Nat := shapeDies (shapeOf s p)

/-- The part of a partition's estimated dynamic power that falls on each of its dies at pace `k`. -/
def dieLoadMw (s : State) (p d k : Nat) : Nat := scaledMw s d k (loadW s p * 1000 / max 1 (partDies s p).length)

/-- A partition's estimated dynamic power at pace `k`, in mW. -/
def partLoadMw (s : State) (p k : Nat) : Nat := ((partDies s p).map (fun d => dieLoadMw s p d k)).sum

/-- SMAX of a die in mW: 192 W, and 0 while the die is throttled (R332, R338). -/
def smaxMw (s : State) (d : Nat) : Nat := if s.thermal.throttled.contains d then 0 else 192000

/-- The spillway of a die in force, in mW. -/
def spillOf (s : State) (d : Nat) : Nat := Assoc.get (fun _ => 0) s.power.spill d

/-- The spillway of a die set. -/
def setSpill (s : State) (d w : Nat) : State :=
  { s with power := { s.power with spill := Assoc.set (fun _ => 0) s.power.spill d w } }

/-- A spillway power in steps of 0.1 W, the resolution of the burn array; down to the next step (R334; log 60). -/
def tenthW (w : Nat) : Nat := w / 100 * 100

/-- SPILLWAY_ADJUST (R334): the spillway of the partition's dies rises by its estimated dynamic power when it leaves
BUSY, and falls by it on a launch or refill; each saturates. -/
def spillAdjust (s : State) (p : Nat) (rise : Bool) : State :=
  (partDies s p).foldl (fun s d =>
    let w := tenthW (dieLoadMw s p d s.clocks.pace)
    setSpill s d (if rise then min (spillOf s d + w) (smaxMw s d) else spillOf s d - w)) s

/-- Bytes that a link or ingest lane has carried for a partition (R341). -/
def carry (s : State) (p n : Nat) : State :=
  { s with power := { s.power with
      carried := Assoc.set (fun _ => 0) s.power.carried p (Assoc.get (fun _ => 0) s.power.carried p + n) } }

/-- The pace in force: the least of the governor's k, PACE_CEILING, the thermal ceiling, and 1 under a VRM alert (R336). -/
def paceTerm (s : State) : Nat :=
  let k := min (min s.clocks.govPace (od s 0x1100 0x06)) s.thermal.ceiling
  max 1 (if s.clocks.alert then 1 else k)

end Sys2Proof.Machine
end

