-- ==== Sys2Proof/Machine/DevMem.lean ====
section
/-! DEFINITION. Objects, plots, frames and the device address (R183 to R187, R195, R199). -/
namespace Sys2Proof.Machine

/-- The key of an object of a partition. -/
def objKey (p o : Nat) : Nat := p * 65536 + o

/-- The key of a virtual plot of a partition. -/
def plotKey (p v : Nat) : Nat := p * 2 ^ 29 + v

/-- The key of a frame: partition, tier (1, or 2 the polder), frame number. -/
def frameKey (p tier f : Nat) : Nat := (p * 4 + tier) * 2 ^ 20 + f

/-- A live or expiring object (R186). -/
def State.obj (s : State) (p o : Nat) : Option Obj := s.objects.find? (objKey p o)

/-- An object record written. -/
def State.setObj (s : State) (p o : Nat) (x : Obj) : State := { s with objects := s.objects.insert (objKey p o) x }

/-- A plot-table entry, of a plot of an uncommitted ALLOC too; none for a number of more than the 29 bits of VPN, which an
address with a reserved REGION gives (R183). -/
def State.plotEntry (s : State) (p v : Nat) : Option Plot := if v < 2 ^ 29 then s.plots.find? (plotKey p v) else none

/-- A plot-table entry with V = 1: its object is live or expiring (R187). -/
def State.plot (s : State) (p v : Nat) : Option Plot :=
  (s.plotEntry p v).filter (fun x => (s.obj p x.obj).isSome)

/-- A plot-table entry written. -/
def State.setPlot (s : State) (p v : Nat) (x : Plot) : State := { s with plots := s.plots.insert (plotKey p v) x }

/-- A plot changed by a function. -/
def State.updPlot (s : State) (p v : Nat) (f : Plot → Plot) : State :=
  match s.plotEntry p v with
  | some x => s.setPlot p v (f x)
  | none => s

/-- A frame. -/
def State.frame (s : State) (k : Nat) : Frame := Assoc.get (fun _ => Frame.init) s.frames k

/-- A frame written. -/
def State.setFrame (s : State) (k : Nat) (x : Frame) : State :=
  { s with frames := Assoc.set (fun _ => Frame.init) s.frames k x }

/-- The key of the frame that holds the copy jobs and hosts use (R187). -/
def curFrame (p : Nat) (x : Plot) : Nat := if x.cur = 1 then frameKey p 1 x.t1frame else frameKey p 2 x.t2frame

/-- The plots of a partition, with their virtual plot numbers. -/
def partPlots (s : State) (p : Nat) : List (Nat × Plot) :=
  (s.plots.filter (fun e => e.1 / 2 ^ 29 == p)).map (fun e => (e.1 % 2 ^ 29, e.2))

/-- The objects of a partition, with their numbers. -/
def partObjs (s : State) (p : Nat) : List (Nat × Obj) :=
  (s.objects.filter (fun e => e.1 / 65536 == p)).map (fun e => (e.1 % 65536, e.2))

/-- The virtual plots of an object. -/
def objPlots (x : Obj) : List Nat := range x.vbase x.nplots

/-- Bytes of a plot, and of a sector. -/
def plotBytes : Nat := 2 ^ 21

/-- An address range cut at plot boundaries: virtual plot, offset, length. -/
def chunks : Nat → Nat → Nat → List (Nat × Nat × Nat)
  | 0, _, _ => []
  | fuel + 1, addr, n =>
    if n = 0 then []
    else
      let m := min n (plotBytes - addr % plotBytes)
      (addr / plotBytes, addr % plotBytes, m) :: chunks fuel (addr + m) (n - m)

/-- The chunks of `n` bytes from a device address of object space. -/
def chunksOf (addr n : Nat) : List (Nat × Nat × Nat) := chunks (n / plotBytes + 2) addr n

/-- Sectors that `n` bytes from offset `o` of a plot touch, as a mask. -/
def sectorMask (o n : Nat) : BitVec 32 :=
  if n = 0 then 0 else BitVec.ofNat 32 (2 ^ ((o + n - 1) / 65536 + 1) - 2 ^ (o / 65536))

/-- Every byte of the range lies in a live object's plot of the partition (R183). -/
def inRange (s : State) (p addr n : Nat) : Bool :=
  decide (addr + n ≤ 2 ^ 50) && (chunksOf addr n).all (fun c => (s.plot p c.1).isSome)

/-- The bytes of a frame from an offset; those of a poisoned sector are lost, and read as free values (R199; log 5). -/
def frameRead (f : Frame) (key o n : Nat) : List Byte :=
  if f.poison &&& sectorMask o n = 0 then f.mem.readN 0 o n
  else (range o n).map (fun a => if bit f.poison (a / 65536) then Config.poisonByte (key * plotBytes + a) else f.mem.read a)

/-- Bytes read from object space; 0 where the byte is outside the range (R183). -/
def devRead (s : State) (p addr n : Nat) : List Byte :=
  (chunksOf addr n).flatMap (fun c => match s.plot p c.1 with
    | some x => frameRead (s.frame (curFrame p x)) (curFrame p x) c.2.1 c.2.2
    | none => List.replicate c.2.2 0)

/-- Some byte of the range lies in a poisoned sector (R199). -/
def poisoned (s : State) (p addr n : Nat) : Bool :=
  (chunksOf addr n).any (fun c => match s.plot p c.1 with
    | some x => x.poison && (s.frame (curFrame p x)).poison &&& sectorMask c.2.1 c.2.2 != 0
    | none => false)

/-- The map of `n` bytes of a sector from its byte `o` on, and that of a whole sector. -/
def byteMap (o n : Nat) : Nat := 2 ^ (o + n) - 2 ^ o
def sectorMap : Nat := 2 ^ 65536 - 1

/-- One sector of a frame after `n` of its bytes from its byte `o` on have been written: a poisoned one keeps account of them,
and is mended once all have been written, by one write or by several (R199; log 91). -/
def Frame.mend (f : Frame) (i o n : Nat) : Frame :=
  if bit f.poison i then
    let m := Assoc.get (fun _ => 0) f.mended i ||| byteMap o n
    if m = sectorMap then { f with poison := f.poison &&& ~~~BitVec.ofNat 32 (2 ^ i), mended := f.mended.erase i }
    else { f with mended := f.mended.insert i m }
  else f

/-- Bytes written into a frame (R199). -/
def Frame.write (f : Frame) (o : Nat) (bs : List Byte) : Frame :=
  let n := bs.length
  let f := { f with mem := f.mem.writeN 0 o bs }
  if f.poison &&& sectorMask o n = 0 then f
  else (range (o / 65536) ((o + n - 1) / 65536 + 1 - o / 65536)).foldl (fun f i =>
    let a := max o (65536 * i)
    f.mend i (a - 65536 * i) (min (o + n) (65536 * (i + 1)) - a)) f

/-- Sectors of a frame poisoned: what had been written of them before is lost with them (R199). -/
def Frame.spoil (f : Frame) (mask : BitVec 32) : Frame :=
  { f with poison := f.poison ||| mask, mended := f.mended.filter (fun e => !bit mask e.1) }

/-- Bytes written into one plot: to CUR, setting DIRTY, RESYNC, clearing RVALID and the poison of whole sectors (R186,
R195, R199). -/
def plotWrite (s : State) (p v o : Nat) (bs : List Byte) : State :=
  match s.plot p v with
  | none => s
  | some x =>
    let k := curFrame p x
    let f' := (s.frame k).write o bs
    let m := sectorMask o bs.length
    let x' := { x with dirty := if x.cur = 1 ∧ x.has2 then x.dirty ||| m else x.dirty,
                       resync := if x.copy then x.resync ||| m else x.resync,
                       poison := x.poison && f'.poison != 0 }
    let s := (s.setFrame k f').setPlot p v x'
    match s.obj p x.obj with
    | some ob => s.setObj p x.obj { ob with rvalid := false }
    | none => s

/-- Bytes written to object space; those outside the range are discarded (R183). -/
def devWrite (s : State) (p addr : Nat) (bs : List Byte) : State :=
  ((chunksOf addr bs.length).foldl (fun (a : State × List Byte) c =>
    (plotWrite a.1 p c.1 c.2.1 (a.2.take c.2.2), a.2.drop c.2.2)) (s, bs)).1

/-- The device address of byte `ofs` of an object. -/
def objAddr (x : Obj) (ofs : Nat) : Nat := x.vbase * plotBytes + ofs

/-- Bytes of an object. -/
def objRead (s : State) (p o ofs n : Nat) : List Byte :=
  match s.obj p o with
  | some x => devRead s p (objAddr x ofs) (min n (x.nplots * plotBytes - ofs)) ++
      List.replicate (n - (x.nplots * plotBytes - ofs)) 0
  | none => List.replicate n 0

/-- Bytes written into an object, cut at its end. -/
def objWrite (s : State) (p o ofs : Nat) (bs : List Byte) : State :=
  match s.obj p o with
  | some x => devWrite s p (objAddr x ofs) (bs.take (x.nplots * plotBytes - ofs))
  | none => s

/-- Every plot of an object is in a tier. -/
def objInTier (s : State) (p : Nat) (x : Obj) (tier : Nat) : Bool :=
  (objPlots x).all (fun v => match s.plot p v with
    | some pl => pl.cur.toNat == tier
    | none => false)

/-- The image of the partition that has protection: from LOADING until the partition is OFF or another image is enabled
(R176). -/
def imageHandle (s : State) (p : Nat) : Option Nat :=
  let x := s.part p
  if x.state = .off then none else some x.ctlImage.toNat

/-- The objects in the partition's valid standby slots (R176). -/
def standby (s : State) (p : Nat) : List Nat :=
  ((List.range 8).map (fun i => odForce s 0x1900 0x22 (8 * p + i))).filterMap
    (fun w => if w.testBit 31 then some (w % 65536) else none)

/-- Writes to the object through BAR4 or by egress are discarded (R176). -/
def objProtected (s : State) (p o : Nat) : Bool := imageHandle s p == some o || (standby s p).contains o

/-- HELD (R186): named by the OBJREFS of the enabled image, or that image, or in a valid standby slot. -/
def objHeld (s : State) (p o : Nat) : Bool :=
  objProtected s p o ||
    (match (imageHandle s p).bind (fun _ => (s.part p).image) with
     | some im => im.refs.any (fun r => r.1 == o)
     | none => false)

/-- The event of a write to a protected object that is discarded, in the group EV-0x07NN (R176; log 15). -/
def evProtected : Nat := 0x0701

/-- Bytes written to object space by a host or by egress: those of a protected object are discarded and logged (R176). -/
def guardedWrite (s : State) (p addr : Nat) (bs : List Byte) : State :=
  ((chunksOf addr bs.length).foldl (fun (a : State × List Byte) c =>
    let s := match a.1.plot p c.1 with
      | some x =>
        if objProtected a.1 p x.obj then
          logEvent a.1 evProtected 0 0 1 (some p) (memDetail (c.1 * plotBytes + c.2.1) x.obj)
        else plotWrite a.1 p c.1 c.2.1 (a.2.take c.2.2)
      | none => a.1
    (s, a.2.drop c.2.2)) (s, bs)).1

/-- A cell's tier-0 bank in bytes (R30). -/
def bankBytes : Nat := 688128

/-- A tier-0 window address names a byte of a bank of the partition (R183). -/
def windowOk (s : State) (p addr : Nat) : Bool :=
  decide (addr / 2 ^ 32 = 0xC0000) && inPart s p (addr / 2 ^ 20 % 4096) && decide (addr % 2 ^ 20 < bankBytes)

/-- The 4 KiB pages of the bank that `n` bytes from `a` touch, as a map (R291). -/
def pageMask (a n : Nat) : BitVec 168 :=
  if n = 0 then 0 else BitVec.ofNat 168 (2 ^ ((a + n - 1) / 4096 + 1) - 2 ^ (a / 4096))

end Sys2Proof.Machine
end

