-- ==== Sys2Proof/Machine/TorusPlan.lean ====
section
/-! DEFINITION. The torus plan object (R317) and the privileged messages that packages send (R312, R323). -/
namespace Sys2Proof.Machine

/-- A torus plan: PLANID, its groups as member nodes in order, and its entries. -/
structure Plan where
  planId  : Nat
  groups  : List (List Nat)
  entries : List (BitVec 512)
  deriving DecidableEq, Repr, Inhabited

/-- The fields of a plan entry (R317). -/
def peOp (e : BitVec 512) : Nat := bits e 511 504
def peChan (e : BitVec 512) : Nat := bits e 503 496
def peGrp (e : BitVec 512) : Nat := bits e 495 492
def pePeer (e : BitVec 512) : Nat := bits e 491 474
def peTdie (e : BitVec 512) : Nat := bits e 473 472
def peTobj (e : BitVec 512) : Nat := bits e 471 460
def peTcount (e : BitVec 512) : Nat := bits e 459 428
def peAdie (e : BitVec 512) : Nat := bits e 427 426
def peAobj (e : BitVec 512) : Nat := bits e 425 414
def peSobj (e : BitVec 512) : Nat := bits e 413 398
def peDobj (e : BitVec 512) : Nat := bits e 397 382
def peSofs (e : BitVec 512) : Nat := bits e 381 338
def peDofs (e : BitVec 512) : Nat := bits e 337 294
def peLen (e : BitVec 512) : Nat := bits e 293 258

/-- Operation codes of plan entries (R317). -/
def opSend : Nat := 1
def opRecv : Nat := 2
def opAllsum : Nat := 3
def opAllmax : Nat := 4
def opAllgather : Nat := 5
def opBarrier : Nat := 6

/-- The member nodes of a group's 256 bytes, in order: X in bits [17:12], Y in [11:6], Z in [5:0] of an 18-bit node
(R300), from node words of bytes X, Y, Z, member mark. -/
def groupNodes (bs : List Byte) : List Nat :=
  (List.range 64).filterMap (fun i =>
    if leAt bs (4 * i + 3) 1 = 1 then
      some (leAt bs (4 * i) 1 % 64 * 4096 + leAt bs (4 * i + 1) 1 % 64 * 64 + leAt bs (4 * i + 2) 1 % 64)
    else none)

/-- The plan that an object holds, if its header is a plan's (R317). -/
def readPlan (s : State) (p o : Nat) : Option Plan :=
  match s.obj p o with
  | none => none
  | some _ =>
    let h := leNat (objRead s p o 0 64)
    let nent := nbits h 143 128
    let ngrp := nbits h 151 144
    if nbits h 63 0 ≠ 0x4E414C50544C4443 ∨ 256 < nent ∨ 16 < ngrp ∨ h / 2 ^ 152 ≠ 0 then none
    else
      some { planId := nbits h 127 64,
             groups := (List.range ngrp).map (fun g => groupNodes (objRead s p o (64 + 256 * g) 256)),
             entries := (List.range nent).map (fun i =>
               BitVec.ofNat 512 (leNat (objRead s p o (64 + 256 * ngrp + 64 * i) 64))) }

/-- The plan of a job: the object it was launched with. -/
def jobPlan (s : State) (p : Nat) (j : Job) : Option Plan := j.plan.bind (readPlan s p)

/-- The package's own node (R327): X, Y, Z as an 18-bit node. -/
def ownNode (s : State) : Nat :=
  let n := odForce s 0x1C00 0x01 0
  nbits n 23 16 % 64 * 4096 + nbits n 15 8 % 64 * 64 + nbits n 7 0 % 64

/-- The nodes of a plan's groups and peers, but the package's own (R323). -/
def planNodes (s : State) (pl : Plan) : List Nat :=
  let peers := pl.entries.filterMap (fun e => if peOp e = opSend ∨ peOp e = opRecv then some (pePeer e) else none)
  ((pl.groups.flatten ++ peers).eraseDups).filter (fun n => n != ownNode s)

/-- The members of an entry's group. -/
def Plan.members (pl : Plan) (e : BitVec 512) : List Nat := nth [] pl.groups (peGrp e)

/-- Bytes that land for an entry (R319): none for SEND, ALLMAX and BARRIER. -/
def Plan.landing (pl : Plan) (e : BitVec 512) : Nat :=
  if peOp e = opRecv ∨ peOp e = opAllsum then peLen e
  else if peOp e = opAllgather then peLen e * (pl.members e).length
  else 0

/-- The running job's plan. -/
def State.plan (s : State) (p : Nat) : Option Plan := (s.part p).job.bind (jobPlan s p)

/-- The progress of a plan entry, by its channel. -/
def Part.transfer (x : Part) (chan : Nat) : Transfer :=
  (x.transfers.find? chan).getD
    { trigger := none, value := 0, sent := 0, sending := false, landed := [], contrib := [], counted := false }

/-- The progress of an entry changed by a function. -/
def Part.updTransfer (x : Part) (chan : Nat) (f : Transfer → Transfer) : Part :=
  { x with transfers := x.transfers.insert chan (f (x.transfer chan)) }

/-- A sync object is an arrival object of the running job's plan (R320). -/
def arrivalObj (s : State) (p die obj : Nat) : Bool :=
  match s.plan p with
  | some pl => pl.entries.any (fun e => peOp e != opSend && peAdie e == die && peAobj e == obj)
  | none => false

/-- Some byte of the range lies in the landing range of an entry whose arrival is not yet counted (R320). -/
def landingAhead (s : State) (p addr n : Nat) : Bool :=
  match s.plan p with
  | some pl => pl.entries.any (fun e =>
      match s.obj p (peDobj e) with
      | some o =>
        let a := objAddr o (peDofs e)
        !((s.part p).transfer (peChan e)).counted && decide (addr < a + pl.landing e) && decide (a < addr + n)
      | none => false)
  | none => false

/-- The entries that an object's COUNT triggers (R318). -/
def triggerEntries (s : State) (p die obj count : Nat) : List (BitVec 512) :=
  match s.plan p with
  | some pl => pl.entries.filter (fun e =>
      peOp e != opRecv && peTdie e == die && peTobj e == obj && decide (peTcount e ≤ count) &&
        ((s.part p).transfer (peChan e)).trigger.isNone)
  | none => []

/-- A sync object written by an operation: an entry whose trigger it is triggers (R318). ALLMAX contributes the VALUE. -/
def syncWrite (s : State) (p die obj : Nat) (v : Word) : State :=
  let es := triggerEntries s p die obj (bits v 31 0)
  let s := s.setSync die obj v
  es.foldl (fun s e => s.updPart p (fun x =>
    x.updTransfer (peChan e) (fun t => { t with trigger := some x.fc, value := BitVec.ofNat 32 (bits v 63 32) }))) s

/-- Codes of the privileged messages, in the order of R312's table. -/
def msgSync : Nat := 0
def msgDelayReq : Nat := 1
def msgDelayResp : Nat := 2
def msgLaunch : Nat := 3
def msgBarrier : Nat := 4
def msgAbort : Nat := 5
def msgBreach : Nat := 6
def msgKeeper : Nat := 7

/-- A privileged frame with a payload of up to 512 bytes (R300, R304, R312). -/
def privFrame (s : State) (node : Nat) (payload : List Byte) : LinkFrame :=
  { typ := 3, vc := 2, dest := BitVec.ofNat 18 node, src := BitVec.ofNat 18 (ownNode s), chan := 0,
    len := BitVec.ofNat 10 (min (max payload.length 1) 512), ofs := 0, lseq := 0, payload := payload, resent := 0,
    part := none, held := none }

/-- A privileged message to a node: a frame that waits on each of the two switch links, with the source and the next message
number in its payload, whose layout the spec leaves open (R312; log 45). -/
def sendMsg (s : State) (code node : Nat) (body : List Byte) : State :=
  let f := privFrame s node (Config.messagePayload code (ownNode s) s.msgSeq body)
  let s := { s with msgSeq := s.msgSeq + 1 }
  [12, 13].foldl (fun s l => s.updLink l (fun x => { x with waiting := x.waiting ++ [f] })) s

/-- The notice that tells a job's partners of its end: PLANID and STEP to every node of the plan (R323). -/
def sendNotice (s : State) (code p : Nat) (j : Job) : State :=
  match jobPlan s p j with
  | none => s
  | some pl =>
    (planNodes s pl).foldl (fun s n => sendMsg s code n (leBytes 8 pl.planId ++ leBytes 8 (bits j.desc 511 448))) s

/-- A partition's running, draining or drained job has a torus plan (R305). -/
def torusJob (x : Part) : Bool :=
  (match x.job with | some j => j.plan.isSome | none => false) ||
    (match x.drained with | some d => d.job.plan.isSome | none => false)

/-- Changes to the coordinates, the sizes and the roles that are held take effect once no job of the package has a torus plan
(R305; log 30). -/
def applyTorusSettings (s : State) : State :=
  if s.parts.any (fun e => torusJob e.2) then s
  else { s with inForce := s.inForce.filter (fun e =>
    !(e.1 / 2 ^ 40 == 0x1C00 && (e.1 / 2 ^ 32 % 256 == 1 || e.1 / 2 ^ 32 % 256 == 2 || e.1 / 2 ^ 32 % 256 == 3))) }

end Sys2Proof.Machine
end

