-- ==== Sys2Proof/Machine/Records.lean ====
section
/-! DEFINITION. Completion records (R285), the counts they make (R287), and the end of a job (R283, R286, R407). -/
namespace Sys2Proof.Machine

/-! ### Ring memory of a partition block (R268) -/

/-- The word of a partition block's rings at an 8-byte aligned offset. -/
def ringWord (x : Part) (ofs : Nat) : Word := Assoc.get (fun _ => 0) x.ringMem (ofs / 8)

/-- A word of the rings written. -/
def setRingWord (x : Part) (ofs : Nat) (v : Word) : Part :=
  { x with ringMem := Assoc.set (fun _ => 0) x.ringMem (ofs / 8) v }

/-- `n` bytes of the rings from an 8-byte aligned offset, as a number. -/
def ringNat (x : Part) (ofs : Nat) : Nat → Nat
  | 0 => 0
  | n + 1 => (ringWord x ofs).toNat + 2 ^ 64 * ringNat x (ofs + 8) n

/-- Words of a number written to the rings from an offset. -/
def setRingNat (x : Part) (ofs v : Nat) : Nat → Part
  | 0 => x
  | n + 1 => setRingNat (setRingWord x ofs (BitVec.ofNat 64 v)) (ofs + 8) (v / 2 ^ 64) n

/-- Entries that a ring of a depth holds (R268). -/
def ringUsed (r : Ring) (depth : Nat) : Nat := (r.tail + depth - r.head) % depth

/-- A ring is full when it holds one entry fewer than its depth (R268). -/
def ringFull (r : Ring) (depth : Nat) : Bool := decide (depth - 1 ≤ ringUsed r depth)

/-- Offsets of the rings in the partition block (R268). -/
def sqOfs (q : Nat) : Nat := 0x10000 + 0x8000 * q
def cqOfs : Nat := 0x30000
def mcOfs : Nat := 0x50000
def mccOfs : Nat := 0x54000
def srOfs : Nat := 0x60000
def scOfs : Nat := 0x70000

/-! ### Descriptors (R279) -/

/-- The fields of a job descriptor. -/
def descSeed (d : BitVec 1024) : List Byte := leBytes 32 (bits d 1023 768)
def descInput (d : BitVec 1024) : List Byte := leBytes 32 (bits d 767 512)
def descStep (d : BitVec 1024) : Nat := bits d 511 448
def descLaunch (d : BitVec 1024) : Nat := bits d 447 384
def descLimit (d : BitVec 1024) : Nat := bits d 383 320
def descCaddr (d : BitVec 1024) : Nat := bits d 319 256
def descCtx (d : BitVec 1024) : Nat := bits d 255 192
def descImage (d : BitVec 1024) : Nat := bits d 191 176
def descClient (d : BitVec 1024) : Nat := bits d 175 164
def descPart (d : BitVec 1024) : Nat := bits d 163 161
def descStrict (d : BitVec 1024) : Bool := bit d 160
def descDest (d : BitVec 1024) : Nat := bits d 159 158
def descIrq (d : BitVec 1024) : Bool := bit d 157
def descVer (d : BitVec 1024) : Nat := bits d 151 144

/-- STATUS codes (R285). -/
def stSuccess : Nat := 0
def stRefused : Nat := 1
def stAbort : Nat := 2
def stStop : Nat := 3
def stBreach : Nat := 4
def stCancelled : Nat := 5

/-- What a completion record says beside its descriptor's fields. -/
structure RecInfo where
  prov     : List Byte
  fc       : Nat
  idle     : Nat
  energy   : Nat
  start    : Nat
  done     : Nat
  preempts : Nat
  ndops    : Nat
  status   : Nat
  code     : Nat
  queue    : Nat
  owner    : Nat
  noCopy   : Bool
  deriving DecidableEq, Repr, Inhabited

/-- The 128 bytes of a completion record (R285). -/
def recordBytes (d : BitVec 1024) (r : RecInfo) (seq phase : Nat) : List Byte :=
  leBytes 32 (phase + descImage d * 2 ^ 178 + r.queue % 4 * 2 ^ 194 + descClient d * 2 ^ 196 + r.code % 65536 * 2 ^ 208 +
      r.status % 256 * 2 ^ 224 + r.ndops % 256 * 2 ^ 232 + r.preempts % 65536 * 2 ^ 240) ++
    leBytes 8 (descStep d) ++ leBytes 8 seq ++ leBytes 8 r.done ++ leBytes 8 r.start ++ leBytes 8 r.energy ++
    leBytes 8 r.idle ++ leBytes 8 r.fc ++ leBytes 8 (descCtx d) ++ fit 32 r.prov

/-- The owning function of a submission queue, as an owner id (R277). -/
def queueOwner (x : Part) (q : Nat) : Nat :=
  let c := (Assoc.get (fun _ => SubQueue.init) x.queues q).cfg
  bits c 58 55 * 0x1000 + bits c 54 47

/-- SERVE is set: the keepers run the partition's serving loop and own queue 1 (R234, R277). -/
def serving (s : State) (p : Nat) : Bool := decide (od s 0x1A00 0x01 p = 1)

/-- The record's copy to CADDR (R265, R279, R285). -/
def copyRecord (s : State) (p : Nat) (d : BitVec 1024) (r : RecInfo) (bs : List Byte) : State :=
  match descDest d with
  | 1 => if r.noCopy || !isFnId r.owner then s else s.send (.dma r.owner (descCaddr d) bs)
  | 2 => if inRange s p (descCaddr d) 128 then devWrite s p (descCaddr d) bs
         else logReason s .jb 0x0F 0 1 (some p) (descCtx d)
  | _ => s

/-- The count that a job's record makes for its client (R287): completed, or aborted. -/
def countClient (s : State) (d : BitVec 1024) (status : Nat) : State :=
  let k := if status = stSuccess then some 0 else if 2 ≤ status ∧ status ≤ 4 then some 1 else none
  match k with
  | some k => odSet s 0x1800 0x10 (3 * descClient d + k) (satAdd 64 (od s 0x1800 0x10 (3 * descClient d + k)) 1)
  | none => s

/-- A record in the ring: SEQ, PHASE, the tail, the ring's watermark (R285, R416). -/
def ringRecord (s : State) (p : Nat) (bs : List Byte) : State :=
  let s := s.updPart p (fun x =>
    { setRingNat x (cqOfs + 128 * x.cq.tail) (leNat bs) 16 with
      seq := x.seq + 1, cq := { x.cq with tail := (x.cq.tail + 1) % 1024, total := x.cq.total + 1 } })
  markSample s (8 + p) (ringUsed (s.part p).cq 1024)

/-- The owner that the records of the serving loop's jobs have: no function's id. -/
def keeperOwner : Nat := 0x3000

/-- The serving loop learns how its step's job ended (R239). -/
def noteStep (s : State) (p : Nat) (status : Nat) : State :=
  s.updPart p (fun x => { x with serving := { x.serving with
    step := x.serving.step.map (fun k => { k with outcome := some status }) } })

/-- A record of the serving loop: it is dropped where the ring is full, and so never waits for space (R284). -/
def loopRecord (s : State) (p owner : Nat) : Bool := serving s p && owner == keeperOwner

/-- COMPLETION_RECORD_WRITE (R283 to R285): the copy to CADDR, the ring, then the interrupt. A loop record that finds the
ring full is dropped and counted. -/
def writeRecord (s : State) (p : Nat) (d : BitVec 1024) (r : RecInfo) : State :=
  let x := s.part p
  let s := if r.owner = keeperOwner then noteStep s p r.status else s
  if loopRecord s p r.owner && ringFull x.cq 1024 then odCount s (0x2000 + 0x100 * p) 0x0A 0 32
  else
    let bs := recordBytes d r (x.seq + 1) (ofBool (x.cq.total / 1024 % 2 == 0))
    let s := copyRecord s p d r bs
    let s := ringRecord s p bs
    let s := if descIrq d && isFnId r.owner then raiseMsix s r.owner (partVector r.owner p 0) else s
    countClient s d r.status

/-- A record without a run: refused or cancelled before launch (R232, R285). -/
def plainRecord (s : State) (p : Nat) (l : Late) : State :=
  writeRecord s p l.desc
    { prov := List.replicate 32 0, fc := 0, idle := 0, energy := 0, start := 0, done := l.gt, preempts := 0, ndops := 0,
      status := if l.code = reasonCode .jb 0x08 then stCancelled else stRefused, code := l.code, queue := l.queue,
      owner := l.owner, noCopy := l.noCopy }

/-- A job of queue `q` is running or drained. -/
def queueBusy (x : Part) (q : Nat) : Bool :=
  (match x.job with | some j => j.queue == q | none => false) ||
  (match x.drained with | some d => d.job.queue == q | none => false)

/-- The ring has space for one more record beside those of the running and the drained job (R280, R284). -/
def cqSpace (x : Part) (n : Nat) : Bool :=
  decide (ringUsed x.cq 1024 + n + ofBool x.job.isSome + ofBool x.drained.isSome < 1024)

/-- The waiting records that may be written now are written, in order (R284). -/
def flushLate (s : State) (p : Nat) : State :=
  let ls := (s.part p).late
  ls.foldl (fun s l =>
    let x := s.part p
    if queueBusy x l.queue || (!loopRecord s p l.owner && !cqSpace x 1) then s.updPart p (fun x => { x with late := x.late ++ [l] })
    else plainRecord s p l) (s.updPart p (fun x => { x with late := [] }))

/-- A descriptor refused or cancelled before launch: its record follows those of earlier jobs of its queue, and waits for
space in the ring (R284; log 25). -/
def postPlain (s : State) (p : Nat) (l : Late) : State :=
  flushLate (s.updPart p (fun x => { x with late := x.late ++ [l] })) p

/-- The energy attributed to a partition so far, in µJ (R341). -/
def partEnergy (s : State) (p : Nat) : Nat := od s 0x1400 0x04 p

/-- The record of a job that has launched (R285): FC counts delivered and held cycles, IDLEFC the held ones (R321). -/
def jobRecord (s : State) (p : Nat) (j : Job) (cycles status code : Nat) : State :=
  let s := writeRecord s p j.desc
    { prov := j.prov, fc := cycles + j.held, idle := j.held, energy := partEnergy s p - j.energy0, start := j.startGt,
      done := s.counter.gt, preempts := min j.preempts 65535, ndops := j.ndops.toNat, status := status, code := code,
      queue := j.queue, owner := j.owner, noCopy := j.noCopy }
  if j.ndops ≠ 0 then odSet s 0x1500 0x21 p (satAdd 64 (od s 0x1500 0x21 p) 1) else s

/-- The fabric cycles of the running job: those delivered, the first numbered 0 (log 14). -/
def jobCycles (x : Part) : Nat := if x.first then x.fc + 1 else 0

/-- The partition without its running job; a request that has not frozen it is void (R289). -/
def clearJob (s : State) (p : Nat) : State :=
  let x := s.part p
  let s := if x.preempt.isSome then odCount s (0x2000 + 0x100 * p) 0x08 0 32 else s
  s.updPart p (fun x =>
    { x with job := none, fault := none, hold := none, transfers := [], preempt := none, freezing := none,
             refilling := false, preVoid := x.preVoid || x.preempt.isSome, flits := [], syncOps := [], first := false })

/-- An abort discards the partition's frames that have not been sent (R323). -/
def dropFrames (s : State) (p : Nat) : State :=
  (List.range 12).foldl (fun s l => s.updLink l (fun x => { x with waiting := x.waiting.filter (fun f => f.part != some p) })) s

/-- The drained job's ENERGY leaves out what the partition has used since the running job's launch (R342). -/
def chargeOvertaken (s : State) (p : Nat) : State :=
  let x := s.part p
  match x.job with
  | some j =>
    let used := partEnergy s p - j.energy0
    s.updPart p (fun x => { x with drained := x.drained.map (fun d =>
      { d with job := { d.job with energy0 := d.job.energy0 + used } }) })
  | none => s

/-- A running job ends (R283, R286, R323, R334, R342): the notice to its partners when it ends abnormally, its record, its
energy left out of a job that it overtook, and the spillway. -/
def finishJob (s : State) (p : Nat) (status code : Nat) (notify : Bool) : State :=
  let x := s.part p
  match x.job with
  | none => s
  | some j =>
    let s := if notify && (status == stAbort || status == stStop || status == stCancelled) then
        sendNotice s msgAbort p j else s
    let s := if status = stSuccess then s else dropFrames s p
    let s := chargeOvertaken (jobRecord s p j (jobCycles x) status code) p
    let s := if x.state = .busy then spillAdjust s p true else s
    applyTorusSettings (flushLate (clearJob s p) p)

/-- The drained job of a partition discarded with JB-0x09 (R294), or lost with another status; where another job runs, its
time is left out of the drained job's energy (R342). -/
def finishDrained (s : State) (p status code : Nat) : State :=
  match ((chargeOvertaken s p).part p).drained with
  | none => s
  | some d =>
    let s := if status = stStop ∨ status = stCancelled then sendNotice s msgAbort p d.job else s
    let s := jobRecord s p d.job (d.fc + 1) status code
    applyTorusSettings (flushLate (s.updPart p (fun x => { x with drained := none })) p)

/-- The data-plane part of a breach (R17, R407): each busy, draining or drained job gets a record with STATUS breach and
CODE 0, and the switch links tell its partners (R323). -/
def breachJobs (s : State) (p : Nat) : State :=
  let x := s.part p
  let s := match x.job with
    | some j =>
      let s := sendNotice s msgBreach p j
      let s := chargeOvertaken (jobRecord s p j (jobCycles x) stBreach 0) p
      clearJob s p
    | none => s
  let s := match (s.part p).drained with
    | some d =>
      let s := sendNotice s msgBreach p d.job
      let s := jobRecord s p d.job (d.fc + 1) stBreach 0
      s.updPart p (fun x => { x with drained := none })
    | none => s
  applyTorusSettings (flushLate s p)

/-- Once the fabric has stopped for a breach, the jobs end, if the control plane still runs (R17, R407; log 90). -/
def settleBreach (s : State) : State :=
  if bit s.breach 7 && derivedRun s && !clocksRun s then (List.range 8).foldl breachJobs s else s

/-- BREACH_RAISE (R17 to R19): the raises of one WCLK edge set the summary, assert ALERT_N, are logged, and end every
job. Data plane first, then control, then management. -/
def raiseBreach (s : State) (data ctrl mgmt : Option (BitVec 16)) : State :=
  let raises : List (Nat × BitVec 16) :=
    (data.toList.map (fun c => (0, c))) ++ (ctrl.toList.map (fun c => (1, c))) ++ (mgmt.toList.map (fun c => (2, c)))
  match raises with
  | [] => s
  | first :: _ =>
    let was := bit s.breach 7
    let planes := raises.foldl (fun (a : BitVec 32) r => a ||| BitVec.ofNat 32 (2 ^ r.1)) 0
    let base : BitVec 32 := if was then s.breach else BitVec.ofNat 32 (first.2.toNat * 65536 + 128)
    let s := { s with breach := base ||| planes, pins := { s.pins with alertN := false } }
    let s := raises.foldl (fun s r =>
      let reason := if 0x1000 ≤ r.2.toNat then r.2.toNat - 0x1000 else 0
      logEvent s r.2.toNat reason 5 r.1 none 0) s
    let s := allFns.foldl (fun s f => raiseMsix s f (if f % 0x1000 = 0 then 40 else 5)) s
    settleBreach s

end Sys2Proof.Machine
end

