-- ==== Sys2Proof/Machine/Clocks.lean ====
section
/-! DEFINITION. Clocks, pace and breaches (01_package_and_planes.md). -/
namespace Sys2Proof.Machine

/-- Source edge `i` of a pace step is delivered at pace `k` (R23). -/
def edgeDelivered (k i : Nat) : Bool := decide (i * k / 16 < (i + 1) * k / 16)

/-- The term of R336 that sets the pace, as OD 0x1100.28 codes it. -/
def paceLimit (s : State) : Nat :=
  if s.clocks.alert then 4
  else if s.thermal.ceiling < s.clocks.govPace ∧ s.thermal.ceiling ≤ od s 0x1100 0x06 then 3
  else if od s 0x1100 0x06 < s.clocks.govPace then 0
  else s.power.govTerm

/-- The voltage commanded on every fabric die's rail (R331). -/
def commandVid (s : State) (k : Nat) : State :=
  (List.range 4).foldl (fun s d => odSet s (0x4000 + 0x100 * d) 0x01 0 (vidMv s d k)) s

/-- At a pace-step boundary the value of R336 takes effect on all dies (R16). A lower pace is followed by
its lower voltages (R335). A lowering holds until a step point raises the pace again (R336). -/
def paceBoundary (s : State) : State :=
  let k := paceTerm s
  let was := s.clocks.pace
  let term := paceLimit s
  let s := odSet { s with power := { s.power with govTerm := term } } 0x1100 0x28 0 term
  let s := if k = was then s else odSet s 0x1100 0x07 0 (od s 0x1100 0x07 + 1)
  let s := if k < was then commandVid s k else s
  { s with clocks := { s.clocks with pace := k, govPace := k } }

/-- The end of a pace step: FCLK stops for a breach, or the next step has the pace that waits (R16, R17). -/
def paceStepEnd (s : State) : State := if bit s.breach 7 then settleBreach s else paceBoundary s

/-- One FCLK source edge (R20, R23): delivered or swallowed by the pace in force; none while the clocks are stopped. The last
of a pace step is its boundary. What a step does on an empty queue (log 2). -/
def sourceEdge (s : State) : State :=
  if clocksRun s then
    let i := s.clocks.edge
    let s := { s with clocks := { s.clocks with edge := (i + 1) % 16 } }
    let s := if edgeDelivered s.clocks.pace i then deliver 1 s else s
    if (i + 1) % 16 = 0 then paceStepEnd s else s
  else s

/-- PACE_STEP_APPLY: at a pace-step boundary, which edge 0 of a step follows, the value that waits takes effect; within a step
nothing happens, and the boundary is still to come (R16). -/
def execPaceStepApply (s : State) : Host.Outcome State Fault Refusal :=
  .next (if s.clocks.edge = 0 ∧ clocksRun s then paceBoundary s else s)

/-- BREACH_RAISE: the raises that one WCLK edge samples (R17 to R19). -/
def execBreachRaise (data ctrl mgmt : Option (BitVec 16)) (s : State) : Host.Outcome State Fault Refusal :=
  .next (onWarden (fun s => raiseBreach s data ctrl mgmt) s)

/-- ROOT_PLL_LOCK: the root PLL, once released, locks, and WCLK moves to root/64 without skipping a tick (R22). What a breach
still asks of the control plane follows where the derived clocks stood (log 90). -/
def execRootPllLock (s : State) : Host.Outcome State Fault Refusal :=
  .next (if s.clocks.pllOn then settleBreach { s with clocks := { s.clocks with locked := true } } else s)

/-- The event code of a PLL lock loss, which R410 leaves to the group EV-0x01NN (log 15). -/
def evPllLoss : BitVec 16 := 0x0101

/-- ROOT_PLL_LOCK_LOSS: the derived clocks stop, the loss is counted and raised as a breach by the management plane; the
warden and the global counter run on REFCLK (R22). -/
def execRootPllLockLoss (s : State) : Host.Outcome State Fault Refusal :=
  .next (if s.clocks.locked then
      let s := odCount s 0x1100 0x04 0 32
      raiseBreach { s with clocks := { s.clocks with locked := false, edge := 0 } } none none (some evPllLoss)
    else s)

end Sys2Proof.Machine
end

