-- ==== Sys2Proof/Machine/Crypto.lean ====
section
/-! DEFINITION. The cryptographic functions that the spec names by their standards: SHA-256 and SHA-384 (FIPS 180-4),
HMAC-SHA-256, the ChaCha20 block function (RFC 8439), AES-256-GCM (NIST SP 800-38D) and ECDSA P-384
(FIPS 186-5). Log entry 9. -/
namespace Sys2Proof.Machine
namespace Crypto

/-- Round constants of SHA-256, entries 0 to 31. -/
def k256_0 : List (BitVec 32) :=
  [0x428A2F98, 0x71374491, 0xB5C0FBCF, 0xE9B5DBA5, 0x3956C25B, 0x59F111F1, 0x923F82A4, 0xAB1C5ED5,
   0xD807AA98, 0x12835B01, 0x243185BE, 0x550C7DC3, 0x72BE5D74, 0x80DEB1FE, 0x9BDC06A7, 0xC19BF174,
   0xE49B69C1, 0xEFBE4786, 0xFC19DC6, 0x240CA1CC, 0x2DE92C6F, 0x4A7484AA, 0x5CB0A9DC, 0x76F988DA,
   0x983E5152, 0xA831C66D, 0xB00327C8, 0xBF597FC7, 0xC6E00BF3, 0xD5A79147, 0x6CA6351, 0x14292967]

/-- Round constants of SHA-256, entries 32 to 63. -/
def k256_1 : List (BitVec 32) :=
  [0x27B70A85, 0x2E1B2138, 0x4D2C6DFC, 0x53380D13, 0x650A7354, 0x766A0ABB, 0x81C2C92E, 0x92722C85,
   0xA2BFE8A1, 0xA81A664B, 0xC24B8B70, 0xC76C51A3, 0xD192E819, 0xD6990624, 0xF40E3585, 0x106AA070,
   0x19A4C116, 0x1E376C08, 0x2748774C, 0x34B0BCB5, 0x391C0CB3, 0x4ED8AA4A, 0x5B9CCA4F, 0x682E6FF3,
   0x748F82EE, 0x78A5636F, 0x84C87814, 0x8CC70208, 0x90BEFFFA, 0xA4506CEB, 0xBEF9A3F7, 0xC67178F2]

/-- Round constants of SHA-256. -/
def k256_ : List (BitVec 32) := k256_0 ++ k256_1

/-- Round constants of SHA-384, entries 0 to 39. -/
def k384_0 : List (BitVec 64) :=
  [0x428A2F98D728AE22, 0x7137449123EF65CD, 0xB5C0FBCFEC4D3B2F, 0xE9B5DBA58189DBBC,
   0x3956C25BF348B538, 0x59F111F1B605D019, 0x923F82A4AF194F9B, 0xAB1C5ED5DA6D8118,
   0xD807AA98A3030242, 0x12835B0145706FBE, 0x243185BE4EE4B28C, 0x550C7DC3D5FFB4E2,
   0x72BE5D74F27B896F, 0x80DEB1FE3B1696B1, 0x9BDC06A725C71235, 0xC19BF174CF692694,
   0xE49B69C19EF14AD2, 0xEFBE4786384F25E3, 0xFC19DC68B8CD5B5, 0x240CA1CC77AC9C65,
   0x2DE92C6F592B0275, 0x4A7484AA6EA6E483, 0x5CB0A9DCBD41FBD4, 0x76F988DA831153B5,
   0x983E5152EE66DFAB, 0xA831C66D2DB43210, 0xB00327C898FB213F, 0xBF597FC7BEEF0EE4,
   0xC6E00BF33DA88FC2, 0xD5A79147930AA725, 0x6CA6351E003826F, 0x142929670A0E6E70,
   0x27B70A8546D22FFC, 0x2E1B21385C26C926, 0x4D2C6DFC5AC42AED, 0x53380D139D95B3DF,
   0x650A73548BAF63DE, 0x766A0ABB3C77B2A8, 0x81C2C92E47EDAEE6, 0x92722C851482353B]

/-- Round constants of SHA-384, entries 40 to 79. -/
def k384_1 : List (BitVec 64) :=
  [0xA2BFE8A14CF10364, 0xA81A664BBC423001, 0xC24B8B70D0F89791, 0xC76C51A30654BE30,
   0xD192E819D6EF5218, 0xD69906245565A910, 0xF40E35855771202A, 0x106AA07032BBD1B8,
   0x19A4C116B8D2D0C8, 0x1E376C085141AB53, 0x2748774CDF8EEB99, 0x34B0BCB5E19B48A8,
   0x391C0CB3C5C95A63, 0x4ED8AA4AE3418ACB, 0x5B9CCA4F7763E373, 0x682E6FF3D6B2B8A3,
   0x748F82EE5DEFB2FC, 0x78A5636F43172F60, 0x84C87814A1F0AB72, 0x8CC702081A6439EC,
   0x90BEFFFA23631E28, 0xA4506CEBDE82BDE9, 0xBEF9A3F7B2C67915, 0xC67178F2E372532B,
   0xCA273ECEEA26619C, 0xD186B8C721C0C207, 0xEADA7DD6CDE0EB1E, 0xF57D4F7FEE6ED178,
   0x6F067AA72176FBA, 0xA637DC5A2C898A6, 0x113F9804BEF90DAE, 0x1B710B35131C471B,
   0x28DB77F523047D84, 0x32CAAB7B40C72493, 0x3C9EBE0A15C9BEBC, 0x431D67C49C100D4C,
   0x4CC5D4BECB3E42B6, 0x597F299CFC657E2A, 0x5FCB6FAB3AD6FAEC, 0x6C44198C4A475817]

/-- Round constants of SHA-384. -/
def k384_ : List (BitVec 64) := k384_0 ++ k384_1

/-- Initial hash value of SHA-256. -/
def h256 : List (BitVec 32) := [0x6A09E667, 0xBB67AE85, 0x3C6EF372, 0xA54FF53A, 0x510E527F, 0x9B05688C, 0x1F83D9AB, 0x5BE0CD19]

/-- Initial hash value of SHA-384. -/
def h384 : List (BitVec 64) := [0xCBBB9D5DC1059ED8, 0x629A292A367CD507, 0x9159015A3070DD17, 0x152FECD8F70E5939,
   0x67332667FFC00B31, 0x8EB44A8768581511, 0xDB0C2E0D64F98FA7, 0x47B5481DBEFA4FA4]

/-- The message with its padding: a 1 bit, zeros, and the bit length in `lenBytes` bytes, to a multiple of `block`
bytes. -/
def pad (block lenBytes : Nat) (msg : List Byte) : List Byte :=
  let n := msg.length
  let z := (block - (n + 1 + lenBytes) % block) % block
  msg ++ [0x80] ++ List.replicate z 0 ++ beBytes lenBytes (8 * n)

/-- Big-endian words of `w` bytes each. -/
def beWords (w : Nat) : Nat → List Byte → List Nat
  | 0, _ => []
  | n + 1, bs => beNat (bs.take w) :: beWords w n (bs.drop w)

/-- Parameters of a SHA-2 function on words of `n` bits: the rotations of Σ0, Σ1, σ0 and σ1. -/
structure Sha (n : Nat) where
  s0 : Nat × Nat × Nat
  s1 : Nat × Nat × Nat
  t0 : Nat × Nat × Nat
  t1 : Nat × Nat × Nat

/-- Σ: exclusive or of three rotations. -/
def bigSigma {n : Nat} (r : Nat × Nat × Nat) (x : BitVec n) : BitVec n :=
  x.rotateRight r.1 ^^^ x.rotateRight r.2.1 ^^^ x.rotateRight r.2.2

/-- σ: exclusive or of two rotations and a shift. -/
def smallSigma {n : Nat} (r : Nat × Nat × Nat) (x : BitVec n) : BitVec n :=
  x.rotateRight r.1 ^^^ x.rotateRight r.2.1 ^^^ (x >>> r.2.2)

/-- The message schedule, newest word first, extended by `m` words. -/
def schedule {n : Nat} (p : Sha n) : Nat → List (BitVec n) → List (BitVec n)
  | 0, w => w
  | m + 1, w =>
    schedule p m ((smallSigma p.t1 (nth 0 w 1) + nth 0 w 6 + smallSigma p.t0 (nth 0 w 14) + nth 0 w 15) :: w)

/-- One round on the working variables a to h. -/
def round {n : Nat} (p : Sha n) (v : List (BitVec n)) (kw : BitVec n × BitVec n) : List (BitVec n) :=
  match v with
  | [a, b, c, d, e, f, g, h] =>
    let t1 := h + bigSigma p.s1 e + ((e &&& f) ^^^ (~~~e &&& g)) + kw.1 + kw.2
    let t2 := bigSigma p.s0 a + ((a &&& b) ^^^ (a &&& c) ^^^ (b &&& c))
    [t1 + t2, a, b, c, d + t1, e, f, g]
  | _ => v

/-- The hash of `blocks` 16-word blocks. -/
def compress {n : Nat} (p : Sha n) (ks : List (BitVec n)) : Nat → List Byte → List (BitVec n) → List (BitVec n)
  | 0, _, h => h
  | blocks + 1, msg, h =>
    let bytes := n / 8
    let w16 := (beWords bytes 16 (msg.take (16 * bytes))).map (BitVec.ofNat n)
    let w := (schedule p (ks.length - 16) w16.reverse).reverse
    let v := (ks.zip w).foldl (round p) h
    compress p ks blocks (msg.drop (16 * bytes)) (List.zipWith (· + ·) h v)

/-- SHA-256. -/
def sha256 (msg : List Byte) : List Byte :=
  let m := pad 64 8 msg
  let p : Sha 32 := { s0 := (2, 13, 22), s1 := (6, 11, 25), t0 := (7, 18, 3), t1 := (17, 19, 10) }
  (compress p k256_ (m.length / 64) m h256).flatMap (fun w => beBytes 4 w.toNat)

/-- SHA-384. -/
def sha384 (msg : List Byte) : List Byte :=
  let m := pad 128 16 msg
  let p : Sha 64 := { s0 := (28, 34, 39), s1 := (14, 18, 41), t0 := (1, 8, 7), t1 := (19, 61, 6) }
  ((compress p k384_ (m.length / 128) m h384).take 6).flatMap (fun w => beBytes 8 w.toNat)

/-- HMAC-SHA-256 with a key of at most 64 bytes. -/
def hmac (key msg : List Byte) : List Byte :=
  let k := fit 64 key
  sha256 (k.map (· ^^^ 0x5C) ++ sha256 (k.map (· ^^^ 0x36) ++ msg))

/-! ### ChaCha20 (R226) -/

/-- The quarter round of RFC 8439 on words a, b, c, d. -/
def quarter (a b c d : BitVec 32) : BitVec 32 × BitVec 32 × BitVec 32 × BitVec 32 :=
  let a := a + b
  let d := (d ^^^ a).rotateLeft 16
  let c := c + d
  let b := (b ^^^ c).rotateLeft 12
  let a := a + b
  let d := (d ^^^ a).rotateLeft 8
  let c := c + d
  let b := (b ^^^ c).rotateLeft 7
  (a, b, c, d)

/-- The quarter round at four positions of the state. -/
def quarterAt (s : List (BitVec 32)) (i j k l : Nat) : List (BitVec 32) :=
  let r := quarter (nth 0 s i) (nth 0 s j) (nth 0 s k) (nth 0 s l)
  (((s.set i r.1).set j r.2.1).set k r.2.2.1).set l r.2.2.2

/-- A column round and a diagonal round. -/
def doubleRound (s : List (BitVec 32)) : List (BitVec 32) :=
  let s := quarterAt (quarterAt (quarterAt (quarterAt s 0 4 8 12) 1 5 9 13) 2 6 10 14) 3 7 11 15
  quarterAt (quarterAt (quarterAt (quarterAt s 0 5 10 15) 1 6 11 12) 2 7 8 13) 3 4 9 14

/-- The 64-byte block of a 16-word input state: 20 rounds, the input added, serialised little-endian. -/
def chachaBlock (s : List (BitVec 32)) : List Byte :=
  let r := (List.range 10).foldl (fun t _ => doubleRound t) s
  (List.zipWith (· + ·) s r).flatMap (fun w => leBytes 4 w.toNat)

/-! ### AES-256 and GCM (R300, R308, R359) -/

/-- The AES substitution box, entries 0 to 63. -/
def sbox0 : List Byte :=
  [0x63, 0x7C, 0x77, 0x7B, 0xF2, 0x6B, 0x6F, 0xC5, 0x30, 0x1, 0x67, 0x2B, 0xFE, 0xD7, 0xAB, 0x76,
   0xCA, 0x82, 0xC9, 0x7D, 0xFA, 0x59, 0x47, 0xF0, 0xAD, 0xD4, 0xA2, 0xAF, 0x9C, 0xA4, 0x72, 0xC0,
   0xB7, 0xFD, 0x93, 0x26, 0x36, 0x3F, 0xF7, 0xCC, 0x34, 0xA5, 0xE5, 0xF1, 0x71, 0xD8, 0x31, 0x15,
   0x4, 0xC7, 0x23, 0xC3, 0x18, 0x96, 0x5, 0x9A, 0x7, 0x12, 0x80, 0xE2, 0xEB, 0x27, 0xB2, 0x75]

/-- The AES substitution box, entries 64 to 127. -/
def sbox1 : List Byte :=
  [0x9, 0x83, 0x2C, 0x1A, 0x1B, 0x6E, 0x5A, 0xA0, 0x52, 0x3B, 0xD6, 0xB3, 0x29, 0xE3, 0x2F, 0x84,
   0x53, 0xD1, 0x0, 0xED, 0x20, 0xFC, 0xB1, 0x5B, 0x6A, 0xCB, 0xBE, 0x39, 0x4A, 0x4C, 0x58, 0xCF,
   0xD0, 0xEF, 0xAA, 0xFB, 0x43, 0x4D, 0x33, 0x85, 0x45, 0xF9, 0x2, 0x7F, 0x50, 0x3C, 0x9F, 0xA8,
   0x51, 0xA3, 0x40, 0x8F, 0x92, 0x9D, 0x38, 0xF5, 0xBC, 0xB6, 0xDA, 0x21, 0x10, 0xFF, 0xF3, 0xD2]

/-- The AES substitution box, entries 128 to 191. -/
def sbox2 : List Byte :=
  [0xCD, 0xC, 0x13, 0xEC, 0x5F, 0x97, 0x44, 0x17, 0xC4, 0xA7, 0x7E, 0x3D, 0x64, 0x5D, 0x19, 0x73,
   0x60, 0x81, 0x4F, 0xDC, 0x22, 0x2A, 0x90, 0x88, 0x46, 0xEE, 0xB8, 0x14, 0xDE, 0x5E, 0xB, 0xDB,
   0xE0, 0x32, 0x3A, 0xA, 0x49, 0x6, 0x24, 0x5C, 0xC2, 0xD3, 0xAC, 0x62, 0x91, 0x95, 0xE4, 0x79,
   0xE7, 0xC8, 0x37, 0x6D, 0x8D, 0xD5, 0x4E, 0xA9, 0x6C, 0x56, 0xF4, 0xEA, 0x65, 0x7A, 0xAE, 0x8]

/-- The AES substitution box, entries 192 to 255. -/
def sbox3 : List Byte :=
  [0xBA, 0x78, 0x25, 0x2E, 0x1C, 0xA6, 0xB4, 0xC6, 0xE8, 0xDD, 0x74, 0x1F, 0x4B, 0xBD, 0x8B, 0x8A,
   0x70, 0x3E, 0xB5, 0x66, 0x48, 0x3, 0xF6, 0xE, 0x61, 0x35, 0x57, 0xB9, 0x86, 0xC1, 0x1D, 0x9E,
   0xE1, 0xF8, 0x98, 0x11, 0x69, 0xD9, 0x8E, 0x94, 0x9B, 0x1E, 0x87, 0xE9, 0xCE, 0x55, 0x28, 0xDF,
   0x8C, 0xA1, 0x89, 0xD, 0xBF, 0xE6, 0x42, 0x68, 0x41, 0x99, 0x2D, 0xF, 0xB0, 0x54, 0xBB, 0x16]

/-- The AES substitution box. -/
def sbox : List Byte := sbox0 ++ sbox1 ++ sbox2 ++ sbox3

/-- Multiplication by x in the AES field. -/
def xtime (b : Byte) : Byte := (b <<< 1) ^^^ (if b.getLsbD 7 then 0x1B else 0)

/-- The substitution of one byte. -/
def sub (b : Byte) : Byte := nth 0 sbox b.toNat

/-- The AES-256 key schedule, newest 4-byte word first, extended to `m` more words; `i` is the next word's index. -/
def expand : Nat → Nat → Byte → List (List Byte) → List (List Byte)
  | 0, _, _, w => w
  | m + 1, i, rcon, w =>
    let prev := nth [] w 0
    let t :=
      if i % 8 = 0 then
        match (prev.drop 1 ++ prev.take 1).map sub with
        | b :: bs => (b ^^^ rcon) :: bs
        | [] => []
      else if i % 8 = 4 then prev.map sub
      else prev
    expand m (i + 1) (if i % 8 = 0 then xtime rcon else rcon) (List.zipWith (· ^^^ ·) (nth [] w 7) t :: w)

/-- Exclusive or of byte strings. -/
def xor (a b : List Byte) : List Byte := List.zipWith (· ^^^ ·) a b

/-- ShiftRows on the 16-byte state in column order. -/
def shiftRows (s : List Byte) : List Byte :=
  (List.range 16).map (fun i => nth 0 s ((i + 4 * (i % 4)) % 16))

/-- MixColumns on one column. -/
def mixColumn : List Byte → List Byte
  | [a, b, c, d] =>
    let t := a ^^^ b ^^^ c ^^^ d
    [a ^^^ t ^^^ xtime (a ^^^ b), b ^^^ t ^^^ xtime (b ^^^ c), c ^^^ t ^^^ xtime (c ^^^ d), d ^^^ t ^^^ xtime (d ^^^ a)]
  | l => l

/-- MixColumns. -/
def mixColumns (s : List Byte) : List Byte :=
  (List.range 4).flatMap (fun i => mixColumn ((s.drop (4 * i)).take 4))

/-- The fifteen 16-byte round keys of a 32-byte key. -/
def roundKeys (key : List Byte) : List (List Byte) :=
  let w := (expand 52 8 1 ((List.range 8).map (fun i => slice key (4 * i) 4)).reverse).reverse
  (List.range 15).map (fun r => ((w.drop (4 * r)).take 4).flatten)

/-- One 16-byte block under AES-256. -/
def aesBlock (keys : List (List Byte)) (b : List Byte) : List Byte :=
  let s := xor b (nth [] keys 0)
  let s := (range 1 13).foldl (fun s r => xor (mixColumns (shiftRows (s.map sub))) (nth [] keys r)) s
  xor (shiftRows (s.map sub)) (nth [] keys 14)

/-- Multiplication in GF(2^128) in GCM's bit order, `n` bits of `x` from the top, accumulated in `z`. -/
def gfMul (x : BitVec 128) : Nat → BitVec 128 → BitVec 128 → BitVec 128
  | 0, _, z => z
  | n + 1, v, z =>
    gfMul x n ((v >>> 1) ^^^ (if v.getLsbD 0 then 0xE1000000000000000000000000000000 else 0))
      (if x.getLsbD n then z ^^^ v else z)

/-- GHASH of a byte string of `n` blocks under `h`. -/
def ghash (h : BitVec 128) : Nat → List Byte → BitVec 128 → BitVec 128
  | 0, _, y => y
  | n + 1, bs, y => ghash h n (bs.drop 16) (gfMul (y ^^^ BitVec.ofNat 128 (beNat (fit 16 (bs.take 16)))) 128 h 0)

/-- A byte string padded with zeros to a multiple of 16. -/
def pad16 (bs : List Byte) : List Byte := fit (16 * ceilDiv bs.length 16) bs

/-- GCM counter mode on `n` blocks from counter value `c` of a 12-byte IV. -/
def ctr (keys : List (List Byte)) (iv : List Byte) : Nat → Nat → List Byte → List Byte
  | 0, _, _ => []
  | n + 1, c, bs => xor (bs.take 16) (aesBlock keys (iv ++ beBytes 4 c)) ++ ctr keys iv n (c + 1) (bs.drop 16)

/-- The 16-byte tag of a ciphertext and its additional data. -/
def gcmTag (keys : List (List Byte)) (iv aad ct : List Byte) : List Byte :=
  let h := BitVec.ofNat 128 (beNat (aesBlock keys (List.replicate 16 0)))
  let m := pad16 aad ++ pad16 ct ++ beBytes 8 (8 * aad.length) ++ beBytes 8 (8 * ct.length)
  xor (beBytes 16 (ghash h (m.length / 16) m 0).toNat) (aesBlock keys (iv ++ beBytes 4 1))

/-- AES-256-GCM encryption under a 32-byte key and a 12-byte IV: the ciphertext, then its tag. -/
def gcmSeal (key iv aad pt : List Byte) : List Byte :=
  let keys := roundKeys key
  let ct := ctr keys iv (ceilDiv pt.length 16) 2 pt
  ct ++ gcmTag keys iv aad ct

/-- AES-256-GCM decryption of a ciphertext with its tag: the plaintext, if the tag verifies. -/
def gcmOpen (key iv aad sealed : List Byte) : Option (List Byte) :=
  if sealed.length < 16 then none
  else
    let keys := roundKeys key
    let ct := sealed.take (sealed.length - 16)
    if gcmTag keys iv aad ct = sealed.drop (sealed.length - 16) then
      some (ctr keys iv (ceilDiv ct.length 16) 2 ct)
    else none

/-! ### ECDSA on P-384 (R397, FIPS 186-5) -/

/-- The field prime of P-384. -/
def p384 : Nat := 2 ^ 384 - 2 ^ 128 - 2 ^ 96 + 2 ^ 32 - 1

/-- The order of the base point. -/
def n384 : Nat :=
  0xFFFFFFFFFFFFFFFFFFFFFFFFFFFFFFFFFFFFFFFFFFFFFFFFC7634D81F4372DDF581A0DB248B0A77AECEC196ACCC52973

/-- The coefficient b of the curve. -/
def b384 : Nat :=
  0xB3312FA7E23EE7E4988E056BE3F82D19181D9C6EFE8141120314088F5013875AC656398D8A2ED19D2A85C8EDD3EC2AEF

/-- The base point. -/
def g384 : Nat × Nat :=
  (0xAA87CA22BE8B05378EB1C71EF320AD746E1D3B628BA79B9859F741E082542A385502F25DBF55296C3A545E3872760AB7,
   0x3617DE4A96262C6F5D9E98BF9292DC29F8F41DBD289A147CE9DA3113B5F0B8C00A60B1CE1D7E819D7A431D7C90EA0E5F)

/-- `b ^ e mod m`, `fuel` bits of `e`. -/
def powMod (m : Nat) : Nat → Nat → Nat → Nat → Nat
  | 0, _, _, r => r
  | fuel + 1, b, e, r => powMod m fuel (b * b % m) (e / 2) (if e % 2 = 1 then r * b % m else r)

/-- The inverse modulo a prime. -/
def invMod (m x : Nat) : Nat := powMod m 384 (x % m) (m - 2) 1

/-- Addition of points; none is the point at infinity. -/
def ecAdd (a b : Option (Nat × Nat)) : Option (Nat × Nat) :=
  match a, b with
  | none, q => q
  | q, none => q
  | some (x1, y1), some (x2, y2) =>
    if x1 = x2 ∧ (y1 + y2) % p384 = 0 then none
    else
      let l :=
        if x1 = x2 then (3 * x1 * x1 + 3 * (p384 - 1)) * invMod p384 (2 * y1) % p384
        else (y2 + p384 - y1) * invMod p384 (x2 + p384 - x1) % p384
      let x := (l * l + 2 * p384 - x1 - x2) % p384
      some (x, (l * (x1 + p384 - x) + p384 - y1) % p384)

/-- `k` times a point, `fuel` bits of `k`. -/
def ecMul : Nat → Nat → Option (Nat × Nat) → Option (Nat × Nat) → Option (Nat × Nat)
  | 0, _, _, r => r
  | fuel + 1, k, p, r => ecMul fuel (k / 2) (ecAdd p p) (if k % 2 = 1 then ecAdd r p else r)

/-- ECDSA P-384 verification with SHA-384: key X then Y and signature r then s, 48 bytes each, big-endian (R396). -/
def ecdsaVerify (key msg sig : List Byte) : Bool :=
  let x := beNat (slice key 0 48)
  let y := beNat (slice key 48 48)
  let r := beNat (slice sig 0 48)
  let s := beNat (slice sig 48 48)
  let onCurve := decide (x < p384) && decide (y < p384) &&
    decide ((y * y + 3 * x) % p384 = (x * x * x + b384) % p384)
  let inRange := decide (0 < r) && decide (r < n384) && decide (0 < s) && decide (s < n384)
  let w := invMod n384 s
  let z := beNat (sha384 msg)
  match ecAdd (ecMul 384 (z * w % n384) (some g384) none) (ecMul 384 (r * w % n384) (some (x, y)) none) with
  | none => false
  | some (px, _) => onCurve && inRange && decide (px % n384 = r)

end Crypto
end Sys2Proof.Machine
end

