-- ==== Sys2Proof/Machine/Fuses.lean ====
section
/-! DEFINITION. OTP records, life cycle and the source map (R385, R399 to R402). -/
namespace Sys2Proof.Machine

/-! ### OTP records (R399) -/

/-- A generation of a record. -/
def otpGen (s : State) (r g : Nat) : OtpGen := Assoc.get (fun _ => OtpGen.blank) s.boot.otp (4 * r + g)

/-- A generation replaced. -/
def setOtpGen (s : State) (r g : Nat) (x : OtpGen) : State :=
  { s with boot := { s.boot with otp := Assoc.set (fun _ => OtpGen.blank) s.boot.otp (4 * r + g) x } }

/-- Blown bits of a marker. -/
def blown (m : BitVec 8) : Nat := ((List.range 8).filter (bit m)).length

/-- A marker with at least 5 of its 8 bits blown. -/
def OtpGen.marked (x : OtpGen) : Bool := decide (5 ≤ blown x.marker)

/-- A generation whose bits are all unblown. -/
def OtpGen.isBlank (x : OtpGen) : Bool := x.data == 0 && x.marker == 0

/-- The marked generations of a record, highest first. -/
def markedGens (s : State) (r : Nat) : List Nat := [3, 2, 1, 0].filter (fun g => (otpGen s r g).marked)

/-- The generation that a read takes: the highest marked one without an uncorrectable word. -/
def readGen (s : State) (r : Nat) : Option Nat := (markedGens s r).find? (fun g => !(otpGen s r g).bad)

/-- The record is written: some generation qualifies. -/
def otpFused (s : State) (r : Nat) : Bool := (readGen s r).isSome

/-- What a read of a record gives; zero where no generation qualifies. -/
def otpRead (s : State) (r : Nat) : BitVec 256 :=
  match readGen s r with
  | some g => (otpGen s r g).data
  | none => 0

/-- OTP_STATE of a record (R404). -/
def otpState (s : State) (r : Nat) : Nat :=
  (match readGen s r with
   | some g => g + 8 * ofBool (otpGen s r g).fixed + 16 * ofBool ((markedGens s r).head? != some g)
   | none => 7 + 16 * ofBool (markedGens s r != [])) + 32 * ofBool (s.boot.exhausted.contains r)

/-- The lowest generation that a write may program. -/
def blankGen (s : State) (r : Nat) : Option Nat := [0, 1, 2, 3].find? (fun g => (otpGen s r g).isBlank)

/-- EXHAUSTED set for a record (R399). -/
def setExhausted (s : State) (r : Nat) : State :=
  if s.boot.exhausted.contains r then s
  else { s with boot := { s.boot with exhausted := s.boot.exhausted ++ [r] } }

/-- A write of a record begins: two pulses, the data and check bits and then the marker (log 40). `then_` is a record that
follows it. -/
def otpBegin (s : State) (r : Nat) (d : BitVec 256) (then_ : Option Nat) : Option State :=
  match blankGen s r with
  | some g =>
    let w : OtpWrite := { record := r, gen := g, data := d, pulses := 2, then_ := then_ }
    some { s with boot := { s.boot with writing := some w } }
  | none => none

/-- No OTP write starts while PWR_GOOD is low or an episode of L2 or wider is in progress (R389), nor beside another. -/
def otpBusy (s : State) : Bool :=
  !s.pins.pwrGood || s.boot.writing.isSome || s.episodes.any (fun e => decide (e.level ≤ 2))

/-! ### Life cycle (R401, R402) -/

/-- The intent and state records of a transition. -/
def intentRec (t : Nat) : Nat := 0x10 + (t - 1)
def stateRec (t : Nat) : Nat := 0x18 + (t - 1)

/-- What a life-cycle record holds beside its marker: not stated (log 8). -/
def lcData (r : Nat) : BitVec 256 := BitVec.ofNat 256 (Config.fused (16 + r))

/-- A record has a marked generation. -/
def otpMarked (s : State) (r : Nat) : Bool := markedGens s r != []

/-- A marked intent record whose state record is not marked. -/
def lcPending (s : State) (t : Nat) : Bool := otpMarked s (intentRec t) && !otpMarked s (stateRec t)

/-- The transition is reached: its state record is marked, or no blank generation is left for it (R401). -/
def lcReached (s : State) (t : Nat) : Bool :=
  otpMarked s (stateRec t) || (od s 0x1200 0x07 == 1 && lcPending s t && (blankGen s (stateRec t)).isNone)

/-- The life-cycle state: 0 BLANK, 1 MANUFACTURE, 2 PROVISIONED, 3 DEPLOYED, 4 RETIRED. -/
def lcState (s : State) : Nat := ([4, 3, 2, 1].find? (lcReached s)).getD 0

/-- The event codes of the chapter (R384, R397, R401), and the one that a reserved CLK_MODE logs (R26; log 15). -/
def evFreed : Nat := 0x0C01
def evKeyWaived : Nat := 0x0C02
def evRolled : Nat := 0x0C03
def evLcFault : Nat := 0x0C04
def evClkMode : Nat := 0x0C05

/-- Both pulses of a write at once: the generation holds its data and its marker. -/
def otpBlow (s : State) (r g : Nat) (d : BitVec 256) : State :=
  setOtpGen s r g { data := d, marker := 0xFF, bad := false, fixed := false }

/-- LC_ROLL_FORWARD: a marked intent record without its state record is completed; with no blank generation left LC_FAULT is
set and EV-0x0C04 is logged (R401). After a fault of VDD_AON no write starts (R330). -/
def rollForward (s : State) : State :=
  if s.power.aonFault then s else
  [1, 2, 3, 4].foldl (fun s t =>
    if lcPending s t then
      match blankGen s (stateRec t) with
      | some g => logEvent (otpBlow s (stateRec t) g (lcData (stateRec t))) evRolled 0 0 2 none t
      | none => logEvent (odSet (setExhausted s (stateRec t)) 0x1200 0x07 0 1) evLcFault 0 0 2 none t
    else s) s

/-- Records that the table of R399 lets OTP_WRITE write, by life-cycle state. -/
def otpWritable (r lc : Nat) : Bool :=
  if r ≤ 0x01 ∨ (0x09 ≤ r ∧ r ≤ 0x0C) then decide (lc ≤ 1)
  else if r = 0x02 ∨ r = 0x03 ∨ r = 0x04 ∨ r = 0x05 ∨ r = 0x06 ∨ r = 0x0D ∨ r = 0x0E then decide (lc ≤ 2)
  else if r = 0x07 ∨ r = 0x08 then decide (lc ≤ 3)
  else false

/-- A record that OTP_WRITE can name at all. -/
def otpNamed (r : Nat) : Bool := otpWritable r 0

/-- SVN_MIN (R399). -/
def svnMin (s : State) : Nat := (otpRead s 0x08).toNat % 64

/-- The 48-byte hash of firmware key `i`: its record and the pair record (R399). -/
def fwKeyHash (s : State) (i : Nat) : List Byte :=
  leBytes 32 (otpRead s (0x05 + i)).toNat ++ leBytes 16 (otpRead s (0x0D + i)).toNat

/-- Firmware key `i` is fused, and revoked. -/
def fwKeyFused (s : State) (i : Nat) : Bool := otpFused s (0x05 + i) && otpFused s (0x0D + i)
def fwKeyRevoked (s : State) (i : Nat) : Bool := bit (otpRead s 0x07) i

/-! ### Reset sources (R385) -/

/-- The code of an ignored source. -/
def srcIgnore : Nat := 0xFF

/-- The default level of a source and the values that may be fused. Source 8 has neither. -/
def srcDefault (i : Nat) : Nat := nth srcIgnore [0, 0, 1, 2, 3, 4, 1, 2, srcIgnore, 2, srcIgnore] i
def srcAllowed (i : Nat) : List Nat :=
  nth [] [[0], [0], [1], [1, 2], [2, 3, srcIgnore], [2, 4, srcIgnore], [1], [2, srcIgnore], [], [1, 2, srcIgnore],
          [5, srcIgnore]] i

/-- The source map's byte of a source, a value outside the permitted column read as the default. -/
def srcMap (s : State) (i : Nat) : Nat :=
  let v := nbits s.boot.map.toNat (8 * i + 7) (8 * i)
  if (srcAllowed i).contains v then v else srcDefault i

end Sys2Proof.Machine
end

