-- ==== Sys2Proof/Machine/Numeric.lean ====
section
/-! DEFINITION. Exact values, number formats (R67, R68, R78, R103) and the one rounding that every conversion makes: to
nearest, ties to even (R83, R89, R91, R116). -/
namespace Sys2Proof.Machine

/-- An exact value: NaN, an infinity, or ±m × 2^e. -/
inductive Val where
  | nan
  | inf (neg : Bool)
  | fin (neg : Bool) (m : Nat) (e : Int)
  deriving DecidableEq, Repr, Inhabited

/-- The formats of the matrix unit and the vector chain. -/
inductive Fmt where
  | fp32 | bf16 | fp16 | e4m3 | e5m2 | int32 | int16 | int8 | raw
  | mxE4m3 | mxE5m2 | mxE2m3 | mxE3m2 | mxFp4 | mxInt8
  deriving DecidableEq, Repr, Inhabited

/-- A floating-point encoding: exponent bits, fraction bits, bias, and its specials: 0 none, 1 as IEEE 754, 2 the one
NaN of E4M3 (R68). -/
structure FloatEnc where
  eb   : Nat
  mb   : Nat
  bias : Nat
  kind : Nat
  deriving DecidableEq, Repr, Inhabited

/-- The element encoding of a floating-point format (R68). -/
def Fmt.enc : Fmt → FloatEnc
  | .fp32 => ⟨8, 23, 127, 1⟩
  | .bf16 => ⟨8, 7, 127, 1⟩
  | .fp16 => ⟨5, 10, 15, 1⟩
  | .e4m3 => ⟨4, 3, 7, 2⟩
  | .mxE4m3 => ⟨4, 3, 7, 2⟩
  | .e5m2 => ⟨5, 2, 15, 1⟩
  | .mxE5m2 => ⟨5, 2, 15, 1⟩
  | .mxE2m3 => ⟨2, 3, 1, 0⟩
  | .mxE3m2 => ⟨3, 2, 3, 0⟩
  | .mxFp4 => ⟨2, 1, 1, 0⟩
  | _ => ⟨8, 23, 127, 1⟩

/-- Bits of an element (R72, R103). -/
def Fmt.width : Fmt → Nat
  | .fp32 => 32 | .int32 => 32 | .bf16 => 16 | .fp16 => 16 | .int16 => 16 | .raw => 128
  | .e4m3 => 8 | .e5m2 => 8 | .int8 => 8 | .mxE4m3 => 8 | .mxE5m2 => 8 | .mxInt8 => 8
  | .mxE2m3 => 6 | .mxE3m2 => 6 | .mxFp4 => 4

/-- An MX format: blocks of 32 elements under one scale (R67). -/
def Fmt.isMx : Fmt → Bool
  | .mxE4m3 | .mxE5m2 | .mxE2m3 | .mxE3m2 | .mxFp4 | .mxInt8 => true
  | _ => false

/-- An integer format. -/
def Fmt.isInt : Fmt → Bool
  | .int32 | .int16 | .int8 => true
  | _ => false

/-- A plain floating-point format. -/
def Fmt.isFloat : Fmt → Bool
  | .fp32 | .bf16 | .fp16 | .e4m3 | .e5m2 => true
  | _ => false

/-- The bits of an element of a floating-point encoding as an exact value (R68). -/
def FloatEnc.decode (f : FloatEnc) (x : Nat) : Val :=
  let neg := x.testBit (f.eb + f.mb)
  let ex := nbits x (f.eb + f.mb - 1) f.mb
  let man := x % 2 ^ f.mb
  if f.kind = 1 ∧ ex = 2 ^ f.eb - 1 then (if man = 0 then .inf neg else .nan)
  else if f.kind = 2 ∧ ex = 2 ^ f.eb - 1 ∧ man = 2 ^ f.mb - 1 then .nan
  else if ex = 0 then .fin neg man (1 - (f.bias : Int) - f.mb)
  else .fin neg (2 ^ f.mb + man) ((ex : Int) - f.bias - f.mb)

/-- An integer as an exact value. -/
def Val.ofInt (x : Int) : Val := .fin (decide (x < 0)) x.natAbs 0

/-- A value times 2^k. -/
def Val.scale (v : Val) (k : Int) : Val :=
  match v with
  | .fin n m e => .fin n m (e + k)
  | v => v

/-- An element's bits as an exact value, its block's scale apart. RAW is not an element format here. -/
def Fmt.decode (f : Fmt) (x : Nat) : Val :=
  match f with
  | .int32 => .ofInt (signed 32 x)
  | .int16 => .ofInt (signed 16 x)
  | .int8 => .ofInt (signed 8 x)
  | .mxInt8 => (Val.ofInt (signed 8 x)).scale (-6)
  | f => f.enc.decode x

/-- `m / 2^k` to the nearest integer, ties to even. -/
def roundShift (m k : Nat) : Nat :=
  if k = 0 then m
  else
    let q := m >>> k
    let r := m % 2 ^ k
    let h := 2 ^ (k - 1)
    if h < r ∨ (r = h ∧ q % 2 = 1) then q + 1 else q

/-- `m × 2^e` to the nearest multiple of 2^u, ties to even, as that multiple; and whether it is exact. -/
def roundTo (m : Nat) (e u : Int) : Nat × Bool :=
  if u ≤ e then (m <<< (e - u).toNat, true)
  else
    let k := (u - e).toNat
    (roundShift m k, m % 2 ^ k = 0)

/-- `m × 2^e` as an integer, toward zero; and whether it is exact. -/
def truncTo (m : Nat) (e : Int) : Nat × Bool :=
  if 0 ≤ e then (m <<< e.toNat, true) else (m >>> (-e).toNat, m % 2 ^ (-e).toNat = 0)

/-- The signed integer of a sign and a magnitude. -/
def signInt (neg : Bool) (m : Nat) : Int := if neg then -(m : Int) else m

/-- floor(log2 (m × 2^e)) of a non-zero value. -/
def valExp (m : Nat) (e : Int) : Int := (Nat.log2 m : Int) + e

/-- What an encoding gives: the bits, whether it rounded, whether it overflowed the format. -/
structure Enc where
  code : Nat
  inex : Bool
  ovf  : Bool
  deriving DecidableEq, Repr, Inhabited

/-- The largest finite code of an encoding, without its sign (R68). -/
def FloatEnc.maxFinite (f : FloatEnc) : Nat :=
  match f.kind with
  | 1 => (2 ^ f.eb - 1) * 2 ^ f.mb - 1
  | 2 => 2 ^ (f.eb + f.mb) - 2
  | _ => 2 ^ (f.eb + f.mb) - 1

/-- The canonical NaN of a format (R90). -/
def Fmt.nanCode : Fmt → Nat
  | .fp32 => 0x7FC00000
  | .bf16 => 0x7FC0
  | .fp16 => 0x7E00
  | .e4m3 => 0x7F
  | .e5m2 => 0x7E
  | _ => 0

/-- The sign bit of an encoding in its place. -/
def FloatEnc.signBit (f : FloatEnc) (neg : Bool) : Nat := ofBool neg * 2 ^ (f.eb + f.mb)

/-- The magnitude of ±m × 2^e rounded once into an encoding, before any limit: its code, and whether it is exact. -/
def FloatEnc.magnitude (f : FloatEnc) (m : Nat) (e : Int) : Nat × Bool :=
  if m = 0 then (0, true)
  else
    let emin : Int := 1 - f.bias
    let E := max (valExp m e) emin
    let q := roundTo m e (E - f.mb)
    ((E - emin).toNat * 2 ^ f.mb + q.1, q.2)

/-- An infinity or an overflow of a plain format: ±Inf, and for E4M3 ±448 or, with E4NAN, NaN (R89, R116). -/
def Fmt.overflowCode (f : Fmt) (neg e4nan : Bool) : Nat :=
  if f.enc.kind = 2 then (if e4nan then f.nanCode else f.enc.signBit neg + f.enc.maxFinite)
  else f.enc.signBit neg + f.enc.maxFinite + 1

/-- ±m × 2^e rounded once into a plain floating-point format (R89, R116). -/
def Fmt.encodeFin (f : Fmt) (e4nan neg : Bool) (m : Nat) (e : Int) : Enc :=
  let (c, exact) := f.enc.magnitude m e
  if f.enc.maxFinite < c then { code := f.overflowCode neg e4nan, inex := true, ovf := true }
  else { code := f.enc.signBit neg + c, inex := !exact, ovf := false }

/-- A value in a plain floating-point format (R89, R90). The infinity rule of E4M3 is an overflow. -/
def Fmt.encode (f : Fmt) (e4nan : Bool) (v : Val) : Enc :=
  match v with
  | .nan => { code := f.nanCode, inex := false, ovf := false }
  | .inf n => { code := f.overflowCode n e4nan, inex := false, ovf := f.enc.kind == 2 }
  | .fin n m e => f.encodeFin e4nan n m e

/-- −v. -/
def Val.neg : Val → Val
  | .nan => .nan
  | .inf n => .inf (!n)
  | .fin n m e => .fin (!n) m e

/-- |v|. -/
def Val.abs : Val → Val
  | .nan => .nan
  | .inf _ => .inf false
  | .fin _ m e => .fin false m e

/-- v is NaN. -/
def Val.isNan : Val → Bool
  | .nan => true
  | _ => false

/-- v is zero. -/
def Val.isZero : Val → Bool
  | .fin _ m _ => m == 0
  | _ => false

/-- The exact product (R69), and whether it is infinity times zero. -/
def Val.mul (a b : Val) : Val × Bool :=
  match a, b with
  | .nan, _ => (.nan, false)
  | _, .nan => (.nan, false)
  | .inf n, .inf n' => (.inf (n != n'), false)
  | .inf n, .fin n' m _ => if m = 0 then (.nan, true) else (.inf (n != n'), false)
  | .fin n m _, .inf n' => if m = 0 then (.nan, true) else (.inf (n != n'), false)
  | .fin n m e, .fin n' m' e' => (.fin (n != n') (m * m') (e + e'), false)

/-- The exact sum, and whether it is Inf − Inf (R116). An exact zero sum of opposite signs is +0. -/
def Val.add (a b : Val) : Val × Bool :=
  match a, b with
  | .nan, _ => (.nan, false)
  | _, .nan => (.nan, false)
  | .inf n, .inf n' => if n = n' then (.inf n, false) else (.nan, true)
  | .inf n, _ => (.inf n, false)
  | _, .inf n => (.inf n, false)
  | .fin n m e, .fin n' m' e' =>
    let u := min e e'
    let x := signInt n (m <<< (e - u).toNat) + signInt n' (m' <<< (e' - u).toNat)
    if x = 0 then (.fin (n && n') 0 u, false) else (.fin (decide (x < 0)) x.natAbs u, false)

/-- a < b of finite or infinite values; −0 and +0 are equal. -/
def Val.lt (a b : Val) : Bool :=
  match a, b with
  | .nan, _ => false
  | _, .nan => false
  | .inf n, .inf n' => n && !n'
  | .inf n, _ => n
  | _, .inf n => !n
  | .fin n m e, .fin n' m' e' =>
    let u := min e e'
    decide (signInt n (m <<< (e - u).toNat) < signInt n' (m' <<< (e' - u).toNat))

/-- a = b, NaN equal to nothing; −0 = +0. -/
def Val.eq (a b : Val) : Bool :=
  match a, b with
  | .nan, _ => false
  | _, .nan => false
  | _, _ => !a.lt b && !b.lt a

/-- The sign of a value. -/
def Val.sign : Val → Bool
  | .nan => false
  | .inf n => n
  | .fin n _ _ => n

/-- Order for minimum and maximum: as `lt`, with −0 below +0 (R116). -/
def Val.below (a b : Val) : Bool := a.lt b || (a.eq b && a.sign && !b.sign)

/-- A quotient of naturals with enough bits below it and a last bit that stands for a remainder, so that rounding it is
rounding the quotient: the number, and the power of 2 it is scaled by. -/
def quotient (a b : Nat) : Nat × Int :=
  let k := Nat.log2 b + 200
  let n := a <<< k
  (2 * (n / b) + (if n % b = 0 then 0 else 1), -(k : Int) - 1)

/-- The widest useful exponent of an MX element format (R91). -/
def Fmt.emax : Fmt → Int
  | .mxE3m2 => 4
  | .mxE4m3 => 8
  | .mxE5m2 => 15
  | .mxInt8 => 0
  | _ => 2

/-- One MX element, v / 2^X rounded and saturated to the largest finite magnitude (R91): its code, and whether it
differs from its exact value. -/
def Fmt.mxElem (f : Fmt) (X : Int) (v : Val) : Nat × Bool :=
  match v with
  | .fin n m e =>
    match f with
    | .mxInt8 =>
      let q := roundTo m (e - X + 6) 0
      if n then (if 128 < q.1 then (0x80, false) else (toCode 8 (-(q.1 : Int)), q.2))
      else (if 127 < q.1 then (0x7F, false) else (q.1, q.2))
    | f =>
      let (c, exact) := f.enc.magnitude m (e - X)
      let top := match f with
        | .mxE5m2 => 0x7B
        | .mxE4m3 => 0x7E
        | f => f.enc.maxFinite
      if top < c then (f.enc.signBit n + top, false) else (f.enc.signBit n + c, exact)
  | _ => (0, true)

/-- What converting one MX block gives (R91): the scale byte, the codes, whether a live element was NaN or infinite,
whether the scale was clamped, whether an element rounded. -/
structure MxBlock where
  scale : Nat
  codes : List Nat
  bad   : Bool
  clamp : Bool
  inex  : Bool
  deriving DecidableEq, Repr, Inhabited

/-- The largest exponent of a block's elements; none when all are zero. -/
def blockExp : List Val → Option Int
  | [] => none
  | .fin _ m e :: vs =>
    if m = 0 then blockExp vs
    else match blockExp vs with
      | some x => some (max x (valExp m e))
      | none => some (valExp m e)
  | _ :: vs => blockExp vs

/-- One block of live values in an MX format (R91). -/
def Fmt.mxBlock (f : Fmt) (vs : List Val) : MxBlock :=
  if vs.any (fun v => match v with | .fin _ _ _ => false | _ => true) then
    { scale := 0xFF, codes := vs.map (fun _ => 0), bad := true, clamp := false, inex := false }
  else
    let X0 : Int := match blockExp vs with
      | none => -127
      | some x => x - f.emax
    let X := clampInt X0 (-127) 127
    let es := vs.map (f.mxElem X)
    { scale := (X + 127).toNat, codes := es.map (·.1), bad := false, clamp := decide (X ≠ X0),
      inex := es.any (fun e => !e.2) }

/-- Element codes packed from bit 0 (R72), as a number. -/
def packCodes (w : Nat) : List Nat → Nat
  | [] => 0
  | c :: cs => c % 2 ^ w + 2 ^ w * packCodes w cs

/-- Element `i` of width `w` of a packed number (R72). -/
def packedAt (x w i : Nat) : Nat := nbits x (w * i + w - 1) (w * i)

end Sys2Proof.Machine
end

