-- ==== Sys2Proof/Machine/Operands.lean ====
section
/-! DEFINITION. Instruction fields and operand forms: the common fields (R50, R52), the predicate select (R42), the tag
transform (R44), the route entry (R163), the matrix (R74 to R78), vector (R100 to R106) and stream (R134, R140) layouts. -/
namespace Sys2Proof.Machine

/-! ### Common fields (R50, R52) -/

def opcode (i : InsnWord) : Nat := bits i 127 120
def insnCp (i : InsnWord) : Bool := bit i 118
def fD (i : InsnWord) : Nat := bits i 95 91
def fA (i : InsnWord) : Nat := bits i 90 86
def fB (i : InsnWord) : Nat := bits i 85 81
def fPort (i : InsnWord) : Nat := bits i 80 79
def fIm (i : InsnWord) : Bool := bit i 78
def fSinkf (i : InsnWord) : Bool := bit i 77
def fSub (i : InsnWord) : Nat := bits i 76 72
def fRoute (i : InsnWord) : Nat := bits i 71 64
def fImm (i : InsnWord) : Nat := bits i 63 0

/-! ### Registers and operands of a firing (R39, R55) -/

/-- A fold of a cell's store. -/
def Cell.fold (x : Cell) (f : Nat) : Fold := Assoc.get (fun _ => Fold.init) x.folds f

/-- A fold changed by a function. -/
def Cell.updFold (x : Cell) (f : Nat) (g : Fold → Fold) : Cell :=
  { x with folds := Assoc.set (fun _ => Fold.init) x.folds f (g (x.fold f)) }

/-- Scalar S`n` of a fold; S0 reads as 0 (R55). -/
def Fold.reg (x : Fold) (n : Nat) : Word := if n = 0 then 0 else Assoc.get (fun _ => 0) x.regs n

/-- A scalar written; a write to S0 is discarded (R55). -/
def Fold.setReg (x : Fold) (n : Nat) (v : Word) : Fold :=
  if n = 0 then x else { x with regs := Assoc.set (fun _ => 0) x.regs n v }

/-- Predicate register PR`n`. -/
def Fold.pred (x : Fold) (n : Nat) : Bool := bit x.preds n

/-- A predicate register written. -/
def Fold.setPred (x : Fold) (n : Nat) (b : Bool) : Fold :=
  { x with preds := if b then x.preds ||| BitVec.ofNat 8 (2 ^ n) else x.preds &&& ~~~(BitVec.ofNat 8 (2 ^ n)) }

/-- The operand on a port of a slot's firing, if its mask has the port (R39). A port outside the mask, which no check of R177 refuses
in an EMIT, a SELECT or an OPLD, holds no operand (log 100). -/
def operand (x : Cell) (slot : Option Nat) (port : Nat) : Option Token :=
  match slot.bind x.slots.find? with
  | some s => nth none s.ops port
  | none => none

/-- The predicate of an instruction: its source, inverted by bit [117] (R42). -/
def predicate (x : Cell) (fold : Nat) (slot : Option Nat) (i : InsnWord) : Bool :=
  let src := bits i 116 112
  let v :=
    if src = 0 then true
    else if src ≤ 4 then (match operand x slot (src - 1) with | some t => t.pred | none => false)
    else if src ≤ 8 then (match operand x slot (src - 5) with | some t => t.last | none => false)
    else (x.fold fold).pred (src - 16)
  v != bit i 117

/-- The tag that EMIT, SELECT and FLOW give (R44). -/
def tagx (x : Cell) (fold : Nat) (tag : BitVec 16) (i : InsnWord) : BitVec 16 :=
  let imm := bits i 109 96
  match bits i 111 110 with
  | 0 => tag
  | 1 => tag + BitVec.ofInt 16 (signed 14 imm)
  | 2 => BitVec.ofNat 16 ((x.fold fold).reg (imm % 32)).toNat
  | _ => BitVec.ofNat 16 imm

/-- The scalars an instruction reads, for the stall of R54: by opcode, with its address and count scalars. -/
def readsRegs (i : InsnWord) : List Nat :=
  let tag := if (opcode i = 0x02 ∨ opcode i = 0x03 ∨ opcode i = 0x42) ∧ bits i 111 110 = 2 then [bits i 109 96 % 32] else []
  let own := match opcode i with
    | 0x02 => fB i :: (if fSub i = 2 then range (fA i) (ceilDiv (min 64 (fImm i % 128)) 8) else [])
    | 0x05 => fA i :: (if fIm i then [] else [fB i])
    | 0x06 => fA i :: (if fIm i then [] else [fB i])
    | 0x0A => [fA i]
    | 0x0B => [fA i, fB i]
    | 0x0C => [fA i, fB i]
    | 0x20 => if fIm i then [] else [fB i]
    | 0x21 => if fIm i then [] else [fB i]
    | 0x22 => if fIm i then [] else [fB i]
    | 0x24 => [fB i]
    | 0x25 => if fIm i then [] else [fB i]
    | 0x40 => [bits i 95 91, bits i 85 81]
    | 0x41 => [bits i 95 91, bits i 90 86, bits i 85 81]
    | 0x42 => [bits i 95 91]
    | 0x43 => [bits i 90 86]
    | 0x44 => [bits i 95 91, bits i 90 86, bits i 85 81]
    | 0x45 => [bits i 95 91, bits i 90 86, bits i 85 81]
    | 0x47 => [bits i 95 91, bits i 90 86]
    | 0x60 => [bits i 50 46]
    | 0x61 => [bits i 55 51, bits i 50 46]
    | 0x62 => [bits i 55 51, bits i 50 46]
    | 0x80 => [bits i 95 91]
    | 0x81 => if bit i 81 then [bits i 80 76] else []
    | _ => []
  own ++ tag

/-! ### Route entries (R163) -/

def routeOut (r : Word) : Nat := bits r 63 61
def routeLane (r : Word) : Nat := bits r 60 59
def routeFold (r : Word) : Nat := bits r 58 56
def routePort (r : Word) : Nat := bits r 55 54

/-! ### Matrix fields (R74 to R78) -/

/-- The input format of a code (R78). -/
def matIn (c : Nat) : Fmt :=
  match c with
  | 0 => .int8 | 1 => .e4m3 | 2 => .e5m2 | 3 => .mxInt8 | 4 => .mxE4m3 | 5 => .mxE5m2 | 6 => .mxE2m3 | 7 => .mxE3m2
  | 8 => .mxFp4 | 9 => .bf16 | _ => .fp16

/-- The output format of a code (R78). -/
def matOut (c : Nat) : Fmt :=
  match c with
  | 0 => .fp32 | 1 => .bf16 | 2 => .fp16 | 3 => .e4m3 | 4 => .e5m2 | 5 => .mxE4m3 | 6 => .mxE5m2 | 7 => .mxE2m3
  | 8 => .mxE3m2 | 9 => .mxFp4 | 10 => .mxInt8 | _ => .raw

def mmM (i : InsnWord) : Nat := bits i 95 90 + 1
def mmN (i : InsnWord) : Nat := bits i 89 84 + 1
def mmK (i : InsnWord) : Nat := bits i 83 72 + 1
def mmAfmt (i : InsnWord) : Fmt := matIn (bits i 71 68)
def mmWfmt (i : InsnWord) : Fmt := matIn (bits i 67 64)
def mmAsrc (i : InsnWord) : Nat := bits i 63 62
def mmWsrc (i : InsnWord) : Nat := bits i 61 60
def mmWkeep (i : InsnWord) : Bool := bit i 59
def mmWpre (i : InsnWord) : Bool := bit i 58
def mmProbe (i : InsnWord) : Bool := bit i 57
def mmAs (i : InsnWord) : Nat := bits i 55 51
def mmWs (i : InsnWord) : Nat := bits i 50 46
def mmApitch (i : InsnWord) : Nat := bits i 45 34
def mmWstride (i : InsnWord) : Nat := bits i 33 22

def manchD (i : InsnWord) : Nat := bits i 95 91
def manchMode (i : InsnWord) : Nat := bits i 90 89
def manchSub (i : InsnWord) : Nat := bits i 88 87
def manchAnchor (i : InsnWord) : Int := signed 16 (bits i 79 64)
def manchObj (i : InsnWord) : Nat := bits i 43 32

def moRow0 (i : InsnWord) : Nat := bits i 95 90
def moRows (i : InsnWord) : Nat := bits i 89 84 + 1
def moCols (i : InsnWord) : Nat := bits i 83 78 + 1
def moOfmt (i : InsnWord) : Nat := bits i 77 74
def moE4nan (i : InsnWord) : Bool := bit i 73
def moTrap (i : InsnWord) : Bool := bit i 72

/-- The panel depth D of an operand pair: by the wider format (R63). -/
def panelDepth (a w : Fmt) : Nat :=
  let x := max a.width w.width
  if x = 4 then 128 else if x ≤ 8 then 64 else 16

/-! ### Vector fields (R100 to R106) -/

/-- The vector format of a code (R103). -/
def vecFmt (c : Nat) : Fmt :=
  match c with
  | 0 => .fp32 | 1 => .bf16 | 2 => .fp16 | 3 => .e4m3 | 4 => .e5m2 | 5 => .int32 | 6 => .int16 | 7 => .int8 | 8 => .raw
  | 9 => .mxE4m3 | 10 => .mxE5m2 | 11 => .mxE2m3 | 12 => .mxE3m2 | 13 => .mxFp4 | _ => .mxInt8

/-- Stage word `k`, input descriptor X`k`, and the output descriptors of a configuration record (R100). -/
def cfgStage (c : BitVec 1024) (k : Nat) : Word := BitVec.ofNat 64 (nbits c.toNat (511 + 64 * k) (448 + 64 * k))
def cfgX (c : BitVec 1024) (k : Nat) : Word := BitVec.ofNat 64 (nbits c.toNat (127 + 64 * k) (64 + 64 * k))
def cfgO (c : BitVec 1024) : Word := BitVec.ofNat 64 (bits c 383 320)
def cfgR (c : BitVec 1024) : Word := BitVec.ofNat 64 (bits c 447 384)
def cfgSeg (c : BitVec 1024) : Nat := bits c 63 50
def cfgE4nan (c : BitVec 1024) : Bool := bit c 49

def xSrc (x : Word) : Nat := bits x 63 60
def xFmt (x : Word) : Nat := bits x 59 56
def xAs (x : Word) : Nat := bits x 55 51
def xStride (x : Word) : Int := signed 14 (bits x 50 37)
def xSegStride (x : Word) : Int := signed 16 (bits x 36 21)

def stType (x : Word) : Nat := bits x 63 60
def stOp (x : Word) : Nat := bits x 59 54
def stTy (x : Word) : Fmt := vecFmt (bits x 53 51)
def stSa (x : Word) : Nat := bits x 50 48
def stSb (x : Word) : Nat := bits x 47 45
def stSc (x : Word) : Nat := bits x 44 42
def stTap (x : Word) : Nat := bits x 41 39
def stSat (x : Word) : Bool := bit x 38

/-! ### Stream fields (R134, R140) -/

def sfAs (i : InsnWord) : Nat := bits i 95 91
def sfBs (i : InsnWord) : Nat := bits i 90 86
def sfDs (i : InsnWord) : Nat := bits i 85 81
def sfPort (i : InsnWord) : Nat := bits i 80 79
def sfSrc (i : InsnWord) : Nat := bits i 78 77
def sfSid (i : InsnWord) : Nat := bits i 76 75
def sfAll (i : InsnWord) : Bool := bit i 74
def sfLsrc (i : InsnWord) : Nat := bits i 73 72
def sfFlown (i : InsnWord) : Nat := bits i 63 56
def sfNf (i : InsnWord) : Nat := bits i 55 48 + 1
def sfOfs (i : InsnWord) : Nat := bits i 47 40
def sfKeep (i : InsnWord) : Nat := bits i 39 32 + 1
def sfRest (i : InsnWord) : Nat := bits i 31 18

def ldMode (d : BitVec 512) : Nat := bits d 511 510
def ldNlev (d : BitVec 512) : Nat := bits d 509 507
def ldOrder (d : BitVec 512) (j : Nat) : Nat := nbits (bits d 506 489) (3 * j + 2) (3 * j)
def ldRmask (d : BitVec 512) (i : Nat) : Bool := d.getLsbD (483 + i)
def ldRun (d : BitVec 512) : Nat := bits d 482 471 + 1
def ldIbound (d : BitVec 512) : Nat := bits d 470 448 + 1
def ldBound (d : BitVec 512) (i : Nat) : Nat := nbits d.toNat (64 * i + 127) (64 * i + 104) + 1
def ldStride (d : BitVec 512) (i : Nat) : Int := signed 40 (nbits d.toNat (64 * i + 103) (64 * i + 64))
def ldRemA (d : BitVec 512) : Nat := bits d 63 40 + 1
def ldRemB (d : BitVec 512) : Nat := bits d 39 16 + 1

end Sys2Proof.Machine
end

