-- ==== Sys2Proof/Machine/Issue.lean ====
section
/-! DEFINITION. Issuing an instruction (R38, R39, R42, R43, R46, R47, R54): the firing's next instruction, the fc in which
it issues, and what every issue does whatever its opcode. -/
namespace Sys2Proof.Machine

/-- The fold-schedule entry in force (R45, R46). -/
def Cell.entry (x : Cell) : BitVec 32 := nth 0 x.sched x.schedPos

/-- The fold of an entry. -/
def entryFold (e : BitVec 32) : Nat := bits e 31 29

/-- The current fold of a cell; through a switch, the outgoing one (R48). -/
def Cell.cur (x : Cell) : Nat := entryFold x.entry

/-- The first fc after the current dwell (R49). -/
def Cell.dwellEnd (x : Cell) : Nat := x.dwellFrom + bits x.entry 23 0

/-- The current fold has an empty operand mask and has not fired (R38). -/
def Cell.emptyMask (x : Cell) : Bool :=
  let f := x.fold x.cur
  decide (f.opMask = 0) && !f.fired && !f.instrs.isEmpty

/-- An instruction that issues: where, when, for which firing, and its predicate. -/
structure Issue where
  part : Nat
  cell : Nat
  fold : Nat
  slot : Option Nat
  tag  : BitVec 16
  fc   : Nat
  insn : InsnWord
  pred : Bool
  deriving DecidableEq, Repr, Inhabited

/-- The instruction at a firing's issue point. -/
def Cell.nextInsn (x : Cell) (f : Firing) : Option InsnWord := (x.fold f.fold).instrs[f.pc]?

/-- What the next instruction of a cell would be, issuing no earlier than `since`: none when no firing of the current
fold is in progress, when it waits (R57, R142), when it reads a scalar that awaits a sync result (R54), or when the dwell
or the switch leaves it no fc (R46, R47). -/
def issueAt (s : State) (c since : Nat) : Option Issue :=
  let x := s.cell c
  match partOfCell s c, x.firing with
  | some p, some f =>
    match x.nextInsn f with
    | some i =>
      let e := max (max (s.part p).fc f.ready) since
      if f.waiting || x.switching.isSome || x.cur != f.fold || decide (x.dwellEnd ≤ e) ||
          (readsRegs i).any (fun r => (x.fold f.fold).awaited.contains r) then none
      else some { part := p, cell := c, fold := f.fold, slot := f.slot, tag := f.tag, fc := e, insn := i,
                  pred := predicate x f.fold f.slot i }
    | none => none
  | _, _ => none

/-- The bit that an ND opcode sets in NDOPS (R224). -/
def ndBit (op : Nat) : Option Nat :=
  match op with
  | 0x0D => some 0
  | 0x0E => some 1
  | 0x0F => some 2
  | 0x26 => some 3
  | _ => none

/-- What every issue does: the issue point and the next fc (R39), the cheap point (R290), the job's ND operations
(R224). -/
def retire (k : Issue) (s : State) : State :=
  let cheap (was : Bool) : Bool := if insnCp k.insn then (was || k.pred) else false
  let s := s.updCell k.cell (fun x =>
    { x with firing := x.firing.map (fun f => { f with pc := f.pc + 1, ready := k.fc + 1 }), cheap := cheap x.cheap })
  match ndBit (opcode k.insn) with
  | some b =>
    if k.pred then
      s.updPart k.part (fun x => { x with job := x.job.map (fun j => { j with ndops := j.ndops ||| BitVec.ofNat 8 (2 ^ b) }) })
    else s
  | none => s

/-- An instruction of opcode `op` (and sub-operation, by `ok`) issues on cell `c` and has its effect; a unit it needs is
free from `since` on. Where it cannot issue, the state does not change. -/
def issueFrom (since : State → Nat) (op : Nat) (ok : InsnWord → Bool) (c : Nat) (eff : Issue → State → State)
    (s : State) : Host.Outcome State Fault Refusal :=
  onCell c s (fun s =>
    match issueAt s c (since s) with
    | none => s
    | some k =>
      if opcode k.insn = op ∧ ok k.insn then atFc s k.part k.fc (fun s => eff k (retire k s)) else s)

/-- An instruction that needs no unit. -/
def issue (op : Nat) (c : Nat) (eff : Issue → State → State) (s : State) : Host.Outcome State Fault Refusal :=
  issueFrom (fun _ => 0) op (fun _ => true) c eff s

/-- A task abort that an instruction raises as it issues: its firing's fold and tag (R59). -/
def issueAbort (k : Issue) (cl : Cls) (n : Nat) (s : State) : State := abortTask s k.part cl n k.cell k.fold k.tag.toNat

/-- The scalar `S[n]` of the issuing fold. -/
def Issue.reg (k : Issue) (s : State) (n : Nat) : Word := ((s.cell k.cell).fold k.fold).reg n

/-- The second operand of a scalar instruction: IMM or S[B] (R52). -/
def Issue.src2 (k : Issue) (s : State) : Word :=
  if fIm k.insn then BitVec.ofNat 64 (fImm k.insn) else k.reg s (fB k.insn)

/-- A scalar written by an instruction whose predicate is true (R43). -/
def setS (k : Issue) (n : Nat) (v : Word) (s : State) : State :=
  if k.pred then s.updCell k.cell (fun x => x.updFold k.fold (fun f => f.setReg n v)) else s

/-- A predicate register written by an instruction whose predicate is true (R43). -/
def setP (k : Issue) (n : Nat) (v : Bool) (s : State) : State :=
  if k.pred then s.updCell k.cell (fun x => x.updFold k.fold (fun f => f.setPred (n % 8) v)) else s

end Sys2Proof.Machine
end

