-- ==== Sys2Proof/Machine/WalkOps.lean ====
section
/-! DEFINITION. The walk along a loop descriptor (R134 to R138): its counters and addresses at each step in closed form, and
which descriptors are malformed. -/
namespace Sys2Proof.Machine

/-- The remainder bound of level `i`, if RMASK sets it: REMA for the lowest level set, REMB for the next (R134). -/
def ldRem (d : BitVec 512) (i : Nat) : Option Nat :=
  if ldRmask d i then
    some (if (List.range i).any (ldRmask d) then ldRemB d else ldRemA d)
  else none

/-- The bound of depth `j`, by whether the next depth out is at its last value (R135). -/
def depthBound (d : BitVec 512) (j : Nat) (outerLast : Bool) : Nat :=
  let i := ldOrder d j
  match ldRem d i with
  | some r => if outerLast then r else ldBound d i
  | none => ldBound d i

/-- Steps of the depths below `j`, by whether depth `j` is at its last value. -/
def innerSteps (d : BitVec 512) : Nat → Bool → Nat
  | 0, _ => 1
  | j + 1, last => (depthBound d j last - 1) * innerSteps d j false + innerSteps d j true

/-- Runs of a walk. -/
def walkRuns (d : BitVec 512) : Nat := innerSteps d (ldNlev d) false

/-- Bytes of a walk. -/
def walkBytes (d : BitVec 512) : Nat := walkRuns d * ldRun d

/-- The counters of depths below `j` at a step, outermost first. -/
def stepCounters (d : BitVec 512) : Nat → Bool → Nat → List Nat
  | 0, _, _ => []
  | j + 1, last, k =>
    let b := depthBound d j last
    let n := innerSteps d j false
    if k < (b - 1) * n then (k / n) :: stepCounters d j false (k % n)
    else (b - 1) :: stepCounters d j true (k - (b - 1) * n)

/-- The counters at step `k`, depth 0 first. -/
def countersAt (d : BitVec 512) (k : Nat) : List Nat := (stepCounters d (ldNlev d) false k).reverse

/-- The counter of the outermost depth at step `k`. -/
def outerAt (d : BitVec 512) (k : Nat) : Nat := (stepCounters d (ldNlev d) false k).headD 0

/-- The address of step `k`: `entry` is the index or the pointer that governs it in index or pointer-list mode (R135,
R137, R138). -/
def stepAddr (d : BitVec 512) (base : Nat) (k entry : Nat) : Int :=
  let n := ldNlev d
  let cs := countersAt d k
  let term (j : Nat) : Int :=
    if j + 1 = n then
      match ldMode d with
      | 1 => (entry : Int) * ldStride d (ldOrder d j)
      | 2 => 0
      | _ => ((nth (0 : Nat) cs j : Nat) : Int) * ldStride d (ldOrder d j)
    else ((nth (0 : Nat) cs j : Nat) : Int) * ldStride d (ldOrder d j)
  (if ldMode d = 2 then (entry : Int) else (base : Int)) + ((List.range n).map term).foldl (· + ·) 0

/-- A descriptor is malformed (R136). -/
def ldMalformed (d : BitVec 512) : Bool :=
  let n := ldNlev d
  let ord := (List.range n).map (ldOrder d)
  let set := (List.range 6).filter (ldRmask d)
  decide (ldMode d = 3) || decide (n = 0) || decide (6 < n) ||
    !(List.range n).all (fun i => ord.contains i) ||
    (range n (6 - n)).any (fun j => ldOrder d j != 0) ||
    set.any (fun i => decide (n ≤ i) || decide (i = ldOrder d (n - 1))) || decide (2 < set.length) ||
    set.any (fun i => match ldRem d i with | some r => decide (ldBound d i < r) | none => false) ||
    (decide (set.length = 0) && decide (ldRemA d ≠ 1)) || (decide (set.length < 2) && decide (ldRemB d ≠ 1)) ||
    (decide (ldMode d ≠ 1) && decide (ldIbound d ≠ 1)) ||
    (range n (6 - n)).any (fun i => nbits d.toNat (64 * i + 127) (64 * i + 64) != 0) || decide (bits d 15 0 ≠ 0)

/-- The pieces of `n` bytes at position `pos` of a walk's byte stream: the address and length of each. -/
def walkPieces (d : BitVec 512) (addrOf : Nat → Int) : Nat → Nat → Nat → List (Int × Nat)
  | 0, _, _ => []
  | fuel + 1, pos, n =>
    if n = 0 then []
    else
      let r := ldRun d
      let m := min n (r - pos % r)
      (addrOf (pos / r) + (pos % r : Nat), m) :: walkPieces d addrOf fuel (pos + m) (n - m)

end Sys2Proof.Machine
end

