-- ==== Sys2Proof/Machine/CellMem.lean ====
section
/-! DEFINITION. A cell's memories as the units reach them (R73, R127 to R130, R182): reads, writes, landings, and the reads
of the local stream unit, which see each memory as it stood in the fc of the read (R128, R142). Memories are numbered as
SRC is (R140): 0 and 1 the halves, 2 tier 0, 3 scratch. -/
namespace Sys2Proof.Machine

/-- Bytes of a memory. -/
def memSize (m : Nat) : Nat := match m with | 2 => bankBytes | 3 => 0x3000 | _ => 16384

/-- A memory of a cell. -/
def Cell.mem (x : Cell) (m : Nat) : Mem :=
  match m with
  | 0 => x.half0
  | 1 => x.half1
  | 2 => x.tier0
  | _ => x.scratch

/-- A memory of a cell replaced. -/
def Cell.setMem (x : Cell) (m : Nat) (v : Mem) : Cell :=
  match m with
  | 0 => { x with half0 := v }
  | 1 => { x with half1 := v }
  | 2 => { x with tier0 := v }
  | _ => { x with scratch := v }

/-- A memory address from a scalar: bits [19:0], and in scratch all of it but its low three bits (R55, R101, R139). -/
def memBase (m : Nat) (w : Word) : Nat := if m = 3 then w.toNat / 8 * 8 else w.toNat % 2 ^ 20

/-- `n` bytes of a memory; addresses wrap in a half and in tier 0 (R73, R130). -/
def Cell.rd (x : Cell) (m a n : Nat) : List Byte := (x.mem m).readN (memSize m) a n

/-- The reason code of a unit's read of `n` bytes: OV-0x0A past the scratch (R55), ST-0x04 of an uncorrectable tier-0 word
(R182), 0 for none. -/
def Cell.rdCode (x : Cell) (m a n : Nat) : Nat :=
  if m = 3 then (if a + n ≤ 0x3000 then 0 else reasonCode .ov 0x0A)
  else if m = 2 ∧ (List.range n).any (fun i => x.tier0.bad.contains ((a + i) % bankBytes / 8)) then reasonCode .st 0x04
  else 0

/-- A write of tier 0 mends the words that it covers whole, and marks the pages it touches (R182, R291). -/
def Cell.bankWrite (x : Cell) (a : Nat) (bs : List Byte) : Cell :=
  let n := bs.length
  let whole (w : Nat) : Bool := (List.range 8).all (fun i => decide ((8 * w + i + bankBytes - a) % bankBytes < n))
  let t := x.tier0.writeN bankBytes a bs
  let touched : BitVec 168 :=
    if a + n ≤ bankBytes then pageMask a n else pageMask a (bankBytes - a) ||| pageMask 0 (a + n - bankBytes)
  { x with tier0 := { t with bad := t.bad.filter (fun w => !whole w) }, pages := x.pages ||| touched }

/-- The landing half of flows and local streams: the half that is not the use half (R129). -/
def Cell.fillHalf (x : Cell) : Nat := 1 - x.useHalf

/-- A landing is in progress in a half in fc `f` (R129): one that has written by then and not ended, or that ended in `f`. -/
def Cell.landingIn (x : Cell) (half f : Nat) : Bool :=
  x.landings.any (fun l => l.started && decide (l.since ≤ f) && l.half == half) ||
    x.streams.any (fun st => st.live && st.written && decide (st.since ≤ f) && st.kind != .stst && st.half == half) ||
    x.landed.contains (half, f)

/-- The memories as they stood at the start of fc `f`: without what has been written in it (R128). -/
def Cell.view (x : Cell) (f : Nat) : Cell :=
  if x.wroteFc = f then x.wrote.foldl (fun x w => x.setMem w.mem ((x.mem w.mem).write w.addr w.old)) x else x

/-! ### Reads of the local stream unit (R142) -/

/-- Every run of the stream's walk has been read. -/
def LocalStream.readAll (st : LocalStream) : Bool := decide (walkRuns st.desc ≤ st.walk.step)

/-- The stream's address of its current run, in the tier-0 bank. -/
def LocalStream.runAddr (st : LocalStream) : Nat :=
  toCode 20 (stepAddr st.desc st.base st.walk.step (st.entry.getD 0)) % bankBytes

/-- The bytes of the list word number `n` of a size. -/
def LocalStream.listWord (x : Cell) (st : LocalStream) (ofs n : Nat) : Nat :=
  leNat ((x.view st.nextFc).rd st.listMem (st.list + ofs) n)

/-- The reason code of that read. -/
def LocalStream.listCode (x : Cell) (st : LocalStream) (ofs n : Nat) : Nat := x.rdCode st.listMem (st.list + ofs) n

/-- The fault that the walk meets, delivered 4 fc after the read of the run that would have come at `f`, the fc after the read of
its list entry (R137, R138, R142). -/
def LocalStream.faulted (st : LocalStream) (f code : Nat) : LocalStream := { st with fault := some (f + 4, code) }

/-- The list entry of the current outermost iteration is read in 1 fc (R137, R138, R142). -/
def LocalStream.readEntry (x : Cell) (st : LocalStream) : LocalStream :=
  let c := outerAt st.desc st.walk.step
  match st.kind with
  | .stptr =>
    let n := st.count.getD 0
    let code := st.listCode x (8 + 8 * c) 8
    if 65536 < n ∨ n ≤ c then st.faulted (st.nextFc + 1) (reasonCode .st 0x06)
    else if code ≠ 0 then { st with fault := some (st.nextFc, code) }
    else { st with entry := some (st.listWord x (8 + 8 * c) 8), nextFc := st.nextFc + 1 }
  | _ =>
    let v := st.listWord x (4 * c) 4
    let code := st.listCode x (4 * c) 4
    if code ≠ 0 then { st with fault := some (st.nextFc, code) } else
    let st := { st with entry := some v, nextFc := st.nextFc + 1 }
    if ldIbound st.desc ≤ v then st.faulted st.nextFc (reasonCode .st 0x05) else st

/-- The next word of the current run is read (R142). A word of STST comes from the contiguous side. -/
def LocalStream.readWord (x : Cell) (st : LocalStream) : LocalStream :=
  let a := st.runAddr + st.walk.ofs
  let n := min (ldRun st.desc - st.walk.ofs) (64 - a % 64)
  let st0 := st.kind == .stst
  let m := if st0 then st.side else 2
  let from_ := if st0 then st.contig + st.moved else a
  let code := if st0 && decide (m < 2) && x.landingIn m st.nextFc then reasonCode .st 0x07 else x.rdCode m from_ n
  let last := decide (ldRun st.desc ≤ st.walk.ofs + n)
  let walk : Walk := if last then { step := st.walk.step + 1, ofs := 0 } else { st.walk with ofs := st.walk.ofs + n }
  let turn := last && decide (outerAt st.desc walk.step ≠ outerAt st.desc st.walk.step)
  { st with buf := st.buf ++ [{ read := st.nextFc, dst := if st0 then a % bankBytes else st.contig + st.moved,
                                bytes := if st.live then (x.view st.nextFc).rd m from_ n else [], code := if st.live then code else 0 }],
            walk := walk, moved := st.moved + n, nextFc := st.nextFc + 1,
            entry := if turn then none else st.entry }

/-- One read of the stream unit: the count word, a list entry, or a word of a run. -/
def LocalStream.advance (x : Cell) (st : LocalStream) : LocalStream :=
  if st.readAll || st.fault.isSome then st
  else if st.kind == .stptr && st.count.isNone then
    let code := st.listCode x 0 8
    if code ≠ 0 then { st with fault := some (st.nextFc, code) }
    else { st with count := some (st.listWord x 0 8), nextFc := st.nextFc + 1 }
  else if (st.kind == .stptr || st.kind == .stidx) && st.entry.isNone then st.readEntry x
  else st.readWord x

/-- The reads of the stream unit up to fc `now`. -/
def LocalStream.catchUp (x : Cell) (now : Nat) : Nat → LocalStream → LocalStream
  | 0, st => st
  | fuel + 1, st => if st.nextFc ≤ now then LocalStream.catchUp x now fuel (st.advance x) else st

/-- Reads of the stream unit until a word is in hand, or a fault, or the walk's end. -/
def LocalStream.fetchHead (x : Cell) : Nat → LocalStream → LocalStream
  | 0, st => st
  | fuel + 1, st =>
    if st.buf.isEmpty && st.fault.isNone && !st.readAll then LocalStream.fetchHead x fuel (st.advance x) else st

/-- What a read of tier 0 has found (R182): a word whose error cannot be corrected is bad until a write mends it, a corrected one
is counted on the die (R423). `reads` says that the command's operation reads tier 0. -/
def tier0Error (c : Nat) (reads : Bool) (e : Option Tier0Error) (s : State) : State :=
  match e with
  | some e =>
    let w := e.word % (bankBytes / 8)
    if !reads then s
    else if e.bad then s.updCell c (fun x =>
      { x with tier0 := { x.tier0 with bad := if x.tier0.bad.contains w then x.tier0.bad else w :: x.tier0.bad } })
    else odCount s (0x4000 + 0x100 * cellDie c) 0x20 0 32
  | none => s

/-- A reason code as its class and number, for an abort by a unit. -/
def codeCls (code : Nat) : Cls := if code / 256 = 2 then .st else .ov

/-- A task abort by an operation of a unit: its issuing firing's fold and tag (R59). An uncorrectable tier-0 read counts on
the die (R182, R423). -/
def unitAbort (s : State) (p c fold : Nat) (tag : BitVec 16) (code : Nat) : State :=
  let s := if code = reasonCode .st 0x04 then odCount s (0x4000 + 0x100 * cellDie c) 0x21 0 32 else s
  abortTask s p (codeCls code) (code % 256) c fold tag.toNat

end Sys2Proof.Machine
end

