-- ==== Sys2Proof/Machine/MemChan.lean ====
section
/-! DEFINITION. Memory controllers (R185, R216): which holds a granule, its error counts, and the sluice tables (R201 to
R204). -/
namespace Sys2Proof.Machine

/-- A controller of a partition's tier by index in R185's order: the channel number of R216, and its pseudo-channel. -/
def controller (s : State) (p tier i : Nat) : Nat × Nat :=
  if tier = 1 then (0x10 + nth 0 (partStacks s p) (i / 32), i % 32) else (nth 0 (partChannels s p) i, 0)

/-- Controllers that a partition owns in a tier. -/
def numControllers (s : State) (p tier : Nat) : Nat :=
  if tier = 1 then 32 * (partStacks s p).length else (partChannels s p).length

/-- The controller that holds byte `o` of a frame (R185). -/
def holder (s : State) (p tier frame o : Nat) : Nat :=
  let g := if tier = 1 then 32768 * frame + o / 64 else 16384 * frame + o / 128
  g % max 1 (numControllers s p tier)

/-- The tier and frame of a plot's current copy. -/
def Plot.where_ (x : Plot) : Nat × Nat := if x.cur = 1 then (1, x.t1frame) else (2, x.t2frame)

/-- The memory channel that holds a byte of a frame. -/
def channelOf (s : State) (p tier frame o : Nat) : Nat := (controller s p tier (holder s p tier frame o)).1

/-- A memory error counted on a channel (R216). -/
def countEcc (s : State) (ch p addr : Nat) (ecc : EccResult) : State :=
  match ecc with
  | .good => s
  | .corrected => odCount s (0x5000 + ch) 0x03 0 32
  | .uncorrectable =>
    odSet (odCount s (0x5000 + ch) 0x04 0 32) (0x5000 + ch) 0x06 0 (p * 2 ^ 61 + addr)

/-- A memory error counted on the channel that holds a byte of a plot. -/
def countPlotEcc (s : State) (p v o : Nat) (ecc : EccResult) : State :=
  match s.plot p v with
  | some x => countEcc s (channelOf s p x.where_.1 x.where_.2 o) p (v * plotBytes + o) ecc
  | none => s

/-- The default owner of a slot of a pseudo-channel (R202, R203). -/
def sluiceDefault1 (i : Nat) : Nat :=
  if i = 0 ∨ i = 128 then 5 else if i = 64 then 6 else if i = 192 then 7
  else if i % 8 = 4 then 2 else if i % 32 = 16 then 4 else if i % 64 = 40 then 3 else 1

/-- The default owner of a slot of a DDR5 channel (R202, R203). -/
def sluiceDefault2 (i : Nat) : Nat := if i = 0 then 5 else if i = 128 then 6 else 2

/-- Element of a controller's sluice table in the dictionary, and its subindex (R214). -/
def sluiceElem (ch pc : Nat) : Nat × Nat := if 0x10 ≤ ch then (0x20, 32 * (ch - 0x10) + pc) else (0x21, ch)

/-- The owner code of a slot in a table of 128 bytes; 0 stands for the table after reset (R201, R203). -/
def tableCode (tier table i : Nat) : Nat :=
  if table = 0 then (if tier = 1 then sluiceDefault1 i else sluiceDefault2 i) else nbits table (4 * i + 3) (4 * i)

/-- The table in force of a controller of a partition's tier (R201, R202). -/
def tableInForce (s : State) (p tier ctl : Nat) : Nat :=
  let (ch, pc) := controller s p tier ctl
  let (sub, e) := sluiceElem ch pc
  odForce s 0x1600 sub e

/-- The owner code of a slot of a controller under the table in force (R201, R202). -/
def slotOwner (s : State) (p tier ctl i : Nat) : Nat := tableCode tier (tableInForce s p tier ctl) i

/-- A table has a slot of an owner. -/
def hasSlot (tier table code : Nat) : Bool := (List.range 256).any (fun i => tableCode tier table i == code)

/-- A partition's unused FG slots are lent (R205). -/
def lends (s : State) (p : Nat) : Bool := odForce s 0x1600 0x14 p != 0

/-- A controller serves work of an owner: in slots of its own, or in lent FG slots (R203, R205). -/
def serves (s : State) (p tier code ctl : Nat) : Bool :=
  let table := tableInForce s p tier ctl
  hasSlot tier table code || (lends s p && hasSlot tier table 1)

/-- Every controller of a tier serves migration: a frame's granules lie on all of them (R185, R203). -/
def migServed (s : State) (p tier : Nat) : Bool := (List.range (numControllers s p tier)).all (serves s p tier 2)

/-- The controllers that hold `n` bytes from offset `o` of a frame (R185). -/
def rangeControllers (s : State) (p tier frame o n : Nat) : List Nat :=
  let g := if tier = 1 then 64 else 128
  (range (o / g) (min (numControllers s p tier) ((o + n - 1) / g + 1 - o / g))).map (fun k => holder s p tier frame (k * g))

/-- Ingest is served where `n` bytes of object space lie (R201, R203). -/
def ingServed (s : State) (p addr n : Nat) : Bool :=
  (chunksOf addr n).all (fun c => match s.plot p c.1 with
    | some x => (rangeControllers s p x.where_.1 x.where_.2 c.2.1 c.2.2).all (serves s p x.where_.1 3)
    | none => true)

/-- A table may be stored (R202). -/
def tableOk (tier table : Nat) : Bool :=
  (List.range 256).all (fun i =>
    let c := nbits table (4 * i + 3) (4 * i)
    let fixed := (if tier = 1 then sluiceDefault1 i else sluiceDefault2 i)
    if fixed = 5 ∨ fixed = 6 ∨ fixed = 7 then c == fixed
    else decide (c < 8) && decide (c ≠ 5 ∧ c ≠ 6 ∧ c ≠ 7) && !(decide (tier = 2) && decide (c = 4)))

end Sys2Proof.Machine
end

