-- ==== Sys2Proof/Machine/MemOps.lean ====
section
/-! DEFINITION. Quotas and frames (R181, R188 to R190), the memory command and its ring (R192 to R194), moves and their
commits (R191, R195, R196), and Merkle digests (R212). -/
namespace Sys2Proof.Machine

/-! ### The command word (R192) -/

def mcOp (c : BitVec 512) : Nat := bits c 511 504
def mcTkeep (c : BitVec 512) : Bool := bit c 498
def mcDmode (c : BitVec 512) : Bool := bit c 497
def mcRoot (c : BitVec 512) : Bool := bit c 496
def mcObj (c : BitVec 512) : Nat := bits c 495 480
def mcDobj (c : BitVec 512) : Nat := bits c 479 464
def mcFirst (c : BitVec 512) : Nat := bits c 463 432
def mcCount (c : BitVec 512) : Nat := bits c 431 400
def mcPlace (c : BitVec 512) : Nat := bits c 399 392
def mcTier (c : BitVec 512) : Nat := bits c 391 390
def mcTtl (c : BitVec 512) : Nat := bits c 383 352
def mcQp (c : BitVec 512) : Nat := bits c 351 344
def mcRva (c : BitVec 512) : Nat := bits c 319 256
def mcRkey (c : BitVec 512) : Nat := bits c 255 224
def mcOffset (c : BitVec 512) : Nat := bits c 223 160
def mcLen (c : BitVec 512) : Nat := bits c 159 96
def mcDleaf (c : BitVec 512) : Nat := bits c 95 64
def mcCtx (c : BitVec 512) : Nat := bits c 63 0

/-- A reserved field is not zero, or TKEEP is set in a command other than PLACE (R192, R193). -/
def mcReserved (c : BitVec 512) : Bool :=
  bits c 503 499 != 0 || bits c 389 384 != 0 || bits c 343 320 != 0 || (mcTkeep c && mcOp c != 5)

/-- The placement bits [93:86] of an object record (R186). -/
def placeBits (x : Obj) : Nat :=
  x.qclass % 4 * 64 + ofBool x.keep2 * 32 + ofBool x.pin * 16 + x.allow.toNat * 4 + x.home.toNat

/-- An object with new placement bits (R186). -/
def withPlace (x : Obj) (b : Nat) : Obj :=
  { x with qclass := nbits b 7 6, keep2 := b.testBit 5, pin := b.testBit 4, allow := BitVec.ofNat 2 (nbits b 3 2),
           home := BitVec.ofNat 2 (nbits b 1 0) }

/-- The refusal of placement bits: a reserved HOME, or a HOME that ALLOW does not allow (R186, R193, R213). -/
def placeRefusal (b : Nat) : Nat :=
  let home := nbits b 1 0
  if home = 0 ∨ home = 3 then 0x10 else if b.testBit (home + 1) then 0 else 0x05

/-! ### Staging ways (R188, R200) -/

/-- The ways of a partition on an I/O die, as a map. -/
def waysOn (s : State) (p io : Nat) : Nat :=
  match odForce s 0x1600 0x12 (4 * p + io) with
  | 0 => ((partEighths s p).flatMap (eighthWays s.boot.assembly)).foldl
      (fun a w => if w.1 = io then a ||| 2 ^ w.2 else a) 0
  | v + 1 => v

/-- Ways of a partition. -/
def numWays (s : State) (p : Nat) : Nat :=
  ((List.range 4).map (fun io => ((List.range 16).filter (waysOn s p io).testBit).length)).sum

/-- Most ways that ingest may hold. -/
def ingestWays (s : State) (p : Nat) : Nat :=
  match odForce s 0x1600 0x13 p with
  | 0 => numWays s p / 2
  | v + 1 => v

/-- Most ways that ingest may have in use at once. -/
def ingestLimit (s : State) (p : Nat) : Nat := min (ingestWays s p) (numWays s p)

/-- Migration has a way. -/
def migrationWay (s : State) (p : Nat) : Bool := decide (ingestWays s p < numWays s p)

/-- Ingest has a way. -/
def ingestWay (s : State) (p : Nat) : Bool := decide (0 < ingestLimit s p)

/-! ### Runs, quotas and frames -/

/-- The record that an ALLOC in progress will give an object (R193). -/
def allocRecord (s : State) (p o : Nat) : Option Obj :=
  (s.part p).mcRuns.findSome? (fun r => if r.obj = o then r.record else none)

/-- An object, or one whose ALLOC is in progress (R196). -/
def objAny (s : State) (p o : Nat) : Option Obj := (s.obj p o).or (allocRecord s p o)

/-- A plot holds a frame of a tier. -/
def Plot.has (x : Plot) (t : Nat) : Bool := if t = 1 then x.has1 else x.has2

/-- The frame that a plot holds in a tier. -/
def Plot.frameIn (x : Plot) (t : Nat) : Nat := if t = 1 then x.t1frame else x.t2frame

/-- Frames held in a tier by a quota class, or by the partition (class 7) (R189). -/
def usedFrames (s : State) (p q t : Nat) : Nat :=
  ((partPlots s p).filter (fun e => e.2.has t &&
    (q == 7 || (match objAny s p e.2.obj with | some o => o.qclass == q | none => false)))).length

/-- The limit in a tier of a quota class, or of the partition (R189, R214). -/
def quotaLimit (s : State) (p q t : Nat) : Nat :=
  match odForce s 0x1600 0x10 (16 * p + 2 * q + (t - 1)) with
  | 0 => tierFrames s p t
  | v + 1 => v

/-- The partition is enabled (R190). -/
def enabled (x : Part) : Bool := decide (x.state ≠ .off) && decide (x.state ≠ .refused)

/-- The tier that the partition's next freeze drains to (R297; log 19). -/
def drainTier (s : State) (p : Nat) : Nat := od s (0x2000 + 0x100 * p) 0x03

/-- Frames free in a tier: within the partition's quota and of the frames it has. -/
def freeFrames (s : State) (p t : Nat) : Nat := min (quotaLimit s p 7 t) (tierFrames s p t) - usedFrames s p 7 t

/-- The refusal of `n` more frames of a tier for a class, 0 where they may be taken (R180, R189, R190; log 20). -/
def frameRefusal (s : State) (p q t n : Nat) : Nat :=
  if n = 0 then 0
  else if t = 2 ∧ polderOut s p then 0x07
  else if quotaLimit s p 7 t < usedFrames s p 7 t + n ∨ quotaLimit s p q t < usedFrames s p q t + n then 0x04
  else if tierFrames s p t < usedFrames s p 7 t + n then 0x07
  else if enabled (s.part p) ∧ drainTier s p = t ∧ freeFrames s p t < n + drainFrames (shapeOf s p) then 0x11
  else 0

/-- A frame that no plot of the partition holds. -/
def frameFree (s : State) (p t f : Nat) : Bool :=
  decide (f < tierFrames s p t) && !(partPlots s p).any (fun e => e.2.has t && e.2.frameIn t == f)

/-- A choice of the part among the numbers below `n` that satisfy `ok` (log 18). -/
def choose (s : State) (ok : Nat → Bool) (n : Nat) : Option Nat × State :=
  let (k, s) := s.fresh
  (if Config.pick k < n ∧ ok (Config.pick k) then some (Config.pick k) else lowest ok 0 n, s)

/-- A plot takes a frame of a tier (R189). -/
def takeFrame (s : State) (p v t : Nat) : State :=
  let (f, s) := choose s (frameFree s p t) (tierFrames s p t)
  s.updPlot p v (fun x => if t = 1 then { x with has1 := true, t1frame := f.getD 0 }
                          else { x with has2 := true, t2frame := f.getD 0 })

/-- A plot gives back its frame of a tier. -/
def giveFrame (s : State) (p v t : Nat) : State :=
  match s.plotEntry p v with
  | some x =>
    let s := if x.has t then { s with frames := s.frames.erase (frameKey p t (x.frameIn t)) } else s
    s.updPlot p v (fun x => if t = 1 then { x with has1 := false, t1frame := 0 } else { x with has2 := false, t2frame := 0 })
  | none => s

/-- An object freed with its plots and frames (R193). -/
def dropObj (s : State) (p o : Nat) : State :=
  match s.obj p o with
  | some x =>
    let s := (objPlots x).foldl (fun s v =>
      let s := giveFrame (giveFrame s p v 1) p v 2
      { s with plots := s.plots.erase (plotKey p v) }) s
    { s with objects := s.objects.erase (objKey p o) }
  | none => s

/-! ### The command ring (R194) -/

/-- A command in progress that the keepers issued for a serving request (R253, R254): it is marked in a bit that is zero in every
command that starts. -/
def mcKeeper (c : BitVec 512) : Bool := bit c 503

/-- The command at the head of the ring, marked where the keepers issued it. -/
def headMark (x : Part) (c : BitVec 512) : BitVec 512 :=
  if x.mcKeepers.contains x.mc.head then c ||| BitVec.ofNat 512 (2 ^ 503) else c

/-- A command of the keepers is the one whose status its request awaits: the PLACE of its park, or the PLACE or the MOVE of its
resume; CTX names the request by the order of its START, and odd values are a resume's (log 36). -/
def Request.awaits (r : Request) (op ctx : Nat) : Bool :=
  ctx / 2 == r.order && (match r.parking with
    | 2 => op == 5 && ctx % 2 == 0
    | 4 => op == 5 && ctx % 2 == 1
    | 5 => op == 3 && ctx % 2 == 1
    | _ => false)

/-- The keepers learn the status of a command of theirs. -/
def keeperStatus (s : State) (p op ctx status : Nat) : State :=
  s.updPart p (fun x => { x with serving := { x.serving with
    requests := x.serving.requests.map (fun (e : Nat × Request) =>
      if e.2.awaits op ctx then (e.1, { e.2 with status := status }) else e) } })

/-- A completion in the memory completion ring (R194), then its interrupt (R267). -/
def mcPost (s : State) (p : Nat) (cmd : BitVec 512) (obj status count : Nat) : State :=
  let w := mcCtx cmd * 2 ^ 64 + status % 256 * 2 ^ 56 + mcOp cmd * 2 ^ 48 + obj % 65536 * 2 ^ 32 + count % 2 ^ 32
  let s := s.updPart p (fun x =>
    { setRingNat x (mccOfs + 16 * x.mcc.tail) w 2 with
      mcc := { x.mcc with tail := (x.mcc.tail + 1) % 256, total := x.mcc.total + 1 } })
  raisePart s p 1

/-- A command that has been taken completes (R194); the keepers learn the status of one of theirs. -/
def mcComplete (s : State) (p : Nat) (cmd : BitVec 512) (obj status count : Nat) : State :=
  mcPost (if mcKeeper cmd then keeperStatus s p (mcOp cmd) (mcCtx cmd) status else s) p cmd obj status count

/-- A run that has started. -/
def State.mcRun (s : State) (p i : Nat) : Option McRun := (s.part p).mcRuns[i]?

/-- A run replaced. -/
def setMcRun (s : State) (p i : Nat) (r : McRun) : State := s.updPart p (fun x => { x with mcRuns := x.mcRuns.set i r })

/-- A run added. -/
def addMcRun (s : State) (p : Nat) (r : McRun) : State := s.updPart p (fun x => { x with mcRuns := x.mcRuns ++ [r] })

/-- A run that has ended: its completion is posted (R194). -/
def endMcRun (s : State) (p i : Nat) : State :=
  match s.mcRun p i with
  | some r => mcComplete (s.updPart p (fun x => { x with mcRuns := x.mcRuns.eraseIdx i })) p r.cmd r.obj r.status r.count
  | none => s

/-- The first run that satisfies `f`. -/
def findMcRun (s : State) (p : Nat) (f : McRun → Bool) : Option Nat := (s.part p).mcRuns.findIdx? f

/-- The command at the head of the ring. -/
def mcHead (x : Part) : Option (BitVec 512) :=
  if x.mc.head = x.mc.tail then none else some (BitVec.ofNat 512 (ringNat x (mcOfs + 64 * x.mc.head) 8))

/-- The ring may give a command: DEV_STATE is ACCEPTING (R392), no breach has stopped migration (R17), no controller is in reset
(R394), a way's worth of commands is not yet running, and the completion ring has room for all of them and this one (R194). -/
def mcMayTake (s : State) (p : Nat) : Bool :=
  let x := s.part p
  decide (s.boot.devState = 2) && !bit s.breach 7 && decide (shapeOf s p ≠ 0) && !blockHeld s p [2, 3] &&
    decide (x.mcRuns.length < max 1 (numWays s p)) && decide (ringUsed x.mcc 256 + x.mcRuns.length < 255)

/-- The first command that the keepers have to issue is put at the tail of the ring where it has space (R192, R253, R254). -/
def Part.feedMc (x : Part) : Part :=
  match x.serving.cmds with
  | [] => x
  | c :: cs =>
    if ringFull x.mc 256 then x
    else
      { setRingNat x (mcOfs + 64 * x.mc.tail) c.toNat 8 with
        mc := { x.mc with tail := (x.mc.tail + 1) % 256, total := x.mc.total + 1 }
        mcKeepers := x.mcKeepers ++ [x.mc.tail]
        serving := { x.serving with cmds := cs } }

/-- The keepers issue a memory command: it enters the ring behind every command submitted before it. -/
def keeperSend (s : State) (p : Nat) (c : BitVec 512) : State :=
  s.updPart p (fun x => Part.feedMc { x with serving := { x.serving with cmds := x.serving.cmds ++ [c] } })

/-- The head is taken, which makes space for a command of the keepers. -/
def mcAdvance (s : State) (p : Nat) : State :=
  s.updPart p (fun x => Part.feedMc { x with
    mc := { x.mc with head := (x.mc.head + 1) % 256 }, mcKeepers := x.mcKeepers.filter (· != x.mc.head) })

/-- Commands at the head with a reserved OP are taken and refused with MM-0x10 (R193). -/
def mcSkip : Nat → Nat → State → State
  | 0, _, s => s
  | fuel + 1, p, s =>
    match mcHead (s.part p) with
    | some c =>
      if mcMayTake s p ∧ (mcOp c = 0 ∨ 7 < mcOp c) then
        mcSkip fuel p (mcPost (mcAdvance s p) p c (mcObj c) 0x10 0)
      else s
    | none => s

/-- The command at the head is taken where its OP is `op`: a reserved field refuses it with MM-0x10 (R193); then, once
nothing that `wait` names keeps it (R196), it is completed with the refusal of `refuse` where that is not 0, and started by
`start` otherwise. -/
def mcTake (op p : Nat) (wait : State → BitVec 512 → Bool) (refuse : State → BitVec 512 → Nat)
    (start : State → BitVec 512 → State) (s : State) : State :=
  match mcHead (s.part p) with
  | some c =>
    if mcOp c = op ∧ mcMayTake s p then
      let k := headMark (s.part p) c
      let refused := fun code => mcSkip 256 p (mcComplete (mcAdvance s p) p k (mcObj c) code 0)
      if mcReserved c then refused 0x10
      else if wait s k then s
      else if refuse s k ≠ 0 then refused (refuse s k)
      else mcSkip 256 p (start (mcAdvance s p) k)
    else s
  | none => s

/-- No wait. -/
def noWait (_ : State) (_ : BitVec 512) : Bool := false

/-- The plots that a range of an object's bytes touches. -/
def bytePlots (x : Obj) (ofs len : Nat) : List Nat := (chunksOf (objAddr x ofs) len).map (·.1)

/-- Bytes of a leaf. -/
def leafBytes : Nat := 2 ^ 22

/-- Leaves of a range; a range of no bytes has one. -/
def numLeaves (len : Nat) : Nat := max 1 (ceilDiv len leafBytes)

/-- The plots of DOBJ in which an INGEST or a DIGEST in progress stores or reads leaf digests (R193). -/
def digestPlots (s : State) (p : Nat) (r : McRun) : List Nat :=
  if mcOp r.cmd = 6 ∨ mcOp r.cmd = 7 then
    match s.obj p (mcDobj r.cmd) with
    | some d => bytePlots d (32 * mcDleaf r.cmd) (32 * numLeaves (mcLen r.cmd))
    | none => []
  else []

/-- An earlier command's work on one of the plots is not finished (R196). -/
def plotsBusy (s : State) (p : Nat) (vs : List Nat) : Bool :=
  (s.part p).mcRuns.any (fun r => r.todo.any vs.contains || (digestPlots s p r).any vs.contains)

/-- The plots of a command's range. -/
def rangePlots (x : Obj) (c : BitVec 512) : List Nat := range (x.vbase + mcFirst c) (mcCount c)

/-! ### Commits (R191, R195, R196) -/

/-- The tier that a plot's copy goes to. -/
def Plot.other (x : Plot) : Nat := if x.cur = 1 then 2 else 1

/-- A copy ended. -/
def Plot.settled (x : Plot) : Plot := { x with copy := false, pend := false, cancel := false, took := false, resync := 0 }

/-- The plot's current copy holds poison. -/
def repoison (s : State) (p v : Nat) : State :=
  s.updPlot p v (fun x => { x with poison := (s.frame (curFrame p x)).poison != 0 })

/-- A plot whose copy may be committed: complete, with RESYNC zero, or to be cancelled (R191, R196). -/
def Plot.ready (x : Plot) : Bool := x.cancel || (x.pend && x.resync == 0)

/-- A plot's pending change committed, or dropped where it was cancelled: a frame that the copy took is given back
(R195, R196). -/
def commitPlot (s : State) (p v : Nat) (keep2 : Bool) : State :=
  match s.plotEntry p v with
  | none => s
  | some x =>
    let s := if x.cancel then (if x.took then giveFrame s p v x.other else s)
      else
        let s := s.updPlot p v (fun y => { y with cur := BitVec.ofNat 2 x.other, dirty := 0 })
        if x.cur = 1 then giveFrame s p v 1 else if keep2 then s else giveFrame s p v 2
    repoison (s.updPlot p v Plot.settled) p v

/-- A MOVE's plots that can be committed, committed and counted (R195). -/
def commitMove (s : State) (p : Nat) (r : McRun) : State × McRun :=
  let keep2 := match objAny s p r.obj with | some o => o.keep2 | none => false
  r.awaiting.foldl (fun (a : State × McRun) v =>
    match a.1.plotEntry p v with
    | some x =>
      if x.ready then (commitPlot a.1 p v keep2, { a.2 with count := a.2.count + ofBool (!x.cancel) })
      else if x.copy then (a.1, { a.2 with awaiting := a.2.awaiting ++ [v] })
      else a
    | none => a) (s, { r with awaiting := [] })

/-- One started command at a commit: the state, the run, and whether it has completed (R191, R193). -/
def commitRun (s : State) (p : Nat) (r : McRun) : State × McRun × Bool :=
  match mcOp r.cmd with
  | 1 => match r.record with
    | some o => if r.todo = [] then (s.setObj p r.obj o, { r with count := o.nplots }, true) else (s, r, false)
    | none => (s, r, true)
  | 2 => match s.obj p r.obj with
    | some o => if o.leases = 0 then (dropObj s p r.obj, { r with count := o.nplots }, true) else (s, r, false)
    | none => (s, { r with status := 0x01 }, true)
  | 3 =>
    let (s, r) := commitMove s p r
    (s, r, decide (r.awaiting = []) && decide (r.todo = []))
  | 5 => match s.obj p r.obj with
    | some o => (s.setObj p r.obj (withPlace o (mcPlace r.cmd)), r, true)
    | none => (s, { r with status := 0x01 }, true)
  | _ => (s, r, false)

/-- The objects of a partition that have expired and hold no lease (R198, R251). -/
def expired (s : State) (p : Nat) : List Nat :=
  ((partObjs s p).filter (fun e => e.2.expiring && e.2.leases == 0)).map (·.1)

/-- Plots whose pending change no command in progress has: their MOVE was lost with its ring, and the plot table was kept (R191,
R383; log 50). -/
def loosePlots (s : State) (p : Nat) : List Nat :=
  ((partPlots s p).filter (fun e => e.2.ready &&
    !(s.part p).mcRuns.any (fun r => r.awaiting.contains e.1 || r.todo.contains e.1))).map (·.1)

/-- A plot's change committed under its own object's KEEP2. -/
def commitLoose (p : Nat) (s : State) (v : Nat) : State :=
  match s.plotEntry p v with
  | some x => commitPlot s p v (match objAny s p x.obj with | some o => o.keep2 | none => false)
  | none => s

/-- A change is ready to be committed: a launch or refill waits for the commit (R191). -/
def commitDue (s : State) (p : Nat) : Bool :=
  expired s p != [] || loosePlots s p != [] || (s.part p).mcRuns.any (fun r => match mcOp r.cmd with
    | 1 => r.todo == []
    | 2 => match s.obj p r.obj with | some o => o.leases == 0 | none => true
    | 3 => r.awaiting.any (fun v => match s.plotEntry p v with | some x => x.ready | none => true)
    | 5 => true
    | _ => false)

/-- The pending changes of a partition committed in command order, expired objects freed, and what has completed posted
(R191, R194, R198, R416). A command on an object that expiry has freed completes with MM-0x13. -/
def commitAll (s : State) (p : Nat) : State :=
  let s := (loosePlots s p).foldl (commitLoose p) s
  let (s, keep, done) := (s.part p).mcRuns.foldl (fun (a : State × List McRun × List McRun) r =>
    let (s, r, finished) := commitRun a.1 p r
    if finished then (s, a.2.1, a.2.2 ++ [r]) else (s, a.2.1 ++ [r], a.2.2)) (s, [], [])
  let gone := expired s p
  let s := gone.foldl (fun s o => dropObj s p o) s
  let lost := (keep.filter (fun r => gone.contains r.obj)).map (fun r => { r with status := 0x13 })
  let s := s.updPart p (fun x => { x with mcRuns := keep.filter (fun r => !gone.contains r.obj) })
  let s := { s with qps := s.qps.map (fun (e : Nat × QueuePair) =>
    (e.1, { e.2 with runs := e.2.runs.filter (fun r => !(r.part == p && gone.contains (mcObj r.cmd))) })) }
  let s := (done ++ lost).foldl (fun s r => mcComplete s p r.cmd r.obj r.status r.count) s
  let s := markSample s (16 + p) (usedFrames s p 7 1)
  mcSkip 256 p (markSample s (24 + p) (usedFrames s p 7 2))

/-! ### Copies -/

/-- The copy that migration makes may go on: no breach, and no load, fill, restore, drain or refill of the partition
(R17, R206). -/
def migrates (s : State) (p : Nat) : Bool :=
  let x := s.part p
  !bit s.breach 7 && !x.refilling && !x.restoring &&
    (match x.state with
     | .loading | .filling | .draining => false
     | _ => true)

/-- Sectors of a frame copied into another; a sector read as poisoned is written as poisoned (R199). -/
def copySectors (s : State) (src dst : Nat) (mask : BitVec 32) : State :=
  let f := s.frame src
  let g := s.frame dst
  let sectors := (List.range 32).filter (fun i => bit mask i)
  let cells := (f.mem.cells.filter (fun c => bit mask (c.1 / 65536))).foldl (fun (m : Mem) c => m.write c.1 c.2)
    { g.mem with cells := g.mem.cells.filter (fun c => !bit mask (c.1 / 65536)) }
  let poison := sectors.foldl (fun (a : BitVec 32) i =>
    if bit f.poison i then a ||| BitVec.ofNat 32 (2 ^ i) else a &&& ~~~BitVec.ofNat 32 (2 ^ i)) g.poison
  s.setFrame dst { mem := cells, poison := poison, mended := g.mended.filter (fun e => !bit mask e.1) }

/-- A sector of a frame marked poisoned, and its plot with it (R199). -/
def poisonSector (s : State) (p v frame o : Nat) : State :=
  let s := s.setFrame frame ((s.frame frame).spoil (BitVec.ofNat 32 (2 ^ (o / 65536 % 32))))
  s.updPlot p v (fun x => { x with poison := true })

/-- MM-0x09: uncorrectable data, logged with its device address (R199). -/
def logUncorrectable (s : State) (p addr obj : Nat) : State := logReason s .mm 0x09 2 0 (some p) (memDetail addr obj)

/-- Bytes counted as moved by migration (R214). -/
def countMoved (s : State) (n : Nat) : State := odCount s 0x1600 0x30 0 64 n

/-- Sectors in a mask. -/
def sectorCount (m : BitVec 32) : Nat := ((List.range 32).filter (fun i => bit m i)).length

/-- Sectors of a plot copied from its current copy to its other frame, with what the reads found (R195, R199): the state,
and whether data was lost. -/
def copyPlot (s : State) (p v : Nat) (mask : BitVec 32) (ecc : EccResult) (o : Nat) : State × Bool :=
  match s.plotEntry p v with
  | none => (s, false)
  | some x =>
    let src := curFrame p x
    let dst := frameKey p x.other (x.frameIn x.other)
    let s := countEcc s (channelOf s p x.where_.1 x.where_.2 o) p (v * plotBytes + o) ecc
    let s := countMoved (copySectors s src dst mask) (65536 * sectorCount mask)
    let lost := (s.frame src).poison &&& mask
    if ecc = .uncorrectable ∧ bit mask (o / 65536) then
      (logUncorrectable (poisonSector s p v dst o) p (v * plotBytes + o) x.obj, true)
    else if lost ≠ 0 then
      let i := (lowest (fun i => bit lost i) 0 32).getD 0
      (logUncorrectable (s.updPlot p v (fun x => { x with poison := true })) p (v * plotBytes + 65536 * i) x.obj, true)
    else (s, false)

/-! ### Digests (R212) -/

/-- The digest of a leaf. -/
def leafDigest (bs : List Byte) : List Byte := Crypto.sha256 (0#8 :: bs)

/-- One level up: pairs joined, a lone last node unchanged. -/
def levelUp : List (List Byte) → List (List Byte)
  | a :: b :: rest => Crypto.sha256 (1#8 :: a ++ b) :: levelUp rest
  | l => l

/-- The top node of a list of leaf digests. -/
def topNode : Nat → List (List Byte) → List Byte
  | 0, l => nth [] l 0
  | fuel + 1, l => if l.length ≤ 1 then nth [] l 0 else topNode fuel (levelUp l)

/-- The Merkle root of `len` bytes with these leaf digests. -/
def merkleRoot (len : Nat) (leaves : List (List Byte)) : List Byte :=
  Crypto.sha256 (2#8 :: leBytes 8 len ++ topNode leaves.length leaves)

/-- ROOT, CLEN and RVALID set (R193, R212). -/
def setRoot (s : State) (p o len : Nat) (leaves : List (List Byte)) : State :=
  match s.obj p o with
  | some x => s.setObj p o { x with root := merkleRoot len leaves, clen := len, rvalid := true }
  | none => s

/-- An INGEST's or DIGEST's range and DOBJ break the rules of R193 and R210. -/
def digestRefusal (s : State) (p : Nat) (x : Obj) (c : BitVec 512) : Nat :=
  match s.obj p (mcDobj c) with
  | none => 0x01
  | some d =>
    if d.expiring then 0x01
    else if mcOffset c % leafBytes ≠ 0 ∨ (mcRoot c ∧ mcOffset c ≠ 0) ∨ x.nplots * plotBytes < mcOffset c + mcLen c ∨
        d.nplots * plotBytes < 32 * (mcDleaf c + numLeaves (mcLen c)) then 0x0D else 0

end Sys2Proof.Machine
end

