-- ==== Sys2Proof/Machine/PartOps.lean ====
section
/-! DEFINITION. What the partition controller does for enables and jobs alike: PART_STAT, guarded writes, entering READY or
OFF (R166, R167, R170, R171, R294). -/
namespace Sys2Proof.Machine

/-- PART_STAT (R166). -/
def partStat (x : Part) : Nat :=
  x.code.toNat * 2 ^ 56 + x.lkind.toNat * 2 ^ 54 + x.lunit.toNat * 2 ^ 42 + x.lsub.toNat * 2 ^ 36 + x.lfold.toNat * 2 ^ 33 +
    x.stepNo.toNat * 2 ^ 4 + x.state.code

/-- PART_CTL as it reads (R166). -/
def partCtl (x : Part) : Nat := x.ctlImage.toNat * 2 ^ 48 + ofBool x.enable

/-- A requester may reach a partition's registers: PF0 of either port, the partition's VF, a keeper of the partition (R264,
R267, "Memory commands"). -/
def reachesPart (s : State) (src p : Nat) : Bool :=
  if src / 0x1000 = 3 then (partKeepers s p).contains (src % 0x1000)
  else (src / 0x1000 == 1 || src / 0x1000 == 2) && (src % 0x1000 == 0 || src % 0x1000 == p + 1)

/-- A requester may write a guarded register of a partition: it reaches the partition, or is a management session, and owns
SEM(8 + p) (R270, R274). -/
def mayGuard (s : State) (src p : Nat) : Bool :=
  owns s (8 + p) src && decide (shapeOf s p ≠ 0) &&
    (if src / 0x1000 = 4 then true
     else if src / 0x1000 = 3 then (partKeepers s p).contains (src % 0x1000)
     else src % 0x1000 == 0 || src % 0x1000 == p + 1)

/-- A refusal with an EN code: counted, and logged with PART_STAT after the verdict (R167, R177, R411). -/
def logEn (s : State) (p n : Nat) : State :=
  logReason (odCount s 0x1900 0x24 n 32) .en n 0 1 (some p) (partStat (s.part p))

/-- The partition's status after a verdict kept for VERDICT (R177). -/
def keepVerdict (s : State) (p : Nat) : State := odSet s 0x1900 0x23 p (partStat (s.part p))

/-- The partition has no enabled image and is OFF. -/
def becomeOff (s : State) (p : Nat) : State :=
  setPState (s.updPart p (fun x => { x with image := none, disabling := false, recheck := false, restoring := false })) p .off

/-- The partition would enter READY: a pending ENABLE = 0 takes it to OFF instead (R167); a drained job that is to be
discarded gets its record (R294); repeated checks show CHECKING (R170). -/
def becomeReady (s : State) (p : Nat) : State :=
  let x := s.part p
  let s := match x.drained with
    | some d => if d.discard || x.disabling then finishDrained s p stCancelled (reasonCode .jb 0x09) else s
    | none => s
  if x.disabling then becomeOff s p
  else if x.recheck then setPState s p .checking
  else setPState s p .ready

/-- The launch-state restore begins (R171). -/
def startRestore (s : State) (p : Nat) : State := s.updPart p (fun x => { x with restoring := true })

end Sys2Proof.Machine
end

