-- ==== Sys2Proof/Machine/Memory.lean ====
section
/-! DEFINITION. The memory commands and the events of migration (R191 to R199), scrub, channels (R180), sluice tables (R202)
and BAR4 (R183, R184). -/
namespace Sys2Proof.Machine

/-! ### The doorbell (R194) -/

/-- MC_DOORBELL: MC_TAIL written (R192, R194). -/
def mcDoorbell (src p tail : Nat) (s : State) : State :=
  if reachesPart s src p ∧ shapeOf s p ≠ 0 then
    mcSkip 256 p (s.updPart p (fun x => { x with mc := { x.mc with tail := tail % 256, total := x.mc.total + (tail % 256 + 256 - x.mc.tail) % 256 } }))
  else s

def execMcDoorbell (src p tail : Nat) (s : State) : Host.Outcome State Fault Refusal :=
  onSrcPart src p s (onDerived (mcDoorbell src p tail))

/-! ### The commands (R193) -/

/-- The refusal of a command on an object (R193, R198). -/
def objRefusal (o : Option Obj) : Nat := match o with | none => 0x01 | some x => if x.expiring then 0x13 else 0

/-- A run of `n` virtual plots that are free (R193). -/
def plotsFree (s : State) (p n v : Nat) : Bool :=
  decide (v + n ≤ sliceSize s p) && (partPlots s p).all (fun e => decide (e.1 < v ∨ v + n ≤ e.1))

/-- The number that an ALLOC takes: the one it names, or for 0xFFFF the lowest free one (R192, R193). -/
def allocNumber (s : State) (p : Nat) (c : BitVec 512) : Option Nat :=
  let free := fun o => (objAny s p o).isNone
  if mcObj c = 0xFFFF then lowest free 0 65536 else if free (mcObj c) then some (mcObj c) else none

/-- The refusal of an ALLOC (R189, R190, R193, R213; log 20). -/
def allocRefusal (p : Nat) (s : State) (c : BitVec 512) : Nat :=
  if mcCount c = 0 then 0x10
  else if placeRefusal (mcPlace c) ≠ 0 then placeRefusal (mcPlace c)
  else if (allocNumber s p c).isNone then (if mcObj c = 0xFFFF then 0x02 else 0x01)
  else if (lowest (plotsFree s p (mcCount c)) 0 (sliceSize s p)).isNone then 0x03
  else frameRefusal s p (nbits (mcPlace c) 7 6) (nbits (mcPlace c) 1 0) (mcCount c)

/-- A plot of an ALLOC: in HOME, its frame taken next. -/
def Plot.fresh (o home : Nat) : Plot :=
  { obj := o, cur := BitVec.ofNat 2 home, has1 := false, has2 := false, copy := false, pend := false, poison := false,
    t1frame := 0, t2frame := 0, resync := 0, dirty := 0, took := false, cancel := false }

/-- An ALLOC starts: plots, frames and the record that the commit will set; zeroing goes on (R193). -/
def allocStart (p : Nat) (s : State) (c : BitVec 512) : State :=
  let o := (allocNumber s p c).getD 0
  let home := nbits (mcPlace c) 1 0
  let (v, s) := choose s (plotsFree s p (mcCount c)) (sliceSize s p)
  let v := v.getD 0
  let vs := range v (mcCount c)
  let s := vs.foldl (fun s v => takeFrame (s.setPlot p v (Plot.fresh o home)) p v home) s
  let rec_ : Obj := withPlace
    { expiring := false, vbase := v, nplots := mcCount c, ttl := mcTtl c, clen := 0, root := List.replicate 32 0,
      rvalid := false, qclass := 0, keep2 := false, pin := false, allow := 0, home := 0, leases := 0 } (mcPlace c)
  addMcRun s p { cmd := c, obj := o, todo := vs, awaiting := [], record := some rec_, count := 0, status := 0 }

/-- ALLOC (R193). -/
def execAlloc (p : Nat) (s : State) : Host.Outcome State Fault Refusal :=
  onPart p s (onDerived (mcTake 1 p noWait (allocRefusal p) (allocStart p)))

/-- A run that has just started on a command's object. -/
def McRun.start (c : BitVec 512) (todo awaiting : List Nat) : McRun :=
  { cmd := c, obj := mcObj c, todo := todo, awaiting := awaiting, record := none, count := 0, status := 0 }

/-- A FREE waits for every command in progress on its object (R196). -/
def freeWait (p : Nat) (s : State) (c : BitVec 512) : Bool :=
  (s.part p).mcRuns.any (fun r => r.obj == mcObj c ||
    ((mcOp r.cmd == 6 || mcOp r.cmd == 7) && mcDobj r.cmd == mcObj c))

/-- The refusal of a FREE (R197). -/
def freeRefusal (p : Nat) (s : State) (c : BitVec 512) : Nat :=
  let e := objRefusal (objAny s p (mcObj c))
  if e ≠ 0 then e else if objHeld s p (mcObj c) then 0x08 else 0

/-- FREE: applied at the commit (R193). -/
def execFree (p : Nat) (s : State) : Host.Outcome State Fault Refusal :=
  onPart p s (onDerived (mcTake 2 p (freeWait p) (freeRefusal p) (fun s c =>
    addMcRun s p (McRun.start c (match objAny s p (mcObj c) with | some x => objPlots x | none => []) []))))

/-- A command on a range of plots waits for the work of earlier ones on them (R196). -/
def rangeWait (p : Nat) (s : State) (c : BitVec 512) : Bool :=
  match objAny s p (mcObj c) with
  | some x => decide (mcFirst c + mcCount c ≤ x.nplots) && plotsBusy s p (rangePlots x c)
  | none => false

/-- The object may be moved to a tier although it is held: the tier its reference states (R197). -/
def heldMove (s : State) (p o t : Nat) : Bool :=
  match (s.part p).image with
  | some im => (imageHandle s p).isSome && im.refs.contains (o, t)
  | none => false

/-- The frames that a MOVE of these plots takes in a tier. -/
def moveNeed (s : State) (p t : Nat) (vs : List Nat) : Nat :=
  (vs.filter (fun v => match s.plotEntry p v with
    | some x => x.cur.toNat != t && !x.copy && !x.has t
    | none => false)).length

/-- A MOVE to a tier takes one of the plots out of HOME; those already in the tier are skipped (R193, R197). -/
def leavesHome (s : State) (p : Nat) (x : Obj) (t : Nat) (vs : List Nat) : Bool :=
  x.home.toNat != t && vs.any (fun v => match s.plotEntry p v with | some y => y.cur.toNat != t | none => false)

/-- The refusal of a MOVE (R189, R190, R193, R197, R200; log 20). -/
def moveRefusal (p : Nat) (s : State) (c : BitVec 512) : Nat :=
  let t := mcTier c
  match objAny s p (mcObj c) with
  | none => 0x01
  | some x =>
    if x.expiring then 0x13
    else if t = 0 ∨ t = 3 then 0x10
    else if x.nplots < mcFirst c + mcCount c then 0x0F
    else if !migrationWay s p then 0x0B
    else if objHeld s p (mcObj c) ∧ ¬ heldMove s p (mcObj c) t then 0x08
    else if ¬ bit x.allow (t - 1) then 0x05
    else if x.pin ∧ leavesHome s p x t (rangePlots x c) then 0x06
    else frameRefusal s p x.qclass t (moveNeed s p t (rangePlots x c))

/-- One plot of a MOVE (R195, R196): skipped where it is, its pending change toward the other tier cancelled, a cancelled
change toward TIER taken up again, or its copy begun. The state, and whether it is to be copied and awaits a commit. -/
def movePlot (s : State) (p t v : Nat) : State × Bool × Bool :=
  match s.plotEntry p v with
  | none => (s, false, false)
  | some x =>
    if x.cur.toNat = t then
      if x.copy then (s.updPlot p v (fun x => { x with cancel := true }), false, true) else (s, false, false)
    else if x.copy then (s.updPlot p v (fun x => { x with cancel := false }), false, true)
    else
      let s' := if x.has t then s else takeFrame s p v t
      (s'.updPlot p v (fun y => { y with copy := true, took := !x.has t, resync := 0 }), true, true)

/-- A MOVE starts; one with no plot to copy or to await completes at once. -/
def moveStart (p : Nat) (s : State) (c : BitVec 512) : State :=
  match objAny s p (mcObj c) with
  | none => s
  | some x =>
    let (s, todo, awaiting) := (rangePlots x c).foldl (fun (a : State × List Nat × List Nat) v =>
      let (s, copy, wait) := movePlot a.1 p (mcTier c) v
      (s, if copy then a.2.1 ++ [v] else a.2.1, if wait then a.2.2 ++ [v] else a.2.2)) (s, [], [])
    if awaiting = [] then mcComplete s p c (mcObj c) 0 0 else addMcRun s p (McRun.start c todo awaiting)

/-- The refusal of a CLEAN (R193, R200). -/
def cleanRefusal (p : Nat) (s : State) (c : BitVec 512) : Nat :=
  match objAny s p (mcObj c) with
  | none => 0x01
  | some x =>
    if x.expiring then 0x13 else if x.nplots < mcFirst c + mcCount c then 0x0F else if !migrationWay s p then 0x0B else 0

/-- The sectors of a plot that a CLEAN writes back (R193). -/
def Plot.toClean (x : Plot) : BitVec 32 := if x.cur = 1 ∧ x.has2 then x.dirty else 0

/-- A CLEAN starts; one with no DIRTY sector completes at once. -/
def cleanStart (p : Nat) (s : State) (c : BitVec 512) : State :=
  match objAny s p (mcObj c) with
  | none => s
  | some x =>
    let vs := (rangePlots x c).filter (fun v => match s.plotEntry p v with | some y => y.toClean != 0 | none => false)
    if vs = [] then mcComplete s p c (mcObj c) 0 0 else addMcRun s p (McRun.start c vs [])

/-- CLEAN (R193). -/
def execClean (p : Nat) (s : State) : Host.Outcome State Fault Refusal :=
  onPart p s (onDerived (mcTake 4 p (rangeWait p) (cleanRefusal p) (cleanStart p)))

/-- A PLACE of a held object that R197 lets pass. -/
def heldPlace (x : Obj) (c : BitVec 512) : Bool :=
  mcPlace c == placeBits x && (mcTkeep c || mcTtl c == 0 || (x.ttl != 0 && decide (x.ttl ≤ mcTtl c)))

/-- The refusal of a PLACE (R193, R197, R198). -/
def placeCommandRefusal (p : Nat) (s : State) (c : BitVec 512) : Nat :=
  match s.obj p (mcObj c) with
  | none => 0x01
  | some x =>
    if x.expiring then 0x13
    else if placeRefusal (mcPlace c) ≠ 0 then placeRefusal (mcPlace c)
    else if objHeld s p (mcObj c) ∧ ¬ heldPlace x c then 0x08 else 0

/-- A PLACE starts: the TTL is written at once, the placement bits at the commit (R193). -/
def placeStart (p : Nat) (s : State) (c : BitVec 512) : State :=
  let s := match s.obj p (mcObj c) with
    | some x => if mcTkeep c then s else s.setObj p (mcObj c) { x with ttl := mcTtl c }
    | none => s
  addMcRun s p (McRun.start c [] [])

/-- The refusal of a DIGEST (R193, R197). -/
def digestCommandRefusal (p : Nat) (s : State) (c : BitVec 512) : Nat :=
  match s.obj p (mcObj c) with
  | none => 0x01
  | some x => if x.expiring then 0x13 else if mcRoot c ∧ objHeld s p (mcObj c) then 0x08 else digestRefusal s p x c

/-- DIGEST: reading starts (R193). -/
def execDigest (p : Nat) (s : State) : Host.Outcome State Fault Refusal :=
  onPart p s (onDerived (mcTake 7 p noWait (digestCommandRefusal p) (fun s c =>
    addMcRun s p (McRun.start c (match s.obj p (mcObj c) with
      | some x => if mcDmode c then [] else bytePlots x (mcOffset c) (mcLen c)
      | none => []) []))))

/-! ### Work done -/

/-- ZEROING_WRITTEN: the frame of an ALLOC's plot is zero (R193, R196), written in the slots that serve migration (R201, R203). -/
def zeroingWritten (p v : Nat) (s : State) : State :=
  match findMcRun s p (fun r => mcOp r.cmd == 1 && r.todo.contains v), s.plotEntry p v with
  | some i, some x =>
    if migrates s p && migServed s p x.where_.1 then
      (s.setFrame (curFrame p x) Frame.init).updPart p (fun y =>
        { y with mcRuns := y.mcRuns.modify i (fun r => { r with todo := r.todo.filter (· != v) }) })
    else s
  | _, _ => s

def execZeroingWritten (p v : Nat) (s : State) : Host.Outcome State Fault Refusal :=
  onPart p s (onDerived (zeroingWritten p v))

/-- The sectors that a copy in progress still has to bring over (R195): those of RESYNC once it is PEND; the DIRTY ones
for a demotion to a polder frame held before; else the whole plot. -/
def Plot.toCopy (x : Plot) : BitVec 32 :=
  if x.pend then x.resync else if x.cur = 1 ∧ !x.took then x.dirty ||| x.resync else BitVec.allOnes 32

/-- A copy between the tiers is served in both (R201, R203). -/
def copyServed (s : State) (p : Nat) : Bool := migServed s p 1 && migServed s p 2

/-- PLOT_COPY_DONE: the sectors are copied in the slots that serve migration, RESYNC is cleared and PEND set (R195, R203); a
plot with no sector to copy moves no data. `o` is where an uncorrectable read lay (R199). -/
def plotCopyDone (p v o : Nat) (ecc : EccResult) (s : State) : State :=
  match s.plotEntry p v with
  | none => s
  | some x =>
    if x.copy && !x.cancel && (!x.pend || x.resync != 0) && migrates s p && (x.toCopy == 0 || copyServed s p) then
      let (s, lost) := copyPlot s p v x.toCopy ecc (o % plotBytes)
      let s := s.updPlot p v (fun x => { x with pend := true, resync := 0 })
      match findMcRun s p (fun r => mcOp r.cmd == 3 && (r.todo.contains v || r.awaiting.contains v)) with
      | some i => s.updPart p (fun y => { y with mcRuns := y.mcRuns.modify i (fun r =>
          { r with todo := r.todo.filter (· != v), status := if lost then 0x09 else r.status }) })
      | none => s
    else s

def execPlotCopyDone (p v o : Nat) (ecc : EccResult) (s : State) : Host.Outcome State Fault Refusal :=
  onPart p s (onDerived (plotCopyDone p v o ecc))

/-- WRITE_BACK_DONE: the CLEAN that works on the plot of a device address has written its DIRTY sectors back in the slots that
serve migration, DIRTY is cleared, and it completes (R193, R203); the address is where an uncorrectable read lay (R199). -/
def writeBackDone (p addr : Nat) (ecc : EccResult) (s : State) : State :=
  match findMcRun s p (fun r => mcOp r.cmd == 4 && r.todo.contains (addr / plotBytes)) with
  | none => s
  | some i =>
    if migrates s p && copyServed s p then
      let vs := match s.mcRun p i with | some r => r.todo | none => []
      let (s, lost) := vs.foldl (fun (a : State × Bool) v =>
        match a.1.plotEntry p v with
        | some x =>
          let (s, lost) := copyPlot a.1 p v x.toClean (if v = addr / plotBytes then ecc else .good) (addr % plotBytes)
          (s.updPlot p v (fun x => { x with dirty := x.dirty &&& ~~~x.toClean }), a.2 || lost)
        | none => a) (s, false)
      let s := s.updPart p (fun y => { y with mcRuns := y.mcRuns.modify i (fun r => { r with status := if lost then 0x09 else 0 }) })
      mcSkip 256 p (endMcRun s p i)
    else s

def execWriteBackDone (p addr : Nat) (ecc : EccResult) (s : State) : Host.Outcome State Fault Refusal :=
  onPart p s (onDerived (writeBackDone p addr ecc))

/-- Where a DIGEST finds its leaf `i`: object, offset and length (R193). -/
def leafRange (c : BitVec 512) (i : Nat) : Nat × Nat × Nat :=
  if mcDmode c then (mcDobj c, 32 * (mcDleaf c + i), 32)
  else (mcObj c, mcOffset c + leafBytes * i, min leafBytes (mcLen c - leafBytes * i))

/-- The leaves of a DIGEST from number `i` on: each read, and in DMODE 0 its digest stored, up to the first whose bytes hold
an uncorrectable or poisoned word (R193, R199). The state, the digests, and the object and device address of that word. -/
def digestLeaves (p : Nat) (c : BitVec 512) (bad : Option Nat) : Nat → Nat → State → List (List Byte) →
    State × List (List Byte) × Option (Nat × Nat)
  | 0, _, s, ds => (s, ds, none)
  | fuel + 1, i, s, ds =>
    let (o, ofs, n) := leafRange c i
    match s.obj p o with
    | none => (s, ds, none)
    | some x =>
      let a := objAddr x ofs
      let hit : Option Nat := match bad with
        | some b => if a ≤ b ∧ b < a + n then some b else none
        | none => none
      match hit.or ((chunksOf a n).findSome? (fun ch =>
          if poisoned s p (ch.1 * plotBytes + ch.2.1) ch.2.2 then some (ch.1 * plotBytes + ch.2.1) else none)) with
      | some b => (s, ds, some (b, o))
      | none =>
        let bs := devRead s p a n
        if mcDmode c then digestLeaves p c bad fuel (i + 1) s (ds ++ [bs])
        else
          let d := leafDigest bs
          digestLeaves p c bad fuel (i + 1) (objWrite s p (mcDobj c) (32 * (mcDleaf c + i)) d) (ds ++ [d])

/-- The reads of a DIGEST are served: every tier that holds bytes that it reads serves migration (R201, R203). -/
def digestServed (s : State) (p : Nat) (r : McRun) : Bool :=
  (if mcDmode r.cmd then digestPlots s p r else r.todo).all (fun v => match s.plot p v with
    | some x => migServed s p x.where_.1
    | none => true)

/-- DIGEST_STORED: a DIGEST of an object ends (R193, R199); the address is where an uncorrectable read lay. In DMODE 1 no
leaf is stored, so an error leaves its count at 0. -/
def digestStored (p o addr : Nat) (ecc : EccResult) (s : State) : State :=
  match findMcRun s p (fun r => mcOp r.cmd == 7 && r.obj == o) with
  | none => s
  | some i =>
    match s.mcRun p i with
    | none => s
    | some r =>
      if !(migrates s p && digestServed s p r) then s
      else
        let c := r.cmd
        let s := countPlotEcc s p (addr / plotBytes) (addr % plotBytes) ecc
        let (s, ds, bad) := digestLeaves p c (if ecc = .uncorrectable then some addr else none) (numLeaves (mcLen c)) 0 s []
        let (s, status) := match bad with
          | some b => (logUncorrectable s p b.1 b.2, 0x09)
          | none => (if mcRoot c then setRoot s p o (mcLen c) ds else s, 0)
        let count := if bad.isSome ∧ mcDmode c then 0 else ds.length
        mcSkip 256 p (endMcRun (setMcRun s p i { r with count := count, status := status }) p i)

def execDigestStored (p o addr : Nat) (ecc : EccResult) (s : State) : Host.Outcome State Fault Refusal :=
  onPart p s (onDerived (digestStored p o addr ecc))

/-- COMMIT (R191): at a step boundary only. -/
def commit (p : Nat) (s : State) : State := if stepBoundary (s.part p) ∧ ¬ bit s.breach 7 then commitAll s p else s


/-! ### Scrub and channels -/

/-- Bytes of a scrub word: a granule of the tier (R185, R201). -/
def granule (tier : Nat) : Nat := if tier = 1 then 64 else 128

/-- Frames of a partition in a tier, the reserved ones included (R181, R189). -/
def allFrames (s : State) (p tier : Nat) : Nat := if tier = 2 ∧ polderOut s p then 0 else tierFrames s p tier + 2

/-- The word is the last of a pass on its channel: the last frame's last granule that the channel holds (R199; log 21). -/
def scrubLast (s : State) (p tier ch frame o : Nat) : Bool :=
  let g := granule tier
  let n := plotBytes / g
  decide (frame + 1 = allFrames s p tier) &&
    (range (o / g + 1) (min (n - (o / g + 1)) (numControllers s p tier))).all (fun k => channelOf s p tier frame (k * g) != ch)

/-- The plot that holds a frame. -/
def plotOfFrame (s : State) (p tier f : Nat) : Option (Nat × Plot) :=
  (partPlots s p).find? (fun e => e.2.has tier && e.2.frameIn tier == f)

/-- SCRUB_READ: a word of a frame is read on a channel; a corrected one is rewritten and counted, an uncorrectable one
poisons its sector (R199, R216). -/
def scrubRead (ch p frame o : Nat) (ecc : EccResult) (s : State) : State :=
  let tier := if 16 ≤ ch then 1 else 2
  let o := o % plotBytes
  let mine := if tier = 1 then (partStacks s p).contains (ch - 16) else (partChannels s p).contains ch
  if mine ∧ frame < allFrames s p tier ∧ channelOf s p tier frame o = ch then
    let s := match plotOfFrame s p tier frame with
      | some (v, x) =>
        let s := countEcc s ch p (v * plotBytes + o) ecc
        if ecc = .uncorrectable then
          logUncorrectable (poisonSector s p v (frameKey p tier frame) o) p (v * plotBytes + o) x.obj
        else s
      | none => match ecc with
        | .good => s
        | .corrected => odCount s (0x5000 + ch) 0x03 0 32
        | .uncorrectable => odCount s (0x5000 + ch) 0x04 0 32
    if scrubLast s p tier ch frame o then odCount s (0x5000 + ch) 0x05 0 32 else s
  else s

def execScrubRead (ch p frame o : Nat) (ecc : EccResult) (s : State) : Host.Outcome State Fault Refusal :=
  if isMemChannel ch then onPart p s (onDerived (scrubRead ch p frame o ecc)) else .refused (.noSuchUnit "channel" ch)

/-- A plot of a partition that has lost its polder (R180). A copy toward the polder ends with the frame it goes to. -/
def losePolder (s : State) (p v : Nat) : State :=
  match s.plotEntry p v with
  | none => s
  | some x =>
    if x.cur = 1 then
      if x.has2 then (giveFrame s p v 2).updPlot p v (fun x => { x.settled with dirty := 0 }) else s
    else
      let k := curFrame p x
      (s.setFrame k ((s.frame k).spoil (BitVec.allOnes 32))).updPlot p v (fun x => { x with poison := true })

/-- A MOVE toward a polder that is lost drops the plots it was copying there, and completes with MM-0x12 (log 22). -/
def dropDemotions (s : State) (p : Nat) : State :=
  let toPolder := fun (r : McRun) => mcOp r.cmd == 3 && mcTier r.cmd == 2
  let lost := ((s.part p).mcRuns.filter toPolder).map (fun r => { r with status := 0x12 })
  let s := s.updPart p (fun x => { x with mcRuns := x.mcRuns.filter (fun r => !toPolder r) })
  mcSkip 256 p (lost.foldl (fun s r => mcComplete s p r.cmd r.obj r.status r.count) s)

/-- The plots of a partition lose the polder (R180). -/
def polderPlotsLost (s : State) (p : Nat) : State :=
  dropDemotions ((partPlots s p).foldl (fun s e => losePolder s p e.1) s) p

/-- The polder of a partition is lost: its plots, and its running job where it has one (R180). -/
def polderLost (s : State) (p : Nat) : State :=
  let s := polderPlotsLost s p
  if (s.part p).state = .busy then abortJob s p .mm 0x12 0 true true else s

/-- A DDR5 channel out of service (R180): MM-0x12 is logged by the partition stop, or by itself where no job runs. -/
def channelOut (ch : Nat) (s : State) : State :=
  let was := od s (0x5000 + ch) 0x01
  let s := odSet s (0x5000 + ch) 0x01 0 3
  match partOfChannel s ch with
  | some p =>
    let s := if (s.part p).state = .busy ∧ (s.part p).fault.isNone ∧ was = 2 then s
      else logReason s .mm 0x12 4 0 (some p) 0
    if was = 2 then polderLost s p else s
  | none => logReason s .mm 0x12 4 0 none 0

/-- CHANNEL_OUT_OF_SERVICE: a channel that trains or serves goes out of service. -/
def execChannelOutOfService (ch : Nat) (s : State) : Host.Outcome State Fault Refusal :=
  onUnit (decide (ch < numChannels s.boot.assembly)) "channel" ch s (onDerived fun s =>
    if od s (0x5000 + ch) 0x01 = 3 then s else channelOut ch s)

/-! ### Sluice tables (R202) -/

/-- The dictionary elements of a partition's sluice tables. -/
def tableKeys (s : State) (p : Nat) : List Nat :=
  (partStacks s p).flatMap (fun st => (List.range 32).map (fun c => odKey 0x1600 0x20 (32 * st + c))) ++
    (partChannels s p).map (fun ch => odKey 0x1600 0x21 ch)

/-- SLUICE_TABLE_APPLY: at a period start with the partition at a step boundary, its stored tables take effect, all
together; an enabled partition then repeats steps 14 and 15 before its next launch, showing CHECKING (R170, R202). -/
def sluiceTableApply (p : Nat) (s : State) : State :=
  let x := s.part p
  let keys := tableKeys s p
  if stepBoundary x && s.inForce.any (fun e => keys.contains e.1) then
    let s := { s with inForce := s.inForce.filter (fun e => !keys.contains e.1) }
    if enabled x then
      let s := s.updPart p (fun x => { x with recheck := true })
      if x.state = .ready then setPState s p .checking else s
    else s
  else s

def execSluiceTableApply (p : Nat) (s : State) : Host.Outcome State Fault Refusal := onPart p s (onDerived (sluiceTableApply p))

/-! ### BAR4 (R183, R184, R269) -/

/-- The partition that a function's BAR4 window shows: a VF's own (R269). -/
def bar4Part (s : State) (f : Nat) : Nat := if f % 0x1000 = 0 then bits (s.fn f).bar4 63 61 else f % 0x1000 - 1

/-- The device address of a byte of the window (R269). -/
def bar4Addr (s : State) (f ofs : Nat) : Nat := bits (s.fn f).bar4 51 36 * 2 ^ 36 + ofs

/-- The tier-0 window is open (R184). -/
def windowOpen (x : Part) : Bool :=
  match x.state with
  | .off | .ready | .refused | .halted => true
  | _ => false

/-- A range of the tier-0 window cut at cell boundaries: address and length. -/
def windowChunks : Nat → Nat → Nat → List (Nat × Nat)
  | 0, _, _ => []
  | fuel + 1, a, n =>
    if n = 0 then []
    else
      let m := min n (2 ^ 20 - a % 2 ^ 20)
      (a, m) :: windowChunks fuel (a + m) (n - m)

/-- The bytes of a window chunk that lie in a bank of the partition while the window is open. -/
def windowBytes (s : State) (p a n : Nat) : Nat :=
  if windowOk s p a ∧ windowOpen (s.part p) then min n (bankBytes - a % 2 ^ 20) else 0

/-- A BAR4 access is counted once where a byte of it is not reached (R183, R184). -/
def countBar4 (s : State) (ok : Bool) : State := if ok then s else { s with bar4Bad := s.bar4Bad + 1 }

/-- The bytes of a BAR4 read, and whether every byte was reached. -/
def bar4Get (s : State) (p a n : Nat) : List Byte × Bool :=
  if a / 2 ^ 50 = 3 then
    (windowChunks (n / 2 ^ 20 + 2) a n).foldl (fun (r : List Byte × Bool) c =>
      let k := windowBytes s p c.1 c.2
      let cell := s.cell (c.1 / 2 ^ 20 % 4096)
      (r.1 ++ cell.tier0.readN 0 (c.1 % 2 ^ 20) k ++ List.replicate (c.2 - k) 0, r.2 && decide (k = c.2))) ([], true)
  else (devRead s p a n, inRange s p a n)

/-- BAR4_READ (R183, R184, R269). -/
def bar4Read (f ofs n : Nat) (s : State) : State :=
  if bit (s.fn f).bar4 60 then
    let r := bar4Get s (bar4Part s f) (bar4Addr s f ofs) n
    (countBar4 s r.2).send (.readData f r.1)
  else s.send (.readData f (List.replicate n 0))

def execBar4Read (f ofs n : Nat) (s : State) : Host.Outcome State Fault Refusal := onFn f s (onDerived (bar4Read f ofs n))

/-- A write to the tier-0 window. -/
def windowWrite (s : State) (p a : Nat) (bs : List Byte) : State :=
  let (s, ok, _) := (windowChunks (bs.length / 2 ^ 20 + 2) a bs.length).foldl
    (fun (r : State × Bool × List Byte) c =>
      let k := windowBytes r.1 p c.1 c.2
      let s := if k = 0 then r.1
        else r.1.updCell (c.1 / 2 ^ 20 % 4096) (fun x => x.bankWrite (c.1 % 2 ^ 20) (r.2.2.take k))
      (s, r.2.1 && decide (k = c.2), r.2.2.drop c.2)) (s, true, bs)
  countBar4 s ok

/-- BAR4_WRITE (R183, R184, R269): bytes of protected objects are discarded and logged (R176). -/
def bar4Write (f ofs : Nat) (bs : List Byte) (s : State) : State :=
  if bit (s.fn f).bar4 60 then
    let p := bar4Part s f
    let a := bar4Addr s f ofs
    if a / 2 ^ 50 = 3 then windowWrite s p a bs
    else countBar4 (guardedWrite s p a bs) (inRange s p a bs.length)
  else s

def execBar4Write (f ofs : Nat) (bs : List Byte) (s : State) : Host.Outcome State Fault Refusal :=
  onFn f s (onDerived (bar4Write f ofs bs))

end Sys2Proof.Machine
end

