-- ==== Sys2Proof/Machine/Ingest.lean ====
section
/-! DEFINITION. Ingest: queue pairs, INGEST, incoming RDMA WRITEs and the ingest ports (R207 to R212, R215). -/
namespace Sys2Proof.Machine

/-! ### Contexts and windows -/

/-- The context of a queue pair (R209). -/
def qpCtx (s : State) (q : Nat) : BitVec 512 := BitVec.ofNat 512 (od s 0x1700 0x10 q)

def qpSpsn (c : BitVec 512) : Nat := bits c 487 464
def qpRpsn (c : BitVec 512) : Nat := bits c 463 440
def qpPart (c : BitVec 512) : Nat := bits c 439 437
def qpValid (c : BitVec 512) : Bool := bit c 436
def qpPort (c : BitVec 512) : Nat := bits c 435 435
def qpPmtu (c : BitVec 512) : Nat := bits c 434 432
def qpRetry (c : BitVec 512) : Nat := bits c 425 423
def qpTimeout (c : BitVec 512) : Nat := bits c 419 415
def qpMaxRd (c : BitVec 512) : Nat := bits c 414 411 + 1

/-- Bytes of a packet of a path MTU code (R209). -/
def mtuBytes (pmtu : Nat) : Nat := 128 * 2 ^ pmtu

/-- A context that a SET may store (R209): no reserved field, and while valid a PMTU and a TIMEOUT that are not refused. -/
def qpCtxOk (c : BitVec 512) : Bool :=
  bits c 422 420 == 0 && bits c 407 400 == 0 && bits c 223 0 == 0 &&
    decide (3 ≤ qpPmtu c ∧ qpPmtu c ≤ 5) && decide (qpTimeout c ≠ 0)

/-- An ingest window (R215). -/
def window (s : State) (w : Nat) : BitVec 256 := BitVec.ofNat 256 (od s 0x1700 0x20 w)

def winValid (w : BitVec 256) : Bool := bit w 255
def winPart (w : BitVec 256) : Nat := bits w 254 252
def winQp (w : BitVec 256) : Nat := bits w 251 244
def winObj (w : BitVec 256) : Nat := bits w 243 228
def winKey (w : BitVec 256) : Nat := bits w 227 196
def winOfs (w : BitVec 256) : Nat := bits w 195 132
def winLen (w : BitVec 256) : Nat := bits w 131 68
def winBase (w : BitVec 256) : Nat := bits w 67 4

/-! ### INGEST (R210) -/

/-- Bytes of the READ that starts `o` bytes into a range of `len`: up to 1 MiB (R210). -/
def readBytes (len o : Nat) : Nat := min (2 ^ 20) (len - o)

/-- Packets of a response of `n` bytes. -/
def respPackets (c : BitVec 512) (n : Nat) : Nat := ceilDiv n (mtuBytes (qpPmtu c))

/-- READs asked for and not wholly answered. -/
def outstanding (r : IngestRun) : Nat := ceilDiv r.asked (2 ^ 20) - r.landed / 2 ^ 20

/-- Bytes are on their way to a run: it has a way of the staging store (R200; log 92). -/
def IngestRun.reading (r : IngestRun) : Bool := decide (r.landed < r.asked)

/-- Ways of a partition that ingest has in use through queue pairs other than `q`. -/
def waysInUse (s : State) (p q : Nat) : Nat :=
  (s.qps.filter (fun e => e.1 != q && (match e.2.runs with | r :: _ => r.part == p && r.reading | [] => false))).length

/-- READs are issued in address order while fewer than the queue pair's limit are outstanding, and no more ways than the
partition's ingest may hold are in use (R200, R208, R210). -/
def issueReads (q : Nat) : Nat → State → State
  | 0, s => s
  | fuel + 1, s =>
    let x := s.qp q
    match x.runs with
    | r :: rs =>
      let c := qpCtx s q
      let n := readBytes (mcLen r.cmd) r.asked
      if x.state = 1 ∧ 0 < n ∧ outstanding r < qpMaxRd c ∧ (r.reading ∨ waysInUse s r.part q < ingestLimit s r.part) then
        let s := s.send (.rdma q 0 x.sendPsn (mcRva r.cmd + r.asked) n)
        issueReads q fuel (s.updQp q (fun x =>
          { x with sendPsn := x.sendPsn + BitVec.ofNat 24 (respPackets c n),
                   runs := { r with asked := r.asked + n } :: rs }))
      else s
    | [] => s

/-- An INGEST that completes, with its run on the queue pair (R194). -/
def endIngest (s : State) (q : Nat) (r : IngestRun) (status : Nat) : State :=
  let s := s.updQp q (fun x => { x with runs := x.runs.erase r })
  match findMcRun s r.part (fun m => m.cmd == r.cmd && mcOp m.cmd == 6) with
  | some i =>
    let s := s.updPart r.part (fun y => { y with mcRuns := y.mcRuns.modify i (fun m =>
      { m with status := status, count := r.digests.length }) })
    mcSkip 256 r.part (endMcRun s r.part i)
  | none => s

/-- A leaf is complete: its digest is written to DOBJ (R210, R212). -/
def closeLeaf (s : State) (r : IngestRun) : State × IngestRun :=
  let d := leafDigest r.leaf
  (objWrite s r.part (mcDobj r.cmd) (32 * (mcDleaf r.cmd + r.digests.length)) d,
    { r with leaf := [], digests := r.digests ++ [d] })

/-- A run that has landed all its bytes forms its root, if asked, and completes (R193, R210). -/
def finishIngest (s : State) (q : Nat) (r : IngestRun) : State :=
  let s := if mcRoot r.cmd then setRoot s r.part (mcObj r.cmd) (mcLen r.cmd) r.digests else s
  endIngest s q r 0

/-- The next INGEST of a queue pair goes on, once the first has ended; a range of no bytes has one leaf over none (R193). -/
def nextIngest (q : Nat) : Nat → State → State
  | 0, s => s
  | fuel + 1, s =>
    match (s.qp q).runs with
    | r :: rs =>
      if mcLen r.cmd = 0 then
        let (s, r') := closeLeaf s r
        let s := s.updQp q (fun x => { x with runs := r' :: rs })
        nextIngest q fuel (finishIngest s q r')
      else issueReads q 16 s
    | [] => s

/-- The runs of a partition that waited for a way go on (R200). -/
def resumeIngests (s : State) (p : Nat) : State :=
  (s.qps.map (·.1)).foldl (fun s q => match (s.qp q).runs with
    | r :: _ => if r.part = p then nextIngest q 16 s else s
    | [] => s) s

/-- The refusal of an INGEST (R193, R197, R200, R209, R210). -/
def ingestRefusal (p : Nat) (s : State) (c : BitVec 512) : Nat :=
  match s.obj p (mcObj c) with
  | none => 0x01
  | some x =>
    let ctx := qpCtx s (mcQp c)
    if x.expiring then 0x13
    else if objHeld s p (mcObj c) then 0x08
    else if digestRefusal s p x c ≠ 0 then digestRefusal s p x c
    else if !ingestWay s p then 0x0B
    else if (s.qp (mcQp c)).state = 1 ∧ qpPart ctx = p then 0 else 0x0C

/-- An INGEST starts: it reads through its queue pair once earlier ones there have ended. -/
def ingestStart (p : Nat) (s : State) (c : BitVec 512) : State :=
  let vs := match s.obj p (mcObj c) with | some x => bytePlots x (mcOffset c) (mcLen c) | none => []
  let s := addMcRun s p (McRun.start c vs [])
  let idle := (s.qp (mcQp c)).runs.isEmpty
  let s := s.updQp (mcQp c) (fun x =>
    { x with runs := x.runs ++ [{ part := p, cmd := c, asked := 0, landed := 0, leaf := [], digests := [] }] })
  if idle then nextIngest (mcQp c) 1 s else s

/-- INGEST (R210); it waits while its port is held in reset (R394). Runs that stand for want of a way try again first. -/
def execIngest (p : Nat) (s : State) : Host.Outcome State Fault Refusal :=
  onPart p s (onDerived fun s => mcTake 6 p
    (fun s c => s.episodes.any (fun e => e.level == 6 && e.target == 0x5000 + qpPort (qpCtx s (mcQp c))))
    (ingestRefusal p) (ingestStart p) (resumeIngests s p))

/-- Bytes that the next response packet of a run carries. -/
def packetBytes (c : BitVec 512) (r : IngestRun) : Nat :=
  min (mtuBytes (qpPmtu c)) (min (r.asked - r.landed) (2 ^ 20 - r.landed % 2 ^ 20))

/-- Bytes that an ingest port has brought for a partition land in an object (R210, R211, R341). -/
def ingestWrite (s : State) (p o ofs : Nat) (data : List Byte) : State := objWrite (carry s p data.length) p o ofs data

/-- Ingest is served where bytes of an object lie (R203). -/
def ingestServed (s : State) (p o ofs n : Nat) : Bool :=
  match s.obj p o with
  | some x => ingServed s p (objAddr x ofs) n
  | none => true

/-- Response bytes land in the object and enter the leaf in progress (R210). -/
def landResponse (s : State) (q : Nat) (r : IngestRun) (rs : List IngestRun) (data : List Byte) : State :=
  let s := ingestWrite s r.part (mcObj r.cmd) (mcOffset r.cmd + r.landed) data
  let r := { r with landed := r.landed + data.length, leaf := r.leaf ++ data }
  let whole := decide (mcLen r.cmd ≤ r.landed)
  let (s, r) := if whole ∨ r.leaf.length = leafBytes then closeLeaf s r else (s, r)
  let s := s.updQp q (fun x => { x with respPsn := x.respPsn + 1, retries := 0, runs := r :: rs })
  if whole then resumeIngests (nextIngest q 16 (finishIngest s q r)) r.part else resumeIngests (issueReads q 16 s) r.part

/-! ### Packets (R207, R208, R215) -/

/-- The most bytes of a frame that an ingest port accepts (R207). -/
def maxFrame : Nat := 4200

/-- The local number of queue pair 0 (R208). -/
def firstQpn : Nat := 0x100

/-- A port has an address, one of its four; 0 is none (R207, R215). -/
def portHas (s : State) (port : Nat) (a : BitVec 128) : Bool :=
  a != 0 && (List.range 4).any (fun i => od s 0x1700 0x03 (4 * port + i) == leNat (beBytes 16 a.toNat))

/-- The queue pair of a packet: a ready one bound to its port, under a number and an address that the port has (R208, R215). -/
def packetQp (s : State) (port : Nat) (h : RdmaHead) : Option Nat :=
  let q := h.qpn.toNat - firstQpn
  if firstQpn ≤ h.qpn.toNat ∧ isQp q ∧ portHas s port h.dest ∧ (s.qp q).state = 1 ∧ qpPort (qpCtx s q) = port then some q
  else none

/-- A packet at an ingest port that is up: a frame that is too long is not accepted, one for an unknown queue pair or address is
dropped and counted; an ECN-CE mark is answered with a CNP (R207, R208, R215; log 92). -/
def onPacket (port : Nat) (h : RdmaHead) (f : Nat → State → State) (s : State) : State :=
  if od s 0x1700 0x01 port ≠ 2 ∨ maxFrame < h.frame then s
  else
    match packetQp s port h with
    | none => odCount s 0x1700 0x32 port 32
    | some q => f q (if h.ce then s.send (.rdma q 4 h.psn 0 0) else s)

/-- A queue pair into error: the commands on it complete with MM-0x0C (R209). -/
def qpError (s : State) (q : Nat) : State :=
  let rs := (s.qp q).runs
  let s := s.updQp q (fun x => { x with state := 2 })
  rs.foldl (fun s r => resumeIngests (endIngest s q r 0x0C) r.part) s

/-- An answer to a READ (R208 to R210): a NAK puts the queue pair into error; the expected packet lands where ingest is served;
another is dropped, to be asked for again (go-back-N). -/
def readAnswer (psn : BitVec 24) (answer : Option (List Byte)) (q : Nat) (s : State) : State :=
  match answer, (s.qp q).runs with
  | none, _ => qpError s q
  | some data, r :: rs =>
    let n := packetBytes (qpCtx s q) r
    if psn = (s.qp q).respPsn ∧ 0 < n ∧ data.length = n ∧
        ingestServed s r.part (mcObj r.cmd) (mcOffset r.cmd + r.landed) n then landResponse s q r rs data
    else s
  | some _, [] => s

/-- RDMA_READ_RESPONSE (R208, R210): a response packet, or a NAK (none). -/
def execRdmaReadResponse (port : Nat) (h : RdmaHead) (answer : Option (List Byte)) (s : State) :
    Host.Outcome State Fault Refusal :=
  onUnit (isPort port) "port" port s (onDerived (onPacket port h (readAnswer h.psn answer)))

/-! ### Remote writes (R211) -/

/-- A WRITE lies in a window: queue pair, key and range match (R211). -/
def winHolds (w : BitVec 256) (q va rkey n : Nat) : Bool :=
  winValid w && winQp w == q && winKey w == rkey && decide (winBase w ≤ va) && decide (va + n ≤ winBase w + winLen w)

/-- The window that a refused WRITE is logged for: the first valid one of its queue pair, 64 where there is none (log 23). -/
def nakWindow (s : State) (q : Nat) : Nat :=
  (lowest (fun w => winValid (window s w) && winQp (window s w) == q) 0 64).getD 64

/-- A remote access error NAK (R209, R211): sent and counted, MM-0x0E logged once per window, and the queue pair in error
(log 92). -/
def nakWrite (s : State) (q : Nat) (psn : BitVec 24) (va n : Nat) : State :=
  let c := qpCtx s q
  let s := (odCount s 0x1700 0x31 (qpPort c) 32).send (.rdma q 2 psn va n)
  let w := nakWindow s q
  let s := if s.windowNak.contains w then s
    else logReason { s with windowNak := s.windowNak ++ [w] } .mm 0x0E 0 0 (some (qpPart c)) 0
  qpError s q

/-- A packet that is not the one expected (R208; log 92): one that has come before is acknowledged again, one ahead is answered
with a sequence error NAK, once until the expected one has come. -/
def outOfSequence (s : State) (q : Nat) (psn : BitVec 24) (va n : Nat) : State :=
  let x := s.qp q
  if 2 ^ 23 ≤ (psn - x.recvPsn).toNat then s.send (.rdma q 1 psn va n)
  else if x.nakSent then s
  else (s.updQp q (fun x => { x with nakSent := true })).send (.rdma q 5 x.recvPsn va n)

/-- The place that a WRITE may go to: its partition, object and offset, in a matching window, of an object that is live or
expiring, large enough and not held (R211). -/
def writePlace (s : State) (q va rkey n : Nat) : Option (Nat × Nat × Nat) :=
  (lowest (fun w => winHolds (window s w) q va rkey n) 0 64).bind (fun w =>
    let win := window s w
    let p := winPart win
    let ofs := winOfs win + (va - winBase win)
    match s.obj p (winObj win) with
    | some o => if objHeld s p (winObj win) ∨ o.nplots * plotBytes < ofs + n then none else some (p, winObj win, ofs)
    | none => none)

/-- A WRITE on a queue pair (R208, R211): in order, into its place, or answered with a NAK; one for which no way or no slot serves
ingest is not taken, and is sent again (R200, R203; log 92). -/
def writeIn (psn : BitVec 24) (va : Word) (rkey : BitVec 32) (data : List Byte) (q : Nat) (s : State) : State :=
  let n := data.length
  if psn ≠ (s.qp q).recvPsn then outOfSequence s q psn va.toNat n
  else
    match writePlace s q va.toNat rkey.toNat n with
    | none => nakWrite s q psn va.toNat n
    | some (p, o, ofs) =>
      if waysInUse s p 256 < ingestLimit s p ∧ ingestServed s p o ofs n then
        ((ingestWrite s p o ofs data).updQp q (fun x => { x with recvPsn := x.recvPsn + 1, nakSent := false })).send
          (.rdma q 1 psn va.toNat n)
      else s

/-- RDMA_WRITE_RECV (R208, R211). -/
def execRdmaWriteRecv (port : Nat) (h : RdmaHead) (va : Word) (rkey : BitVec 32) (data : List Byte) (s : State) :
    Host.Outcome State Fault Refusal :=
  onUnit (isPort port) "port" port s (onDerived (onPacket port h (writeIn h.psn va rkey data)))

/-! ### Failures and ports (R209) -/

/-- The READs outstanding asked for again from the first byte not landed (R208). -/
def reissueReads (q : Nat) (r : IngestRun) (c : BitVec 512) (psn : BitVec 24) : Nat → Nat → State → State
  | 0, _, s => s
  | fuel + 1, o, s =>
    let n := min (r.asked - o) (2 ^ 20 - o % 2 ^ 20)
    if n = 0 then s
    else reissueReads q r c (psn + BitVec.ofNat 24 (respPackets c n)) fuel (o + n)
      (s.send (.rdma q 3 psn (mcRva r.cmd + o) n))

/-- QP_ACK_TIMEOUT (R208, R209): go-back-N retransmission, or the error state when the retries are exhausted. -/
def qpAckTimeout (q : Nat) (s : State) : State :=
  let x := s.qp q
  let c := qpCtx s q
  match x.runs with
  | r :: _ =>
    if x.state = 1 ∧ r.landed < r.asked then
      if x.retries < qpRetry c then
        let s := (odCount s 0x1700 0x30 (qpPort c) 32).updQp q (fun x => { x with retries := x.retries + 1 })
        reissueReads q r c x.respPsn 17 r.landed s
      else qpError s q
    else s
  | [] => s

def execQpAckTimeout (q : Nat) (s : State) : Host.Outcome State Fault Refusal :=
  onUnit (isQp q) "queue pair" q s (onDerived (qpAckTimeout q))

/-- The listed queue pairs that are ready and bound to a port. -/
def portQps (s : State) (port : Nat) : List Nat :=
  (s.qps.map (·.1)).filter (fun q => (s.qp q).state == 1 && qpPort (qpCtx s q) == port)

/-- INGEST_PORT_LOSS: the port is down, and its queue pairs go into error (R209, R215). -/
def ingestPortLoss (k : Nat) (s : State) : State :=
  (portQps s k).foldl qpError (odSet s 0x1700 0x01 k 0)

def execIngestPortLoss (k : Nat) (s : State) : Host.Outcome State Fault Refusal :=
  onUnit (isPort k) "port" k s (onDerived (ingestPortLoss k))

/-- INGEST_PORT_UP: training ends (R207, R215); in the fabric-bypass mode no SerDes trains (R26). -/
def execIngestPortUp (k : Nat) (s : State) : Host.Outcome State Fault Refusal :=
  onUnit (isPort k) "port" k s (onDerived fun s => if s.clocks.clkMode = 1 then s else odSet s 0x1700 0x01 k 2)

end Sys2Proof.Machine
end

