-- ==== Sys2Proof/Machine/EngineOps.lean ====
section
/-! DEFINITION. Edge stream engines as the commands and the enable check share them: entries (R143), release times (R144),
walk words (R145), slot grants (R204) and the evaluation of R149. -/
namespace Sys2Proof.Machine

/-- The fields of an edge stream entry (R143). -/
def enDesc (e : BitVec 1024) : BitVec 512 := BitVec.ofNat 512 (bits e 1023 512)
def enBase (e : BitVec 1024) : Nat := bits e 511 460
def enObj (e : BitVec 1024) : Nat := bits e 459 444
def enTier (e : BitVec 1024) : Nat := bits e 443 442
def enDir (e : BitVec 1024) : Nat := bits e 441 441
def enChain (e : BitVec 1024) : Bool := bit e 440
def enLanes (e : BitVec 1024) : List Nat := (List.range 4).filter (fun l => bit e (436 + l))
def enFlown (e : BitVec 1024) : Nat := bits e 435 428
def enRstart (e : BitVec 1024) : Nat := bits e 427 388
def enEarly (e : BitVec 1024) : Nat := bits e 387 364
def enBurst (e : BitVec 1024) : Nat := bits e 363 348 + 1
def enRgap (e : BitVec 1024) : Nat := bits e 347 324
def enList (e : BitVec 1024) : Nat := bits e 323 272

/-- An entry that is used: NLEV is not 0 (R143). -/
def enUsed (e : BitVec 1024) : Bool := decide (ldNlev (enDesc e) ≠ 0)

/-- Words of an ingress entry's walk (R144). -/
def enWords (e : BitVec 1024) : Nat := walkBytes (enDesc e) / 64

/-- Heads at the start of a burst: one for each owned lane, none with CHAIN (R144). -/
def enHeads (e : BitVec 1024) : Nat := if enChain e then 0 else (enLanes e).length

/-- Heads and words of a whole burst. -/
def enItems (e : BitVec 1024) : Nat := enHeads e + enBurst e

/-- What an entry releases at one step: a head of a lane with the words of its flow, or a word of the walk. -/
inductive Release where
  | head (lane words : Nat)
  | word (lane index : Nat)
  deriving DecidableEq, Repr, Inhabited

/-- Words of a burst that go to the owned lane number `i` (R144). -/
def laneWords (n words i : Nat) : Nat := (words + n - 1 - i) / n

/-- Item `k` of an entry's releases and its fc, in order of time (R144). None after the walk's end. -/
def releaseItem (e : BitVec 1024) (k : Nat) : Option (Nat × Release) :=
  let n := (enLanes e).length
  let b := k / enItems e
  let j := k % enItems e
  let first := b * enBurst e
  let start := enRstart e + b * enRgap e
  if n = 0 ∨ enWords e ≤ first then none
  else if j < enHeads e then
    let l := nth 0 (enLanes e) j
    some (start + l, .head l (laneWords n (min (enBurst e) (enWords e - first)) j))
  else
    let w := j - enHeads e
    let l := nth 0 (enLanes e) (w % n)
    if enWords e ≤ first + w then none
    else some (start + 4 * (w / n + (if enChain e then 0 else 1)) + l, .word l (first + w))

/-- The release fc of word `w` of an entry (R144). -/
def wordRelease (e : BitVec 1024) (w : Nat) : Nat :=
  match releaseItem e (w / enBurst e * enItems e + enHeads e + w % enBurst e) with
  | some (t, _) => t
  | none => 0

/-- The first fc in which an entry's words may be fetched (R145). -/
def fetchStart (e : BitVec 1024) : Nat := enRstart e - enEarly e

/-- Of the ingress entries of an engine, the next in order of time by a function of entry number and entry. -/
def earliest {α : Type} (at_ : Nat → BitVec 1024 → Option (Nat × α)) :
    Nat → List (BitVec 1024) → Option (Nat × Nat × α)
  | _, [] => none
  | i, e :: es =>
    let rest := earliest at_ (i + 1) es
    match if enUsed e then at_ i e else none with
    | none => rest
    | some (t, a) => match rest with
      | some (t', i', a') => if t' < t then some (t', i', a') else some (t, i, a)
      | none => some (t, i, a)

/-- The engine's next release: its fc, the entry, and what is released. -/
def Engine.nextRelease (x : Engine) : Option (Nat × Nat × Release) :=
  earliest (fun i e => releaseItem e (Assoc.get (fun _ => 0) x.released i)) 0 x.ingress

/-- The next word the engine fetches, in order of release: its release fc, entry and number (R145). -/
def Engine.nextFetch (x : Engine) : Option (Nat × Nat × Nat) :=
  earliest (fun i e =>
    let w := Assoc.get (fun _ => 0) x.fetched i
    if w < enWords e then some (wordRelease e w, w) else none) 0 x.ingress

/-- A list word in object space; none where it is poisoned (R199). -/
def edgeListWord (s : State) (p a n : Nat) : Option Nat := if poisoned s p a n then none else some (leNat (devRead s p a n))

/-- The list entry that governs an outermost iteration, and the ST number that it raises: a poisoned word of the list is one of
those that an edge stream faults on (R137, R138, R199, R223). -/
def edgeListEntry (s : State) (p : Nat) (e : BitVec 1024) (c : Nat) : Nat × Option Nat :=
  match ldMode (enDesc e) with
  | 1 => match edgeListWord s p (enList e + 4 * c) 4 with
    | some v => (v, if ldIbound (enDesc e) ≤ v then some 0x05 else none)
    | none => (0, some 0x04)
  | 2 => match edgeListWord s p (enList e) 8 with
    | some n =>
      if 65536 < n ∨ n ≤ c then (0, some 0x06)
      else (match edgeListWord s p (enList e + 8 + 8 * c) 8 with
        | some v => (v, none)
        | none => (0, some 0x04))
    | none => (0, some 0x04)
  | _ => (0, none)

/-- The pieces of 64 bytes from position `pos` of an entry's walk, each with the fault of its list entry. -/
def edgePieces (s : State) (p : Nat) (e : BitVec 1024) (pos : Nat) : List (Int × Nat × Option Nat) :=
  let d := enDesc e
  let at_ (k : Nat) : Int := stepAddr d (enBase e) k (edgeListEntry s p e (outerAt d k)).1
  let fault (k : Nat) : Option Nat := (edgeListEntry s p e (outerAt d k)).2
  let rec go : Nat → Nat → Nat → List (Int × Nat × Option Nat)
    | 0, _, _ => []
    | fuel + 1, q, n =>
      if n = 0 then []
      else
        let m := min n (ldRun d - q % ldRun d)
        (at_ (q / ldRun d) + (q % ldRun d : Nat), m, fault (q / ldRun d)) :: go fuel (q + m) (n - m)
  go 64 pos 64

/-- A run's bytes lie within the entry's object (R139). -/
def pieceInObj (s : State) (p obj : Nat) (a : Int) (n : Nat) : Bool :=
  match s.obj p obj with
  | some o => decide (0 ≤ a) && decide (o.vbase * plotBytes ≤ a.toNat) &&
      decide (a.toNat + n ≤ (o.vbase + o.nplots) * plotBytes)
  | none => false

/-- Every plot of a range is in a tier. -/
def pieceInTier (s : State) (p : Nat) (a : Int) (n tier : Nat) : Bool :=
  (chunksOf a.toNat n).all (fun c => match s.plot p c.1 with
    | some x => x.cur.toNat == tier
    | none => false)

/-- The mark of a fetched word (R139, R145): the lowest ST code that applies; and its bytes. -/
def wordFetch (s : State) (p : Nat) (e : BitVec 1024) (w : Nat) (ecc : EccResult) : Option Nat × List Byte :=
  let ps := edgePieces s p e (64 * w)
  let listed := ps.filterMap (fun q => q.2.2)
  let out := ps.any (fun q => q.2.2.isNone && !pieceInObj s p (enObj e) q.1 q.2.1)
  let tier := ps.any (fun q => !pieceInTier s p q.1 q.2.1 (enTier e))
  let bad := decide (ecc = .uncorrectable) || ps.any (fun q => poisoned s p q.1.toNat q.2.1)
  let mark :=
    if out then some 0x01
    else match listed with
      | n :: _ => some n
      | [] => if tier then some 0x02 else if bad then some 0x04 else none
  (mark, ps.flatMap (fun q => devRead s p q.1.toNat q.2.1))

/-- The engine may fetch the word now: no byte of it is in a landing range whose arrival is still to come (R320). -/
def fetchAllowed (s : State) (p : Nat) (e : BitVec 1024) (w : Nat) : Bool :=
  (edgePieces s p e (64 * w)).all (fun q => !landingAhead s p q.1.toNat q.2.1)

/-! ### The evaluation of R149 -/

/-- The partition's grantees of a tier: engine, and whether for egress (R204). -/
def grantees (s : State) (p tier : Nat) : List (Nat × Bool) :=
  (partEngines s p).flatMap (fun n =>
    let x := s.engine n
    (if x.ingress.any (fun e => enUsed e && enTier e == tier) then [(n, false)] else []) ++
    (if x.egress.any (fun e => enUsed e && enTier e == tier) then [(n, true)] else []))

/-- Position `i` of a controller's table is granted to grantee number `g` of `n` (R204). -/
def granted (s : State) (p tier ctl g n i : Nat) : Bool :=
  slotOwner s p tier ctl i == 1 &&
    (((List.range i).filter (fun k => slotOwner s p tier ctl k == 1)).length * numControllers s p tier + ctl) % n == g

/-- The controllers that hold the bytes of a list of pieces, by tier (R185). -/
def pieceControllers (s : State) (p : Nat) (ps : List (Nat × Nat)) : List (Nat × Nat) :=
  ps.flatMap (fun q => (chunksOf q.1 q.2).flatMap (fun c => match s.plot p c.1 with
    | some x => (rangeControllers s p x.where_.1 x.where_.2 c.2.1 c.2.2).map (fun ctl => (x.where_.1, ctl))
    | none => []))

/-- An engine, for ingress or egress, is granted a slot on every controller that holds the bytes (R204). -/
def grantedOn (s : State) (p e : Nat) (egress : Bool) (ps : List (Nat × Nat)) : Bool :=
  (pieceControllers s p ps).all (fun c =>
    let gs := grantees s p c.1
    match gs.findIdx? (· == (e, egress)) with
    | some g => (List.range 256).any (granted s p c.1 c.2 g gs.length)
    | none => false)

/-- The mc in which a slot granted to the grantee on a controller ends, the first at or after mc `from_`; none when the
table grants it none (R149, R201). -/
def grantEnd (s : State) (p tier ctl g n from_ : Nat) : Option Nat :=
  ((List.range 257).find? (fun k => granted s p tier ctl g n ((ceilDiv from_ 4 + k) % 256))).map
    (fun k => 4 * (ceilDiv from_ 4 + k) + 4)

/-- LT of a tier in mc (R149). -/
def tierLatency (tier : Nat) : Nat := if tier = 1 then 120 else 200

/-- The first mc at or after the start of fc `f` at full pace: 1 fc is 1.25 mc (R25, R149). -/
def mcOf (f : Nat) : Nat := ceilDiv (5 * f) 4

/-- The words of an engine in order of release, up to `fuel` of them: release fc, entry number, entry, word. -/
def engineWords : Nat → Engine → List (Nat × Nat × Nat)
  | 0, _ => []
  | fuel + 1, x =>
    match x.nextFetch with
    | none => []
    | some (t, i, w) =>
      (t, i, w) :: engineWords fuel { x with fetched := Assoc.set (fun _ => 0) x.fetched i (w + 1) }

/-- The granules of a tier that hold `n` bytes from device address `a`, by number (R185). -/
def rangeGranules (s : State) (p tier a n : Nat) : List Nat :=
  let b := if tier = 1 then 64 else 128
  (chunksOf a n).flatMap (fun c => match s.plot p c.1 with
    | some x => (range (c.2.1 / b) ((c.2.1 + c.2.2 - 1) / b + 1 - c.2.1 / b)).map (fun k =>
        (if tier = 1 then x.t1frame else x.t2frame) * (plotBytes / b) + k)
    | none => [])

/-- The slots of an engine's fetches so far: of each controller of a tier the granule fetched last and the mc in which its slot
ended. -/
abbrev SlotUse := List ((Nat × Nat) × (Nat × Nat))

/-- One granule fetched from mc `from_` on: in the slot that moved it already, if that began no earlier, else in the next slot
granted on its controller after that controller's last (R149, R201, R204; log 97). The use after it, and the mc of its end. -/
def fetchGranule (s : State) (p tier g n from_ : Nat) (used : SlotUse) (k : Nat) : Option (SlotUse × Nat) :=
  let ctl := k % max 1 (numControllers s p tier)
  let last := List.find? (fun (u : (Nat × Nat) × (Nat × Nat)) => u.1 == (tier, ctl)) used
  match last.filter (fun u => u.2.1 == k && decide (from_ + 4 ≤ u.2.2)) with
  | some u => some (used, u.2.2)
  | none =>
    (grantEnd s p tier ctl g n (max from_ (match last with | some u => u.2.2 | none => 0))).map (fun m =>
      (((tier, ctl), (k, m)) :: used.filter (fun u => u.1 != (tier, ctl)), m))

/-- The granules of a word fetched: the use after them, and the mc in which the last slot ends. -/
def fetchGranules (s : State) (p tier g n from_ : Nat) : List Nat → SlotUse × Nat → Option (SlotUse × Nat)
  | [], a => some a
  | k :: ks, a => match fetchGranule s p tier g n from_ a.1 k with
    | some (used, m) => fetchGranules s p tier g n from_ ks (used, max a.2 m)
    | none => none

/-- The arrival mc that R149 computes of each word, in order of release: each slot carries one granule, and a word waits
for the release of the word 1,024 before it (65,536 bytes). -/
def arrivals (s : State) (p n : Nat) (x : Engine) (used : SlotUse) (past : List Nat) :
    List (Nat × Nat × Nat) → List (Nat × Nat × Nat × Nat)
  | [] => []
  | (t, i, w) :: ws =>
    let e := nth 0 x.ingress i
    let tier := enTier e
    let gs := grantees s p tier
    let g := (gs.findIdx? (· == (n, false))).getD 0
    let space := match past[1023]? with | some r => r + 1 | none => 0
    let ks := (edgePieces s p e (64 * w)).flatMap (fun q => rangeGranules s p tier q.1.toNat q.2.1)
    match fetchGranules s p tier g gs.length (mcOf (max (fetchStart e) space)) ks (used, 0) with
    | none => []
    | some (used, m) => (t, i, w, m + tierLatency tier) :: arrivals s p n x used (t :: past) ws

/-- The arrivals of an engine's words from the job's start. -/
def engineArrivals (s : State) (p n : Nat) : List (Nat × Nat × Nat × Nat) :=
  let x := s.engine n
  let total := ((x.ingress.filter enUsed).map enWords).sum
  arrivals s p n x [] [] (engineWords total { x with fetched := [], released := [] })

/-- Every word of an engine arrives before its release (R149). -/
def feasible (s : State) (p n : Nat) : Bool :=
  let as := engineArrivals s p n
  as.length == (((s.engine n).ingress.filter enUsed).map enWords).sum && as.all (fun a => decide (4 * a.2.2.2 ≤ 5 * a.1))

/-- Every release buffer of the partition holds every word that R149 places in it at fc `f` (R320). -/
def buffersReady (s : State) (p f : Nat) : Bool :=
  (partEngines s p).all (fun n =>
    ((s.engine n).ingress.all (fun e => !enUsed e)) ||
    (engineArrivals s p n).all (fun a =>
      !(decide (4 * a.2.2.2 ≤ 5 * f) && decide (f < a.1)) ||
        (s.engine n).buffer.any (fun b => b.entry == a.2.1 && b.index == a.2.2.1 && b.data.isSome)))

end Sys2Proof.Machine
end

