-- ==== Sys2Proof/Machine/Flags.lean ====
section
/-! DEFINITION. The status words: the matrix unit's (R94) and the vector chain's (R125), as the bits that operations
set. -/
namespace Sys2Proof.Machine

/-- Bit `i` of a status word, set when `b`. -/
def flag (i : Nat) (b : Bool := true) : BitVec 32 := BitVec.ofNat 32 (ofBool b * 2 ^ i)

/-- Matrix status word (R94). -/
def mInexactP (b : Bool := true) : BitVec 32 := flag 0 b
def mPclamp (b : Bool := true) : BitVec 32 := flag 1 b
def mOvf (b : Bool := true) : BitVec 32 := flag 2 b
def mNan (b : Bool := true) : BitVec 32 := flag 3 b
def mInv (b : Bool := true) : BitVec 32 := flag 4 b
def mCvtInexact (b : Bool := true) : BitVec 32 := flag 5 b
def mCvtOvf (b : Bool := true) : BitVec 32 := flag 6 b
def mAclamp (b : Bool := true) : BitVec 32 := flag 7 b
def mScaleClamp (b : Bool := true) : BitVec 32 := flag 8 b
def mNanIn (b : Bool := true) : BitVec 32 := flag 9 b

/-- Vector status word (R125). -/
def vNanIn (b : Bool := true) : BitVec 32 := flag 0 b
def vInx (b : Bool := true) : BitVec 32 := flag 1 b
def vNan (b : Bool := true) : BitVec 32 := flag 2 b
def vOvf (b : Bool := true) : BitVec 32 := flag 3 b
def vInv (b : Bool := true) : BitVec 32 := flag 4 b
def vDz (b : Bool := true) : BitVec 32 := flag 5 b
def vIovf (b : Bool := true) : BitVec 32 := flag 6 b
def vRovf (b : Bool := true) : BitVec 32 := flag 7 b
def vRinexact (b : Bool := true) : BitVec 32 := flag 8 b
def vScaleClamp (b : Bool := true) : BitVec 32 := flag 9 b
def vAmis (b : Bool := true) : BitVec 32 := flag 10 b
def vCfgErr (b : Bool := true) : BitVec 32 := flag 11 b

/-- Status words ORed together. -/
def orFlags (fs : List (BitVec 32)) : BitVec 32 := fs.foldl (· ||| ·) 0

end Sys2Proof.Machine
end

