-- ==== Sys2Proof/Machine/Elements.lean ====
section
/-! DEFINITION. Operand elements as the matrix unit and the vector chain read them (R67, R69, R96), and sums on a grid. -/
namespace Sys2Proof.Machine

/-- An operand element: its code and its block's scale byte. -/
abbrev Elem := Nat × Nat

/-- An element's exact value (R67, R69). -/
def elemVal (f : Fmt) (e : Elem) : Val :=
  if f.isMx then (if e.2 = 255 then .nan else (f.decode e.1).scale ((e.2 : Int) - 127)) else f.decode e.1

/-- The larger of two optional exponents. -/
def maxOpt (a b : Option Int) : Option Int :=
  match a, b with
  | some x, some y => some (max x y)
  | some x, none => some x
  | none, b => b

/-- An exact sum on a grid, what special values it holds, and the flags that it has set. -/
structure Sum where
  sum  : Int
  nan  : Bool
  pinf : Bool
  ninf : Bool
  st   : BitVec 32
  deriving DecidableEq, Repr, Inhabited

/-- Bytes of an entry's row (R96). -/
def rowPitch (f : Fmt) : Nat := if f = .raw then 1024 else 8 * f.width + (if f.isMx then 2 else 0)

/-- The first fault of a list of reason codes; 0 for none. -/
def firstCode : List Nat → Nat
  | [] => 0
  | c :: cs => if c = 0 then firstCode cs else c

end Sys2Proof.Machine
end

