-- ==== Sys2Proof/Machine/VecOps.lean ====
section
/-! DEFINITION. Element operations of the vector chain (R105, R114 to R124). An element is its code in its format, with its
block's scale byte in an MX format; a result is a code and the flags of R125 that it sets. -/
namespace Sys2Proof.Machine

/-- A result: its code, and the flags that it sets. -/
abbrev Res := Nat × BitVec 32

/-- The canonical NaN for a NaN operand, and for an invalid operation (R116). -/
def nanRes (ty : Fmt) : Res := (ty.nanCode, vNanIn ||| vNan)
def invRes (ty : Fmt) : Res := (ty.nanCode, vInv ||| vNan)

/-- An exact value rounded once to a plain floating-point format (R116). -/
def roundV (ty : Fmt) (e4nan : Bool) (v : Val) : Res :=
  let e := ty.encode e4nan v
  (e.code, vInx e.inex ||| vOvf e.ovf ||| vNan (!v.isNan && (ty.decode e.code).isNan))

/-- An exact sum or product rounded, or the invalid operation (R116). -/
def roundOr (ty : Fmt) (e4nan : Bool) (v : Val × Bool) : Res := if v.2 then invRes ty else roundV ty e4nan v.1

/-! ### Widening (R105) -/

/-- An operand of format `f` is in TY or in a format that R105 widens to TY. -/
def canWiden (f ty : Fmt) : Bool :=
  match f, ty with
  | .bf16, .fp32 => true
  | .fp16, .fp32 => true
  | .e4m3, .fp32 => true
  | .e5m2, .fp32 => true
  | .e4m3, .bf16 => true
  | .e4m3, .fp16 => true
  | .e5m2, .fp16 => true
  | .int8, .int32 => true
  | .int16, .int32 => true
  | .int8, .int16 => true
  | f, ty => decide (f = ty) || (f.isMx && decide (ty = .fp32))

/-- An operand widened exactly to TY; an MX value beyond FP32 becomes ±Inf with OVF (R105). -/
def widen (ty f : Fmt) (e : Elem) : Res :=
  if f = ty then (e.1, 0)
  else if f.isInt then (toCode ty.width (signed f.width e.1), 0)
  else
    let v := elemVal f e
    let r := ty.encode false v
    (r.code, vOvf (match v with | .fin _ _ _ => r.ovf | _ => false))

/-! ### ALU (R114 to R116) -/

/-- 1 or 0 in TY (R114). -/
def boolCode (ty : Fmt) (b : Bool) : Nat := if b then (if ty.isInt then 1 else ty.enc.bias * 2 ^ ty.enc.mb) else 0

/-- A ÷ B of values that are no NaN (R116). -/
def divV (ty : Fmt) (e4nan : Bool) (a b : Val) : Res :=
  let neg := a.sign != b.sign
  match a, b with
  | .inf _, .inf _ => invRes ty
  | .inf _, _ => roundV ty e4nan (.inf neg)
  | .fin _ m e, .fin _ m' e' =>
    if m' = 0 then
      (if m = 0 then invRes ty
       else let r := roundV ty e4nan (.inf neg)
            (r.1, r.2 ||| vDz))
    else
      let q := quotient m m'
      roundV ty e4nan (.fin neg q.1 (q.2 + e - e'))
  | .fin _ _ _, _ => (ty.enc.signBit neg, 0)
  | _, _ => nanRes ty

/-- Bitwise operations, on codes of `w` bits (R114). -/
def bitOp (w op a b : Nat) : Nat :=
  match op with
  | 0x0A => a &&& b
  | 0x0B => a ||| b
  | 0x0C => a ^^^ b
  | _ => 2 ^ w - 1 - a % 2 ^ w

/-- An ALU operation of a floating-point TY on its operands' codes (R114, R116). -/
def aluFloat (ty : Fmt) (e4nan : Bool) (op : Nat) (ops : List Nat) : Res :=
  let a := nth 0 ops 0
  let b := nth 0 ops 1
  let A := ty.decode a
  let B := ty.decode b
  let C := ty.decode (nth 0 ops 2)
  let top := 2 ^ (ty.width - 1)
  if 0x0A ≤ op ∧ op ≤ 0x0D then (bitOp ty.width op a b, 0)
  else if 0x06 ≤ op ∧ op ≤ 0x08 then
    if A.isNan || B.isNan then (0, vNanIn)
    else (boolCode ty (match op with
            | 0x06 => A.eq B
            | 0x07 => A.lt B
            | _ => !B.lt A), 0)
  else if op = 0x09 then
    let pick := if C.isZero then b else a
    if (ty.decode pick).isNan then nanRes ty else (pick, 0)
  else if ops.any (fun x => (ty.decode x).isNan) then nanRes ty
  else match op with
    | 0x00 => roundOr ty e4nan (A.add B)
    | 0x01 => roundOr ty e4nan (A.add B.neg)
    | 0x02 => roundOr ty e4nan (A.mul B)
    | 0x03 =>
      let p := A.mul B
      if p.2 then invRes ty else roundOr ty e4nan (p.1.add C)
    | 0x04 => (if B.below A then b else a, 0)
    | 0x05 => (if A.below B then b else a, 0)
    | 0x11 => (a ^^^ top, 0)
    | 0x12 => (a % top, 0)
    | _ => divV ty e4nan A B

/-- An integer result at the edges of R115. -/
def fitInt (w : Nat) (sat : Bool) (x : Int) : Res :=
  let lo : Int := -(2 ^ (w - 1))
  let hi : Int := 2 ^ (w - 1) - 1
  if lo ≤ x ∧ x ≤ hi then (toCode w x, 0) else (toCode w (if sat then clampInt x lo hi else x), vIovf)

/-- An ALU operation of an integer TY on its operands' codes (R114, R115). -/
def aluInt (w : Nat) (sat : Bool) (op : Nat) (ops : List Nat) : Res :=
  let ca := nth 0 ops 0 % 2 ^ w
  let cb := nth 0 ops 1 % 2 ^ w
  let a := signed w ca
  let b := signed w cb
  let c := signed w (nth 0 ops 2)
  let n := cb % 256
  match op with
  | 0x00 => fitInt w sat (a + b)
  | 0x01 => fitInt w sat (a - b)
  | 0x02 => fitInt w sat (a * b)
  | 0x03 => fitInt w sat (a * b + c)
  | 0x04 => (if b < a then cb else ca, 0)
  | 0x05 => (if a < b then cb else ca, 0)
  | 0x06 => (ofBool (a == b), 0)
  | 0x07 => (ofBool (decide (a < b)), 0)
  | 0x08 => (ofBool (decide (a ≤ b)), 0)
  | 0x09 => (if c = 0 then cb else ca, 0)
  | 0x0A => (bitOp w op ca cb, 0)
  | 0x0B => (bitOp w op ca cb, 0)
  | 0x0C => (bitOp w op ca cb, 0)
  | 0x0D => (bitOp w op ca cb, 0)
  | 0x0E => (if w ≤ n then 0 else ca * 2 ^ n % 2 ^ w, 0)
  | 0x0F => (if w ≤ n then 0 else ca / 2 ^ n, 0)
  | 0x10 => (toCode w (a / 2 ^ min n w), 0)
  | 0x11 => fitInt w sat (-a)
  | 0x12 => fitInt w sat a.natAbs
  | 0x13 =>
    if b = 0 then (toCode w (if a = 0 then 0 else if 0 < a then 2 ^ (w - 1) - 1 else -(2 ^ (w - 1))), vDz)
    else fitInt w sat (a.tdiv b)
  | _ => if b = 0 then (ca, vDz) else (toCode w (a.tmod b), 0)

/-- An ALU operation (R114). -/
def aluFmt (ty : Fmt) (sat e4nan : Bool) (op : Nat) (ops : List Nat) : Res :=
  if ty.isInt then aluInt ty.width sat op ops else aluFloat ty e4nan op ops

/-! ### SFU (R117, R118) -/

/-- The largest code below 2^n that satisfies `p`, which holds of every code below one that satisfies it; 0 if none. -/
def topCode (p : Nat → Bool) : Nat → Nat → Nat
  | 0, c => c
  | n + 1, c => topCode p n (if p (c + 2 ^ n) then c + 2 ^ n else c)

/-- The largest finite FP32 magnitude whose `k`-th power times |x| is at most 1: the reciprocal (1) or the reciprocal square
root (2) of |x|, cut to FP32. -/
def rootCode (k : Nat) (x : Val) : Nat :=
  topCode (fun c =>
    let y := Fmt.fp32.decode c
    decide (c < 0x7F800000) && !(Val.ofInt 1).lt ((if k = 1 then y.mul x.abs else (y.mul y).1.mul x.abs).1)) 31 0

/-! The functions themselves, as far as their bounds need them: a value on the grid of 2^-512, cut, from series that are summed to
that grid. Every FP32 argument lies on it. -/

/-- The grid's unit, and a product on it. -/
def fxOne : Nat := 2 ^ 512
def fxMul (a b : Nat) : Nat := a * b / fxOne

/-- Terms `k` on of Σ z^(2k+1) / (2k+1), the next power given, times 1 or alternating. -/
def oddSeries (alt : Bool) (z2 : Nat) : Nat → Nat → Nat → Int
  | 0, _, _ => 0
  | n + 1, t, k =>
    let r := oddSeries alt z2 n (fxMul t z2) (k + 1)
    (t / (2 * k + 1) : Nat) + if alt then -r else r

/-- ln (a / b) for b ≤ a ≤ 2 b. -/
def fxLn (a b : Nat) : Nat :=
  let z := (a - b) * fxOne / (a + b)
  2 * (oddSeries false (fxMul z z) 170 z 0).toNat

/-- arctan (1 / n), and π / 2. -/
def fxAtan (n : Nat) : Int := oddSeries true (fxOne / (n * n)) 120 (fxOne / n) 0
def fxHalfPi : Nat := (2 * (4 * fxAtan 5 - fxAtan 239)).toNat

/-- Terms of Σ y^k / k! from the next one on. -/
def expSeries (y : Nat) : Nat → Nat → Nat → Nat
  | 0, _, _ => 0
  | n + 1, t, k => t + expSeries y n (fxMul t y / (k + 1)) (k + 1)

/-- 2^u. -/
def fxExp2 (u : Int) : Nat :=
  let n := u / (fxOne : Int)
  let e := expSeries (fxMul (u % (fxOne : Int)).toNat (fxLn 2 1)) 100 fxOne 0
  if 0 ≤ n then e * 2 ^ n.toNat else if n < -400 then 0 else e / 2 ^ (-n).toNat

/-- e^-y. -/
def fxExpNeg (y : Nat) : Nat := fxExp2 (-((y * fxOne / fxLn 2 1 : Nat) : Int))

/-- sin or cos of r in [0, π / 2): terms from the next one on, alternating. -/
def trigSeries (r2 : Nat) : Nat → Nat → Nat → Int
  | 0, _, _ => 0
  | n + 1, t, k => (t : Int) - trigSeries r2 n (fxMul t r2 / (k * (k + 1))) (k + 2)
def fxSin (r : Nat) : Int := trigSeries (fxMul r r) 60 r 2
def fxCos (r : Nat) : Int := trigSeries (fxMul r r) 60 fxOne 1

/-- sin of (q quarter turns + r). -/
def fxSinTurn (q r : Nat) : Int :=
  match q % 4 with
  | 0 => fxSin r
  | 1 => fxCos r
  | 2 => -(fxSin r)
  | _ => -(fxCos r)

/-- The exact value of an SFU function of a finite FP32 value ±m × 2^e, on the grid: EXP2, LOG2, TANH, SIGMOID, SIN, COS (R117). -/
def fxSfu (op : Nat) (neg : Bool) (m : Nat) (e : Int) : Int :=
  let x := m * 2 ^ (e + 512).toNat
  match op with
  | 0 => fxExp2 (signInt neg x)
  | 1 =>
    let l := Nat.log2 m
    (e + l) * (fxOne : Int) + (fxLn m (2 ^ l) * fxOne / fxLn 2 1 : Nat)
  | 4 =>
    let t := fxExpNeg (2 * x)
    signInt neg ((fxOne - t) * fxOne / (fxOne + t))
  | 5 =>
    let t := fxExpNeg x
    ((if neg then t else fxOne) * fxOne / (fxOne + t) : Nat)
  | 6 => let s := fxSinTurn (x / fxHalfPi) (x % fxHalfPi)
         if neg then -s else s
  | _ => fxSinTurn (x / fxHalfPi + 1) (x % fxHalfPi)

/-- The FP32 code of a magnitude on the grid, cut. -/
def fxCode (v : Nat) : Nat :=
  let l := Nat.log2 v
  if v < 2 ^ 386 then v / 2 ^ 363 else (l - 385) * 2 ^ 23 + (v / 2 ^ (l - 23) - 2 ^ 23)

/-- An SFU result where R117 states a bound of 1 or 2 ulp alone: one of the codes within it, which the free value picks (log 7). -/
def sfuNear (op x : Nat) (neg : Bool) (m : Nat) (e : Int) : Nat :=
  let free := (Config.sfu op (BitVec.ofNat 32 x)).toNat
  let v := fxSfu op neg m e
  let c := fxCode v.natAbs
  ofBool (decide (v < 0)) * 2 ^ 31 + (if op ≤ 1 then c + free % 2 else c + free % 4 - 1)

/-- SIN and COS beyond 2^20: a free value in [-1, 1] (R117; log 7). -/
def sfuFree (op : Nat) (x : Nat) : Nat :=
  let r := (Config.sfu op (BitVec.ofNat 32 x)).toNat
  ofBool (r.testBit 31) * 2 ^ 31 + min (r % 2 ^ 31) 0x3F800000

/-- An SFU function of a finite non-zero FP32 value ±m × 2^e (R117). A result that the table does not state is a free value
within its bound: one of the codes that lie within it (log 7). -/
def sfuFin (op x : Nat) (neg : Bool) (m : Nat) (e : Int) : Res :=
  let v : Val := .fin neg m e
  let pow2 := decide (m = 2 ^ Nat.log2 m)
  let free := (Config.sfu op (BitVec.ofNat 32 x)).toNat
  match op with
  | 0 =>
    if !v.lt (.ofInt 128) then (0x7F800000, vOvf ||| vInx)
    else if !(Val.ofInt (-150)).lt v then (0, vInx)
    else
      let t := truncTo m e
      if t.2 then roundV .fp32 false (.fin false 1 (signInt neg t.1)) else (sfuNear op x neg m e, vInx)
  | 1 =>
    if neg then invRes .fp32
    else if pow2 then roundV .fp32 false (.ofInt (valExp m e))
    else (sfuNear op x neg m e, vInx)
  | 2 =>
    if v.abs.lt (.fin false 1 (-128)) then (ofBool neg * 2 ^ 31 + 0x7F800000, vOvf ||| vInx)
    else if pow2 then roundV .fp32 false (.fin neg 1 (-(valExp m e)))
    else (ofBool neg * 2 ^ 31 + rootCode 1 v + free % 2, vInx)
  | 3 =>
    if neg then invRes .fp32
    else
      let c := rootCode 2 v
      if pow2 && decide (valExp m e % 2 = 0) then (c + free % 5 - 2, vInx (decide (free % 5 ≠ 2)))
      else (c + free % 4 - 1, vInx)
  | 4 =>
    if !v.abs.lt (.fin false 19 (-1)) then (ofBool neg * 2 ^ 31 + 0x3F800000, vInx) else (sfuNear op x neg m e, vInx)
  | 5 => if !v.lt (.fin false 35 (-1)) then (0x3F800000, vInx) else (sfuNear op x neg m e, vInx)
  | _ => (if (Val.ofInt (2 ^ 20)).lt v.abs then sfuFree op x else sfuNear op x neg m e, vInx)

/-- An SFU function of an FP32 code (R117). -/
def sfu (op x : Nat) : Res :=
  match Fmt.fp32.decode x with
  | .nan => nanRes .fp32
  | .inf n =>
    (match op with
    | 0 => (if n then 0 else 0x7F800000, 0)
    | 1 => if n then invRes .fp32 else (0x7F800000, 0)
    | 2 => (ofBool n * 2 ^ 31, 0)
    | 3 => if n then invRes .fp32 else (0, 0)
    | 4 => (ofBool n * 2 ^ 31 + 0x3F800000, 0)
    | 5 => (if n then 0 else 0x3F800000, 0)
    | _ => invRes .fp32)
  | .fin n m e =>
    if m = 0 then
      (match op with
      | 0 => (0x3F800000, 0)
      | 1 => (0xFF800000, vDz)
      | 2 => (ofBool n * 2 ^ 31 + 0x7F800000, vDz)
      | 3 => (ofBool n * 2 ^ 31 + 0x7F800000, vDz)
      | 5 => (0x3F000000, 0)
      | 7 => (0x3F800000, 0)
      | _ => (x, 0))
    else sfuFin op x n m e

/-! ### REDUCE (R119 to R121) -/

/-- A REDUCE stage as it runs: its operation, TY, SAT and E4NAN, ROUTRAW, its anchor (none: AUTO), and whether the entry's
anchor differs from the stated one (R121). -/
structure Reduce where
  op     : Nat
  ty     : Fmt
  sat    : Bool
  e4nan  : Bool
  raw    : Bool
  anchor : Option Int
  amis   : Bool
  deriving DecidableEq, Repr, Inhabited

/-- The format of R's results. -/
def Reduce.fmt (r : Reduce) : Fmt := if r.op = 4 then .int32 else if r.raw then .raw else r.ty

/-- a orders below b in TY; no NaN (R116, R119). -/
def orderLt (ty : Fmt) (a b : Nat) : Bool :=
  if ty.isInt then decide (signed ty.width a < signed ty.width b) else (ty.decode a).below (ty.decode b)

/-- A code is a NaN of TY. -/
def isNanCode (ty : Fmt) (a : Nat) : Bool := !ty.isInt && (ty.decode a).isNan

/-- MAX and MIN of a segment (R119). -/
def reduceBest (ty : Fmt) (least : Bool) (cs : List Nat) : Res :=
  if cs.any (isNanCode ty) then nanRes ty
  else
    match cs with
    | [] => (0, 0)
    | a :: as => (as.foldl (fun b x => if (if least then orderLt ty x b else orderLt ty b x) then x else b) a, 0)

/-- ARGMAX: the index of the first maximal element; NaN orders above every value (R119). -/
def argMax (ty : Fmt) (cs : List Nat) : Res :=
  let gt (x b : Nat) : Bool := !isNanCode ty b && (isNanCode ty x || orderLt ty b x)
  match cs with
  | [] => (0, 0)
  | a :: as =>
    (((as.zipIdx 1).foldl (fun (best : Nat × Nat) x => if gt x.1 best.1 then (x.1, x.2) else best) (a, 0)).2,
     vNanIn (cs.any (isNanCode ty)))

/-- The AUTO anchor of a segment (R120). -/
def autoSum (ty : Fmt) (cs : List Nat) : Int :=
  let e := cs.foldl (fun (b : Option Int) c =>
    match ty.decode c with
    | .fin _ m x => if m = 0 then b else maxOpt b (some (max (valExp m x) (1 - (ty.enc.bias : Int))))
    | _ => b) none
  match e with
  | some x => x + 16
  | none => 0

/-- One operand of a floating-point SUM on the grid of an anchor (R120). -/
def addOperand (anchor : Int) (z : Sum) (v : Val) : Sum :=
  match v with
  | .nan => { z with nan := true, st := z.st ||| vNanIn }
  | .inf n => if n then { z with ninf := true } else { z with pinf := true }
  | .fin n m e =>
    let q := roundTo m e (anchor - 127)
    let x := signInt n q.1
    let y := clampInt x (-(2 ^ 127)) (2 ^ 127 - 1)
    { z with sum := z.sum + y, st := z.st ||| vRinexact (!q.2) ||| vRovf (decide (x ≠ y)) }

/-- One operand of a SUMRAW (R92, R121). -/
def addRaw (z : Sum) (x : Nat) : Sum :=
  match nbits x 127 126 with
  | 0 => { z with sum := z.sum + signed 126 x }
  | 1 => { z with nan := true, st := z.st ||| vNanIn }
  | 2 => { z with pinf := true }
  | _ => { z with ninf := true }

/-- An integer shifted down 32 bits, to nearest even (R120). -/
def shift32 (x : Int) : Int := signInt (decide (x < 0)) (roundShift x.natAbs 32)

/-- The result of a SUM or SUMRAW from its exact sum on its grid (R120, R121). Where R89 states no conversion, to an integer
TY, the code is a free value (log 16). -/
def Reduce.finish (r : Reduce) (anchor : Int) (z : Sum) : Res :=
  let clash := z.pinf && z.ninf
  let bad := z.nan || clash || r.amis
  let st := z.st ||| vAmis r.amis ||| vNan bad ||| vInv clash
  let fsum := decide (r.op = 0)
  if r.raw then
    let x := if fsum then shift32 z.sum else z.sum
    let y := clampInt x (-(2 ^ 125)) (2 ^ 125 - 1)
    let spec := if bad then 1 else if z.pinf then 2 else if z.ninf then 3 else 0
    (spec * 2 ^ 126 + toCode 126 y, st ||| vRovf (decide (x ≠ y)))
  else if r.ty.isInt then (Config.rawToInt r.ty.width anchor z.sum % 2 ^ r.ty.width, st)
  else if bad then (r.ty.nanCode, st)
  else if z.pinf || z.ninf then
    let q := roundV r.ty r.e4nan (.inf z.ninf)
    (q.1, q.2 ||| st)
  else
    let w : Nat := if fsum then 127 else 95
    let y := clampInt z.sum (-(2 ^ w)) (2 ^ w - 1)
    let q := roundV r.ty r.e4nan (.fin (decide (y < 0)) y.natAbs (anchor - w))
    (q.1, q.2 ||| st ||| vRovf (decide (y ≠ z.sum)))

/-- The result of a segment from the codes of its operands, in TY (in RAW for SUMRAW), and the anchor of its grid. -/
def Reduce.result (r : Reduce) (anchor : Int) (cs : List Nat) : Res :=
  let zero : Sum := { sum := 0, nan := false, pinf := false, ninf := false, st := 0 }
  match r.op with
  | 0 =>
    if r.ty.isInt then fitInt r.ty.width r.sat ((cs.map (signed r.ty.width)).foldl (· + ·) 0)
    else r.finish anchor ((cs.map r.ty.decode).foldl (addOperand anchor) zero)
  | 1 => reduceBest r.ty false cs
  | 2 => reduceBest r.ty true cs
  | 3 => r.finish anchor (cs.foldl addRaw zero)
  | _ => argMax r.ty cs

/-! ### CONVERT, PERMUTE (R122, R123) -/

/-- A float converted to an integer format: to nearest even, or toward zero with TRUNC; NaN gives 0 (R122). -/
def floatToInt (tgt : Fmt) (trunc : Bool) (v : Val) : Res :=
  let lo : Int := -(2 ^ (tgt.width - 1))
  let hi : Int := 2 ^ (tgt.width - 1) - 1
  match v with
  | .nan => (0, vNanIn ||| vInv)
  | .inf n => (toCode tgt.width (if n then lo else hi), vIovf)
  | .fin n m e =>
    let q := if trunc then truncTo m e else roundTo m e 0
    let x := signInt n q.1
    if lo ≤ x ∧ x ≤ hi then (toCode tgt.width x, vInx (!q.2)) else (toCode tgt.width (clampInt x lo hi), vIovf)

/-- One element in a plain target format (R122). -/
def convert (ty tgt : Fmt) (trunc sat e4nan : Bool) (c : Nat) : Res :=
  if ty.isInt then
    let x := signed ty.width c
    if tgt.isInt then fitInt tgt.width sat x else roundV tgt e4nan (.ofInt x)
  else
    let v := ty.decode c
    if tgt.isInt then floatToInt tgt trunc v else if v.isNan then nanRes tgt else roundV tgt e4nan v

/-- A group of 2^g elements rearranged; missing elements are zero (R123). -/
def permute (op g amount : Nat) (es : List Elem) : List Elem :=
  let n := 2 ^ g
  let r := 2 ^ (g / 2)
  (List.range es.length).map (fun j =>
    nth (0, 0) es (match op with
      | 0 => n - 1 - j
      | 1 => (j + amount) % n
      | _ => j % r * r + j / r))

/-- A list of elements rearranged group by group. -/
def permuteAll (op g amount : Nat) (es : List Elem) : List Elem :=
  (List.range (ceilDiv es.length (2 ^ g))).flatMap (fun k => permute op g amount ((es.drop (k * 2 ^ g)).take (2 ^ g)))

end Sys2Proof.Machine
end

