-- ==== Sys2Proof/Machine/ChainConfig.lean ====
section
/-! DEFINITION. Chain configurations: what a record means for the chain's rate and fill time (R98, R99, R110), and whether it
is valid (R100 to R105, R119 to R124). -/
namespace Sys2Proof.Machine

/-- Fields of a stage's PARAM (R119, R122 to R124). -/
def pAmode (w : Word) : Nat := bits w 37 36
def pAnchor (w : Word) : Int := signed 10 (bits w 35 26)
def pAscl (w : Word) : Nat := bits w 25 21
def pRoutraw (w : Word) : Bool := bit w 20
def pTgt (w : Word) : Nat := bits w 37 34
def pTrunc (w : Word) : Bool := bit w 33
def pGexp (w : Word) : Nat := bits w 37 35
def pAmount (w : Word) : Nat := bits w 34 29
def pSreg (w : Word) : Nat := bits w 37 33

/-- Lane count of the widest of some formats (R99). -/
def lanesOf (fs : List Fmt) : Nat :=
  if fs.any Fmt.isMx then 64
  else match (fs.map Fmt.width).foldl max 0 with
    | 8 => 256
    | 16 => 128
    | 128 => 16
    | _ => 64

/-- Operands that a stage's operation takes (R114 to R124). -/
def stTakes (w : Word) : Nat :=
  match stType w with
  | 0 => 0
  | 1 =>
    (match stOp w with
    | 0x03 => 3
    | 0x09 => 3
    | 0x0D => 1
    | 0x11 => 1
    | 0x12 => 1
    | _ => 2)
  | _ => 1

/-- Latency of a stage (R110). -/
def stLatency (w : Word) : Nat :=
  match stType w with
  | 1 => if stOp w = 0x13 ∨ stOp w = 0x14 then 6 else 2
  | 2 => 8
  | 3 => 4
  | 4 => if (vecFmt (pTgt w)).isMx then 4 else 2
  | 5 => 2
  | 6 => 12
  | _ => 0

/-- Lane count of a stage that is not PASS (R99). -/
def stLanes (w : Word) : Nat :=
  match stType w with
  | 2 => 64
  | 3 => if stOp w = 0 then 64 else if stOp w = 3 then 16 else lanesOf [stTy w]
  | 4 => lanesOf [stTy w, vecFmt (pTgt w)]
  | 6 => 16
  | _ => lanesOf [stTy w]

/-- The stage is a floating-point SUM. -/
def isFloatSum (w : Word) : Bool := stType w == 3 && stOp w == 0 && !(stTy w).isInt

/-- TYPE, OP, TY and PARAM of a stage have no reserved encoding, and are permitted (R98, R104, R105, R114, R117, R119,
R121 to R124). -/
def stWordOk (seg : Nat) (w : Word) : Bool :=
  match stType w with
  | 0 => w == 0
  | 1 => decide (stOp w ≤ 0x14) && bits w 37 0 == 0 &&
      ((stTy w).isInt || !(stOp w == 0x0E || stOp w == 0x0F || stOp w == 0x10 || stOp w == 0x14))
  | 2 => decide (stOp w ≤ 7) && bits w 37 0 == 0 && decide (stTy w = .fp32)
  | 3 => decide (stOp w ≤ 4) && bits w 19 0 == 0 && (if stOp w = 3 then pAmode w != 0 else isFloatSum w || bits w 37 20 == 0)
  | 4 => stOp w == 0 && bits w 32 0 == 0 && pTgt w != 8 && pTgt w != 15 && (!(vecFmt (pTgt w)).isMx || seg % 32 == 0)
  | 5 => decide (stOp w ≤ 2) && bits w 28 0 == 0 && decide (1 ≤ pGexp w) && decide (pGexp w ≤ 6) &&
      (stOp w != 2 || pGexp w % 2 == 0)
  | 6 => stOp w == 0 && bits w 32 0 == 0
  | _ => false

/-- The format of an operand source: P of the previous stage, an input, or the tap (R104). -/
def selFmt (xs : List (Option Fmt)) (prev : Option Fmt) (ps : List (Option Fmt)) (tap sel : Nat) : Option Fmt :=
  match sel with
  | 0 => prev
  | 5 => nth none ps tap
  | n => nth none xs (n - 1)

/-- The selectors of the operands that a stage takes. -/
def stSels (w : Word) : List Nat := [stSa w, stSb w, stSc w].take (stTakes w)

/-- The sources of a stage are those its operation takes, in formats R105 permits. -/
def stSourcesOk (xs : List (Option Fmt)) (prev : Option Fmt) (ps : List (Option Fmt)) (k : Nat) (w : Word) : Bool :=
  let sels := stSels w
  let ok (f : Fmt) : Bool :=
    if stType w = 6 then f.isInt
    else if stType w = 3 ∧ stOp w = 3 then decide (f = .raw)
    else canWiden f (stTy w)
  ([stSa w, stSb w, stSc w].drop (stTakes w)).all (· == 0) && (stTap w == 0 || decide (stTap w < k)) &&
    (!sels.contains 5 || decide (stTap w < k)) &&
    sels.all (fun sel => decide (sel ≤ 5) &&
      (match selFmt xs prev ps (stTap w) sel with | some f => ok f | none => false))

/-- The format of a stage's P output (R98, R119, R122, R124). -/
def stOut (xs : List (Option Fmt)) (prev : Option Fmt) (ps : List (Option Fmt)) (w : Word) : Option Fmt :=
  match stType w with
  | 0 => prev
  | 3 => selFmt xs prev ps (stTap w) (stSa w)
  | 4 => some (vecFmt (pTgt w))
  | _ => some (stTy w)

/-- Formats of the P outputs of stages, in order (R98). -/
def stFmts (xs : List (Option Fmt)) : Option Fmt → List (Option Fmt) → List Word → List (Option Fmt)
  | _, ps, [] => ps
  | prev, ps, w :: ws => let f := stOut xs prev ps w; stFmts xs f (ps ++ [f]) ws

/-- The stage words of a record, VS0 first. -/
def cfgStages (c : BitVec 1024) : List Word := (List.range 8).map (cfgStage c)

/-- The format of an input, if it is used (R101). -/
def xFormat (x : Word) : Option Fmt := if xSrc x = 0 ∨ xFmt x = 15 then none else some (vecFmt (xFmt x))

/-- The formats of the inputs of a record. -/
def cfgXFmts (c : BitVec 1024) : List (Option Fmt) := (List.range 4).map (fun j => xFormat (cfgX c j))

/-- The formats of the P outputs of a record's stages. -/
def cfgPFmts (c : BitVec 1024) : List (Option Fmt) :=
  let xs := cfgXFmts c
  stFmts xs (nth none xs 0) [] (cfgStages c)

/-- The number of the REDUCE stage, if there is one. -/
def cfgReduce (c : BitVec 1024) : Option Nat := (List.range 8).find? (fun k => stType (cfgStage c k) == 3)

/-- The format of a REDUCE stage's result (R119 to R121). -/
def stResult (w : Word) : Fmt :=
  if stOp w = 4 then .int32 else if pRoutraw w && (stOp w == 3 || isFloatSum w) then .raw else stTy w

/-- An input descriptor has no reserved encoding, unused or not, and the STRIDE of an MX input is 1, but that of the tile queue,
whose STRIDE has no effect (R101, R105, R109). -/
def xOk (j : Nat) (x : Word) : Bool :=
  bits x 20 0 == 0 && decide (xSrc x ≤ 5) && (xSrc x != 5 || j == 0) &&
    xFmt x != 15 && (xSrc x == 0 || xSrc x == 5 || !(vecFmt (xFmt x)).isMx || decide (xStride x = 1))

/-- An output descriptor has no reserved encoding, used or not, no STRIDE 0, and STRIDE 1 for an MX format (R102, R105). -/
def oOk (o : Word) : Bool :=
  bits o 36 0 == 0 && decide (xSrc o ≤ 4) &&
    xFmt o != 15 && (xSrc o == 0 || (decide (xStride o ≠ 0) && (!(vecFmt (xFmt o)).isMx || decide (xStride o = 1))))

/-- The stages after a CONVERT to an MX format are PASS (R122). -/
def mxLast : List Word → Bool
  | [] => true
  | w :: ws => (stType w != 4 || !(vecFmt (pTgt w)).isMx || ws.all (fun v => stType v == 0)) && mxLast ws

/-- Each stage is sound, given the formats of the P outputs before it. -/
def stagesOk (seg : Nat) (xs ps : List (Option Fmt)) (ws : List Word) : Bool :=
  (ws.zipIdx).all (fun w => stWordOk seg w.1 &&
    stSourcesOk xs (if w.2 = 0 then nth none xs 0 else nth none ps (w.2 - 1)) (ps.take w.2) w.2 w.1)

/-- A record is valid but for the condition on VRUN (R105). -/
def cfgOk (c : BitVec 1024) : Bool :=
  let xs := cfgXFmts c
  let ps := cfgPFmts c
  let o := cfgO c
  let r := cfgR c
  let reds := (cfgStages c).filter (fun w => stType w == 3)
  bits c 1023 960 == 0 && bits c 48 0 == 0 && (List.range 4).all (fun j => xOk j (cfgX c j)) && oOk o && oOk r &&
    stagesOk (cfgSeg c) xs ps (cfgStages c) && mxLast (cfgStages c) && decide (reds.length ≤ 1) &&
    (xSrc o == 0 || (match nth none ps 7 with | some f => decide (vecFmt (xFmt o) = f) | none => false)) &&
    (match reds with
     | w :: _ => xSrc r != 0 && decide (vecFmt (xFmt r) = stResult w)
     | [] => xSrc r == 0)

/-- The record also meets the condition on VRUN: no input from the tile queue, no AMODE ENTRY (R105). -/
def cfgRunOk (c : BitVec 1024) : Bool :=
  xSrc (cfgX c 0) != 5 && (cfgStages c).all (fun w => stType w != 3 || pAmode w != 2)

/-- The rate E (R99). -/
def cfgRate (c : BitVec 1024) : Nat :=
  let o := cfgO c
  let live := (cfgStages c).filter (fun w => stType w != 0)
  let fs := (nth none (cfgXFmts c) 0).toList ++ (if xSrc o = 0 then [] else [vecFmt (xFmt o)])
  let e := match live.map stLanes with
    | [] => fs.foldl (fun n f => min n (lanesOf [f])) (if fs.isEmpty then 64 else 256)
    | l :: ls => ls.foldl min l
  let wide (x : Word) : Bool := decide (xStride x < -1) || decide (1 < xStride x)
  if (List.range 4).any (fun j => let x := cfgX c j; xSrc x != 0 && xSrc x != 5 && wide x) || (xSrc o != 0 && wide o) then
    min e 16
  else e

/-- A of R110: 2 for a floating-point SUM under AUTO. -/
def cfgSweeps (c : BitVec 1024) : Nat :=
  if (cfgStages c).any (fun w => isFloatSum w && pAmode w == 0) then 2 else 1

/-- F of R110. -/
def cfgFill (c : BitVec 1024) : Nat := 4 + ((cfgStages c).map stLatency).foldl (· + ·) 0

/-- The largest PERMUTE group (R111); 0 without a PERMUTE. -/
def cfgGroup (c : BitVec 1024) : Nat :=
  ((cfgStages c).map (fun w => if stType w = 5 then 2 ^ pGexp w else 0)).foldl max 0

/-- The TY of the CONVERT that gives O its MX format, if one does (R122). -/
def cfgMxFrom (c : BitVec 1024) : Option Fmt :=
  match (cfgStages c).find? (fun w => stType w == 4 && (vecFmt (pTgt w)).isMx) with
  | some w => some (stTy w)
  | none => none

/-- The vector format code that pairs with an entry's OFMT (R109). -/
def entryVecFmt (ofmt : Nat) : Nat := if ofmt = 15 then 8 else if ofmt ≤ 4 then ofmt else ofmt + 4

/-- The scalars that a run of a record reads at issue (R101, R102, R119, R124). -/
def cfgRegs (c : BitVec 1024) : List Nat :=
  (List.range 4).filterMap (fun j => let x := cfgX c j; if xSrc x = 0 ∨ xSrc x = 5 then none else some (xAs x)) ++
    [cfgO c, cfgR c].filterMap (fun o => if xSrc o = 0 then none else some (xAs o)) ++
    (cfgStages c).filterMap (fun w =>
      if stType w = 6 then some (pSreg w) else if stType w = 3 ∧ pAmode w = 3 then some (pAscl w) else none)

end Sys2Proof.Machine
end

