-- ==== Sys2Proof/Machine/MatrixRead.lean ====
section
/-! DEFINITION. What the matrix unit reads, and when (R65, R66, R70, R71, R79, R87): the accesses of an operation through the A
and W ports, each in its fc. The spec gives the widths of the ports and the fcs of each phase; the order within a phase is the
one in which the operand lies in memory (log 69). -/
namespace Sys2Proof.Machine

/-! ### Geometry and times (R63, R66, R79, R87) -/

/-- The tile that an MLDW, MMUL or MACC describes. -/
structure Tile where
  m : Nat
  n : Nat
  k : Nat
  a : Fmt
  w : Fmt
  deriving DecidableEq, Repr, Inhabited

def tileOf (i : InsnWord) : Tile := { m := mmM i, n := mmN i, k := mmK i, a := mmAfmt i, w := mmWfmt i }

/-- Panel depth D (R63), panels P, the depth of a panel, the row length R of a W panel, and a panel's load time (R66). -/
def Tile.depth (t : Tile) : Nat := panelDepth t.a t.w
def Tile.panels (t : Tile) : Nat := ceilDiv t.k t.depth
def Tile.kp (t : Tile) (p : Nat) : Nat := min t.depth (t.k - p * t.depth)
def Tile.rowBytes (t : Tile) : Nat := 4 * ceilDiv (t.n * t.w.width) 32
def Tile.load (t : Tile) (p : Nat) : Nat := ceilDiv (t.kp p * t.rowBytes) 64

/-- The scan time S (R87). -/
def Tile.scan (t : Tile) : Nat :=
  let sa := if t.a.isMx then t.m * ceilDiv t.k 32 else t.m * ceilDiv (t.k * t.a.width) 8
  let sw := if t.w.isMx then t.n * ceilDiv t.k 32 else t.k * t.rowBytes
  ceilDiv (max sa sw) 64

/-- The occupancy T of an MMUL or MACC that multiplies (R79): `scan` whether it scans, `kept` whether panel 0 needs no
load. -/
def Tile.time (t : Tile) (scan kept : Bool) : Nat :=
  (if scan then t.scan else 0) + (if kept then 0 else t.load 0) +
    ((range 1 (t.panels - 1)).map (fun p => max t.m (t.load p))).sum + t.m


/-- The fc, from the issue on, in which panel `p` begins to pass through the array. -/
def Tile.start (t : Tile) (scan kept : Bool) (p : Nat) : Nat :=
  (if scan then t.scan else 0) + (if kept then 0 else t.load 0) + ((range 1 p).map (fun q => max t.m (t.load q))).sum

/-- Bytes of an A row's elements, and of its blocks' scales (R70). -/
def Tile.aElems (t : Tile) : Nat := ceilDiv (t.k * t.a.width) 8
def Tile.aScales (t : Tile) : Nat := if t.a.isMx then ceilDiv t.k 32 else 0

/-- Bytes of a scale row, and of a panel's scale rows (R71). -/
def Tile.scaleRow (t : Tile) : Nat := 4 * ceilDiv t.n 4
def Tile.panelScales (t : Tile) (p : Nat) : Nat :=
  if t.w.isMx then ((p * t.depth + t.kp p - 1) / 32 - p * t.depth / 32 + 1) * t.scaleRow else 0

/-! ### Accesses -/

/-- A read through a port: its fc, the memory, the byte address and the bytes. -/
structure PortRead where
  fc   : Nat
  mem  : Nat
  addr : Nat
  n    : Nat
  deriving DecidableEq, Repr, Inhabited

/-- The reads of `len` bytes at an address, numbers `i0` on of a transfer that from fc `f0` on moves `w` bytes an fc; what is
left goes in fc number `cap`. -/
def transfer (f0 w cap i0 mem addr len : Nat) : List PortRead :=
  (range (i0 / w) (ceilDiv (i0 + len) w - i0 / w)).map (fun q =>
    let lo := max i0 (w * q)
    { fc := f0 + min q cap, mem := mem, addr := addr + (lo - i0), n := min (i0 + len) (w * (q + 1)) - lo })

/-- The operation scans for the anchor (R87), and takes panel 0 from a plane (R79). -/
def MatrixOp.scans (o : MatrixOp) : Bool := decide (o.kind = .probe) || (decide (o.kind = .mmul) && o.given.isNone)
def MatrixOp.kept (o : MatrixOp) : Bool :=
  (decide (o.kind = .mmul) || decide (o.kind = .macc)) && (mmWkeep o.insn || mmWpre o.insn)

/-- The tile of an operation: an MLDW loads panel 0 alone (R75). -/
def MatrixOp.tile (o : MatrixOp) : Tile := let t := tileOf o.insn; if o.kind = .mldw then { t with m := 1 } else t

/-- The address of row `m` of A and of panel `p` of W (R70, R71, R73). -/
def MatrixOp.aRow (o : MatrixOp) (m : Nat) : Nat := o.aBase + 16 * mmApitch o.insn * m
def MatrixOp.wPanel (o : MatrixOp) (p : Nat) : Nat := o.wBase + 64 * (if o.kind = .mldw then 0 else mmWstride o.insn) * p

/-- The scan of A: the scale bytes of an MX operand, the elements of another, row by row (R87). -/
def MatrixOp.scanA (o : MatrixOp) : List PortRead :=
  let t := o.tile
  let n := if t.a.isMx then t.aScales else t.aElems
  (List.range t.m).flatMap (fun m =>
    transfer o.issued 64 t.scan (m * n) (mmAsrc o.insn) (o.aRow m + (if t.a.isMx then t.aElems else 0)) n)

/-- The scan of W: of an MX operand the scale row of each block, once (R87). -/
def MatrixOp.scanW (o : MatrixOp) : List PortRead :=
  let t := o.tile
  if t.w.isMx then
    (List.range (ceilDiv t.k 32)).flatMap (fun b =>
      let p := 32 * b / t.depth
      transfer o.issued 64 t.scan (b * t.n) (mmWsrc o.insn)
        (o.wPanel p + t.kp p * t.rowBytes + (b - p * t.depth / 32) * t.scaleRow) t.n)
  else
    (List.range t.panels).flatMap (fun p =>
      transfer o.issued 64 t.scan (p * t.depth * t.rowBytes) (mmWsrc o.insn) (o.wPanel p) (t.kp p * t.rowBytes))

/-- The load of panel `p` from fc `f` on: its rows, and its scales on their lanes (R65, R66). -/
def MatrixOp.loadRows (o : MatrixOp) (f p : Nat) : List PortRead :=
  let t := o.tile
  transfer f 64 (t.load p) 0 (mmWsrc o.insn) (o.wPanel p) (t.kp p * t.rowBytes)
def MatrixOp.loadScales (o : MatrixOp) (f p : Nat) : List PortRead :=
  let t := o.tile
  transfer f 8 (t.load p - 1) 0 (mmWsrc o.insn) (o.wPanel p + t.kp p * t.rowBytes) (t.panelScales p)

/-- The fc in which the load of panel `p` begins: panel 0 after a scan, another as the panel before it enters the array (R79). -/
def MatrixOp.loadFrom (o : MatrixOp) (p : Nat) : Nat :=
  let t := o.tile
  o.issued + (if p = 0 then (if o.scans then t.scan else 0) else t.start o.scans o.kept (p - 1))

/-- The rows of A of panel `p`, one an fc: their elements, and their blocks' scales. -/
def MatrixOp.rowElems (o : MatrixOp) (p : Nat) : List PortRead :=
  let t := o.tile
  let f := o.issued + t.start o.scans o.kept p
  (List.range t.m).map (fun m =>
    { fc := f + m, mem := mmAsrc o.insn, addr := o.aRow m + p * t.depth * t.a.width / 8, n := ceilDiv (t.kp p * t.a.width) 8 })
def MatrixOp.rowScales (o : MatrixOp) (p : Nat) : List PortRead :=
  let t := o.tile
  let f := o.issued + t.start o.scans o.kept p
  let b := p * t.depth / 32
  if t.a.isMx then
    (List.range t.m).map (fun m =>
      { fc := f + m, mem := mmAsrc o.insn, addr := o.aRow m + t.aElems + b, n := (p * t.depth + t.kp p - 1) / 32 - b + 1 })
  else []

/-- The accesses of an operation in groups: the scan of A and of W, then of each panel its load (two groups) and the rows of A
that meet it (two groups). Under a false predicate there is none (R82). -/
def MatrixOp.groups (o : MatrixOp) : List (List PortRead) :=
  let t := o.tile
  if !o.live then []
  else if o.kind = .mldw then [[], [], o.loadRows o.issued 0, o.loadScales o.issued 0]
  else
    [if o.scans then o.scanA else [], if o.scans then o.scanW else []] ++
      (if o.kind = .probe then []
       else (List.range t.panels).flatMap (fun p =>
        let held := p == 0 && o.kept
        [if held then [] else o.loadRows (o.loadFrom p) p, if held then [] else o.loadScales (o.loadFrom p) p,
         o.rowElems p, o.rowScales p]))

/-- The reason code of a read of a memory by the unit (R129, R182): ST-0x07 of a half with a landing in progress. -/
def unitRdCode (x : Cell) (f m a n : Nat) : Nat :=
  if m < 2 ∧ x.landingIn m f then reasonCode .st 0x07 else x.rdCode m a n

/-- The earlier of two faults. -/
def earlier (a b : Option (Nat × Nat)) : Option (Nat × Nat) :=
  match a, b with
  | some x, some y => if y.1 < x.1 then b else a
  | none, b => b
  | a, none => a

/-- One access made: its bytes as they stood at the start of its fc (R128), and the fault that it meets. -/
def MatrixOp.fetch (x : Cell) (o : MatrixOp) (i : Nat) (a : PortRead) : MatrixOp :=
  let code := unitRdCode x a.fc a.mem a.addr a.n
  { o with got := o.got.insert i ((x.view a.fc).rd a.mem a.addr a.n),
           abort := earlier o.abort (if code = 0 then none else some (a.fc, code)) }

/-- The accesses of fcs up to `now` made. -/
def MatrixOp.readTo (x : Cell) (now : Nat) (o : MatrixOp) : MatrixOp :=
  (o.groups.flatten.zipIdx).foldl (fun o a =>
    if a.1.fc ≤ now ∧ (o.got.find? a.2).isNone then o.fetch x a.2 a.1 else o) o

/-- The bytes of group `g`. -/
def MatrixOp.data (o : MatrixOp) (g : Nat) : List Byte :=
  let before := ((o.groups.take g).map List.length).sum
  (List.range (nth [] o.groups g).length).flatMap (fun i => Assoc.get (fun _ => []) o.got (before + i))

/-- The panel loads of the operation have all been read by fc `now`. -/
def MatrixOp.wRead (o : MatrixOp) (now : Nat) : Bool :=
  (o.groups.zipIdx).all (fun g => decide (g.2 < 2) || decide (2 ≤ (g.2 - 2) % 4) || g.1.all (fun a => decide (a.fc ≤ now)))

end Sys2Proof.Machine
end

