-- ==== Sys2Proof/Machine/CellRun.lean ====
section
/-! DEFINITION. A cell's units in time (R80, R107, R111, R127, R128): the reads that the local stream unit, the matrix unit and a
VCFG load make up to an fc, a pass of the vector chain batch by batch, and what every write of the cell's memories does first,
so that each read sees each memory as it stood at the start of its fc. -/
namespace Sys2Proof.Machine

/-! ### Reads and writes of an fc (R128) -/

/-- The bytes of a VCFG load read up to fc `now`: 16 an fc (R107). -/
def VcfgLoad.readTo (x : Cell) (now : Nat) : Nat → VcfgLoad → VcfgLoad
  | 0, l => l
  | fuel + 1, l =>
    let f := l.issued + l.got.length / 16
    if l.live ∧ l.got.length < 128 ∧ f ≤ now then
      VcfgLoad.readTo x now fuel { l with got := l.got ++ (x.view f).rd 3 (l.addr + l.got.length) 16 }
    else l

/-- The local stream in progress, the matrix unit and a VCFG load have made their reads up to fc `now`. -/
def Cell.readTo (x : Cell) (now : Nat) : Cell :=
  { x with
    streams := (match x.streams with
      | st :: sts => (if st.started then LocalStream.catchUp x now 16 st else st) :: sts
      | [] => []),
    matrix := { x.matrix with ops := x.matrix.ops.map (MatrixOp.readTo x now) },
    vector := { x.vector with load := x.vector.load.map (VcfgLoad.readTo x now 8) } }

/-- The writer's place in the order of R128. -/
def rankSpst : Nat := 1
def rankLd : Nat := 2
def rankLw : Nat := 3
def rankVr : Nat := 4
def rankVo : Nat := 5

/-- A byte write of this fc to an address of a memory. -/
def Cell.wroteAt (x : Cell) (m a : Nat) : Option ByteWrite := x.wrote.find? (fun w => w.mem == m && w.addr == a)

/-- The byte that stands at an address after a write of `b` in this fc: the writer latest in the order prevails (R128). -/
def Cell.settled (x : Cell) (rank m a : Nat) (b : Byte) : Byte :=
  match x.wroteAt m a with
  | some w => if rank < w.rank then (x.mem m).read a else b
  | none => b

/-- The record of a byte written in this fc. -/
def Cell.note (x : Cell) (rank m a : Nat) : Cell :=
  match x.wroteAt m a with
  | some w => { x with wrote := x.wrote.map (fun v => if v = w then { w with rank := max w.rank rank } else v) }
  | none => { x with wrote := { mem := m, addr := a, old := (x.mem m).read a, rank := rank } :: x.wrote }

/-- The address of byte `i` from `a` on; scratch is not wrapped. -/
def memAddr (m a i : Nat) : Nat := if m = 3 then a + i else (a + i) % memSize m

/-- A later write of scratch prevails over what a pass has put there and other reads have yet to see (R111, R128). -/
def Cell.overtake (x : Cell) (now a n : Nat) : Cell :=
  { x with vector := { x.vector with run := x.vector.run.map (fun r =>
      { r with pos := { r.pos with late := r.pos.late.filter (fun e => decide (e.1 = now) || !(decide (a ≤ e.2.1) && decide (e.2.1 < a + n))) } }) } }

/-- Bytes written in fc `now` to a memory at an address by a writer of a rank. -/
def Cell.put (x : Cell) (now rank m a : Nat) (bs : List Byte) : Cell :=
  let x := x.readTo now
  let x := if x.wroteFc = now then x else { x with wroteFc := now, wrote := [] }
  let vs := (bs.zipIdx).map (fun b => x.settled rank m (memAddr m a b.2) b.1)
  let x := (List.range bs.length).foldl (fun x i => x.note rank m (memAddr m a i)) x
  match m with
  | 2 => x.bankWrite (a % bankBytes) vs
  | 3 => (x.setMem 3 ((x.mem 3).writeN 0 a vs)).overtake now a bs.length
  | m => x.setMem m ((x.mem m).writeN (memSize m) a vs)

/-! ### A pass (R109 to R124) -/

/-- What a pass works by: its record, the issue fc, the count and segment length, the rate, sweeps, fill time and largest group,
the captured entry, the scalars, and the REDUCE stage. -/
structure Pass where
  cfg    : BitVec 1024
  fc     : Nat
  n      : Nat
  seg    : Nat
  rate   : Nat
  sweeps : Nat
  fill   : Nat
  group  : Nat
  entry  : Option TileEntry
  regs   : List Word
  red    : Option Reduce
  deriving DecidableEq, Repr, Inhabited

/-- Batches of a sweep. -/
def Pass.batches (r : Pass) : Nat := ceilDiv r.n r.rate

/-- B of R111. -/
def Pass.lead (r : Pass) : Nat := (r.sweeps - 1) * r.batches

/-- The base address of a descriptor (R101, R102). -/
def Pass.base (r : Pass) (d : Word) : Nat :=
  let a := (nth 0 r.regs (xAs d)).toNat % 2 ^ 20
  if xSrc d = 4 then a / 8 * 8 else a

/-- Scalar `k` as read at issue. -/
def Pass.reg (r : Pass) (k : Nat) : Nat := (nth 0 r.regs k).toNat

/-- The fc in which the result of element `i` is written (R111). -/
def Pass.writeFc (r : Pass) (i : Nat) : Nat :=
  let j := if r.group ≤ r.rate then i else min ((i / r.group + 1) * r.group) r.n - 1
  r.fc + r.lead + j / r.rate + r.fill - 1

/-- The fc in which batch `n`, counted over the sweeps, is read (R111). -/
def Pass.readFc (r : Pass) (n : Nat) : Nat := r.fc + n

/-- The memory that a descriptor's SRC or DST names (R101, R102). -/
def descMem (src : Nat) : Nat := src - 1

/-- A place of `n` bytes at a byte address, wrapped in its memory (R73, R101): none past the scratch (R55). -/
def placeAt (m : Nat) (a : Int) (n : Nat) : Option Nat :=
  if m = 3 then (if 0 ≤ a ∧ a + n ≤ 0x3000 then some a.toNat else none)
  else some (a % (memSize m : Int)).toNat

/-- `n` bytes at a byte address of a memory as a read of fc `f` finds it, with the reason code of the read (R55, R129, R182). -/
def chainBytes (x : Cell) (f m : Nat) (a : Int) (n : Nat) : List Byte × Nat :=
  match placeAt m a n with
  | none => ([], reasonCode .ov 0x0A)
  | some a => (x.rd m a n, unitRdCode x f m a n)

/-- The memories as the pass in progress sees them in fc `f`: its results in scratch of earlier fcs stand there (R111). -/
def Cell.passView (x : Cell) (z : PassState) (f : Nat) : Cell :=
  let y := x.view f
  { y with scratch := (z.late.filter (fun e => decide (e.1 < f))).foldl (fun m e => m.write e.2.1 e.2.2) y.scratch }

/-- The element at offset `e` of a row layout or an array (R96, R101), read through `get` (byte offset, length). -/
def elemAt (f : Fmt) (e : Int) (get : Int → Nat → List Byte × Nat) : Elem × Nat :=
  if f.isMx then
    let row := e / 64 * rowPitch f
    let col := (e % 64).toNat
    let b := col * f.width
    let d := get (row + (b / 8 : Nat)) ((b % 8 + f.width + 7) / 8)
    let sc := get (row + (8 * f.width + col / 32 : Nat)) 1
    ((leNat d.1 >>> (b % 8) % 2 ^ f.width, leNat sc.1), firstCode [d.2, sc.2])
  else
    let d := get (e * (f.width / 8 : Nat)) (f.width / 8)
    ((leNat d.1, 0), d.2)

/-- Element `i` of input X`j` (R101, R109), and the reason code of its read. -/
def Pass.readX (r : Pass) (x : Cell) (fc j i : Nat) : Elem × Nat :=
  let d := cfgX r.cfg j
  let f := vecFmt (xFmt d)
  match xSrc d, r.entry with
  | 0, _ => ((0, 0), 0)
  | 5, some t =>
    let row := i / t.cols * rowPitch f
    elemAt f (i % t.cols : Nat) (fun o n => (slice t.bytes (row + o.toNat) n, 0))
  | src, _ =>
    let e := (i / r.seg : Nat) * xSegStride d + (i % r.seg : Nat) * xStride d
    elemAt f e (fun o n => chainBytes x fc (descMem src) (r.base d + o) n)

/-- An input is a broadcast: one read per segment (R101). -/
def isCast (d : Word) : Bool := xSrc d != 0 && xSrc d != 5 && decide (xStride d = 0)

/-- The inputs of element `i`, read in fc `f` from a cell. -/
def Pass.readInputs (r : Pass) (x : Cell) (f : Nat) (z : PassState) (i : Nat) : PassState × List Elem :=
  let one (z : PassState × List Elem) (j : Nat) : PassState × List Elem :=
    let d := cfgX r.cfg j
    let old := match nth none z.1.cast j with
      | some (s, e) => if isCast d ∧ s = i / r.seg then some e else none
      | none => none
    match old with
    | some e => (z.1, z.2 ++ [e])
    | none =>
      let e := r.readX x f j i
      ({ z.1 with cast := setNth z.1.cast j (some (i / r.seg, e.1)),
                  abort := earlier z.1.abort (if e.2 = 0 then none else some (f, e.2)) }, z.2 ++ [e.1])
  (List.range 4).foldl one (z, [])

/-- A result of the pass on its way to a memory (R111): past the scratch it aborts (R55). -/
def PassState.put (z : PassState) (f m : Nat) (a : Int) (bs : List Byte) (keep : Nat := 0) (viaR : Bool := false) : PassState :=
  match placeAt m a bs.length with
  | none => { z with abort := earlier z.abort (some (f, reasonCode .ov 0x0A)) }
  | some a => { z with writes := z.writes ++ [{ fc := f, mem := m, addr := a, bytes := bs, keep := keep, viaR := viaR }] }

/-- A result's flags recorded. -/
def PassState.flag (z : PassState) (st : BitVec 32) : PassState := { z with st := z.st ||| st }

/-- Element `i` is the last of its segment. -/
def Pass.segEnd (r : Pass) (i : Nat) : Bool := decide (i + 1 = min r.n ((i / r.seg + 1) * r.seg))

/-- One operand of the REDUCE stage, and its segment's result at the segment's end (R111, R119, R120). -/
def Pass.reduceOne (r : Pass) (red : Reduce) (final : Bool) (z : PassState) (i c : Nat) : PassState :=
  let z := { z with segOps := z.segOps ++ [c] }
  if r.segEnd i then
    let s := i / r.seg
    let cs := z.segOps
    let z := { z with segOps := [] }
    if final then
      let anchor := match red.anchor with
        | some a => a
        | none => nth 0 z.grids s
      let v := red.result anchor cs
      let o := cfgR r.cfg
      let w := red.fmt.width / 8
      (z.flag v.2).put (r.writeFc i) (descMem (xSrc o)) (r.base o + s * xStride o * w) (leBytes w v.1) 0 true
    else { z with grids := z.grids ++ [autoSum red.ty cs] }
  else z

/-- The index of a GATHER looked up in its table in tier 0 (R124). -/
def Pass.gather (r : Pass) (x : Cell) (w : Word) (f : Nat) (z : PassState) (fi : Fmt) (e : Elem) : PassState × Elem :=
  let d := r.reg (pSreg w)
  let ix := signed fi.width e.1
  let n := (stTy w).width / 8
  if ix < 0 ∨ (nbits d 47 24 : Int) ≤ ix then
    ({ z with abort := earlier z.abort (some (f, reasonCode .st 0x05)) }, (0, 0))
  else
    let v := chainBytes x f 2 (d % 2 ^ 20 + ix * n) n
    ({ z with abort := earlier z.abort (if v.2 = 0 then none else some (f, v.2)) }, (leNat v.1, 0))

/-- The P outputs of the stages so far, with their formats. -/
abbrev Taps := List (List Elem × Fmt)

/-- An operand of a stage: P of the previous stage, an input, or the tap (R104). -/
def Pass.operand (r : Pass) (ins : List (List Elem)) (cur : List Elem × Fmt) (ps : Taps) (w : Word) (sel : Nat) :
    List Elem × Fmt :=
  match sel with
  | 0 => cur
  | 5 => nth ([], .fp32) ps (stTap w)
  | n => (ins.map (fun x => nth (0, 0) x (n - 1)), vecFmt (xFmt (cfgX r.cfg (n - 1))))

/-- An operand list widened to a stage's TY, with the flags that sets (R105). -/
def widenAll (ty : Fmt) (a : List Elem × Fmt) : List Nat × BitVec 32 :=
  let rs := a.1.map (widen ty a.2)
  (rs.map (·.1), orFlags (rs.map (·.2)))

/-- Stage `k` on the elements from number `i0` (R114 to R124): the new state and its P output. -/
def Pass.stage (r : Pass) (x : Cell) (final : Bool) (f i0 : Nat) (ins : List (List Elem)) (cur : List Elem × Fmt) (ps : Taps) (w : Word)
    (z : PassState) : PassState × (List Elem × Fmt) :=
  let ty := stTy w
  let raws := (stSels w).map (r.operand ins cur ps w)
  let a := nth ([], .fp32) raws 0
  let keep (st : BitVec 32) (z : PassState) : PassState := if final then z.flag st else z
  let each (g : List Nat → Res) : PassState × (List Elem × Fmt) :=
    let cols := raws.map (widenAll ty)
    let rs := (List.range a.1.length).map (fun q => g (cols.map (fun c => nth 0 c.1 q)))
    (keep (orFlags (cols.map (·.2)) ||| orFlags (rs.map (·.2))) z, (rs.map (fun v => (v.1, 0)), ty))
  match stType w with
  | 0 => (z, cur)
  | 1 => each (aluFmt ty (stSat w) (cfgE4nan r.cfg) (stOp w))
  | 2 => each (fun c => sfu (stOp w) (nth 0 c 0))
  | 3 =>
    match r.red with
    | none => (z, a)
    | some red =>
      let cs := if red.op = 3 then (a.1.map (·.1), 0) else widenAll ty a
      ((cs.1.zipIdx i0).foldl (fun z c => r.reduceOne red final z c.2 c.1) (keep cs.2 z), a)
  | 4 =>
    let tgt := vecFmt (pTgt w)
    if tgt.isMx then
      let cs := widenAll ty a
      (keep cs.2 z, (cs.1.map (fun c => (c, 0)), tgt))
    else
      let q := each (fun c => convert ty tgt (pTrunc w) (stSat w) (cfgE4nan r.cfg) (nth 0 c 0))
      (q.1, (q.2.1, tgt))
  | 5 =>
    let cs := widenAll ty a
    (keep cs.2 z, (permuteAll (stOp w) (pGexp w) (pAmount w) (cs.1.map (fun c => (c, 0))), ty))
  | _ =>
    let q := a.1.foldl (fun (q : PassState × List Elem) e =>
      let y := r.gather x w f q.1 a.2 e
      (y.1, q.2 ++ [y.2])) (z, [])
    (q.1, (q.2, ty))

/-- The stages in order: the state, the last P output and all of them. -/
def Pass.stages (r : Pass) (x : Cell) (final : Bool) (f i0 : Nat) (ins : List (List Elem)) :
    List Word → List Elem × Fmt → Taps → PassState → PassState × (List Elem × Fmt) × Taps
  | [], cur, ps, z => (z, cur, ps)
  | w :: ws, cur, ps, z =>
    let q := r.stage x final f i0 ins cur ps w z
    Pass.stages r x final f i0 ins ws q.2 (ps ++ [q.2]) q.1

/-- The code of one MX element put in its row (R72, R96). -/
def Pass.putBits (r : Pass) (z : PassState) (f i c : Nat) : PassState :=
  let o := cfgO r.cfg
  let fm := vecFmt (xFmt o)
  let b := i % 64 * fm.width
  let n := (b % 8 + fm.width + 7) / 8
  z.put f (descMem (xSrc o)) (r.base o + (i / 64 * rowPitch fm + b / 8 : Nat)) (leBytes n (c * 2 ^ (b % 8)))
    (2 ^ (8 * n) - 1 - (2 ^ fm.width - 1) * 2 ^ (b % 8))

/-- The scale byte of the block of O that holds element `i` (R96, R122). -/
def Pass.putScale (r : Pass) (z : PassState) (f i sc : Nat) : PassState :=
  let o := cfgO r.cfg
  let fm := vecFmt (xFmt o)
  z.put f (descMem (xSrc o)) (r.base o + (i / 64 * rowPitch fm + 8 * fm.width + i % 64 / 32 : Nat)) [BitVec.ofNat 8 sc]

/-- An MX block's elements and its scale byte, whole in the fc of its last element, on which its scale rests (R91, R122; log 105).
A block that starts inside one of O overwrites that one's scale byte; the positions of O past a partial block stay as they are
(log 105). -/
def Pass.putBlock (r : Pass) (z : PassState) (ty : Fmt) (last : Nat) : PassState :=
  let vs := z.block.map (fun e => ty.decode e.1)
  let b := (vecFmt (xFmt (cfgO r.cfg))).mxBlock vs
  let first := last + 1 - vs.length
  let f := r.writeFc last
  let z := { z.flag (vNan b.bad ||| vNanIn (vs.any Val.isNan) ||| vScaleClamp b.clamp ||| vInx b.inex) with block := [] }
  let z := (b.codes.zipIdx first).foldl (fun z c => r.putBits z f c.2 c.1) z
  r.putScale z f first b.scale

/-- Element `i` of the chain's output (R98, R102, R111, R122). An MX element that no CONVERT has formed is forwarded unchanged, with
its block's scale byte. -/
def Pass.putElem (r : Pass) (z : PassState) (i : Nat) (e : Elem) : PassState :=
  let o := cfgO r.cfg
  let fm := vecFmt (xFmt o)
  if fm.isMx then
    match cfgMxFrom r.cfg with
    | some ty =>
      let z := { z with block := z.block ++ [e] }
      if r.segEnd i || i % r.seg % 32 == 31 then r.putBlock z ty i else z
    | none => r.putScale (r.putBits z (r.writeFc i) i e.1) (r.writeFc i) i e.2
  else
    let w := fm.width / 8
    z.put (r.writeFc i) (descMem (xSrc o)) (r.base o + i * xStride o * w) (leBytes w e.1)

/-- The stages that work on every batch as it is read, and those from the first PERMUTE on whose groups span batches (R111). -/
def Pass.split (r : Pass) : List Word × List Word :=
  let ws := cfgStages r.cfg
  if r.group ≤ r.rate then (ws, []) else ws.span (fun w => stType w != 5)

/-- Elements of the pipeline as the later stages take them: their inputs and the P outputs so far. -/
def tapsOf (fs : List Fmt) (es : List (List Elem)) : Taps :=
  (fs.zipIdx).map (fun f => (es.map (fun e => nth (0, 0) e (4 + f.2)), f.1))

/-- Batch number `b`, counted over the sweeps, from a cell (R111): its reads, the stages before a PERMUTE whose groups span
batches, and the other stages on every element whose group is whole. -/
def Pass.batch (r : Pass) (x : Cell) (z : PassState) (b : Nat) : PassState :=
  let final := decide (r.lead ≤ b)
  let k := if final then b - r.lead else b
  let f := r.readFc b
  let y := x.passView z f
  let z := { z with next := b + 1 }
  let z := if k = 0 then { z with buf := [], done := 0, cast := [none, none, none, none], segOps := [] } else z
  let i0 := k * r.rate
  let hi := min r.n ((k + 1) * r.rate)
  let q := (range i0 (hi - i0)).foldl (fun (q : PassState × List (List Elem)) i =>
    let e := r.readInputs y f q.1 i
    (e.1, q.2 ++ [e.2])) (z, [])
  let ins := q.2
  let x0 := (ins.map (fun x => nth (0, 0) x 0), vecFmt (xFmt (cfgX r.cfg 0)))
  let out (z : PassState) (i0 : Nat) (es : List Elem) : PassState :=
    if final ∧ xSrc (cfgO r.cfg) ≠ 0 then (es.zipIdx i0).foldl (fun z e => r.putElem z e.2 e.1) z else z
  let p := r.stages y final f i0 ins r.split.1 x0 [] q.1
  if r.split.2.isEmpty then out { p.1 with done := hi } i0 p.2.1.1
  else
    let row (e : List Elem × Nat) : List Elem := e.1 ++ p.2.2.map (fun t => nth (0, 0) t.1 e.2)
    let buf := p.1.buf ++ (ins.zipIdx).map row
    let i1 := p.1.done
    let ready := if hi = r.n then hi - i1 else hi / r.group * r.group - i1
    let z := { p.1 with buf := buf.drop ready, done := i1 + ready }
    let es := buf.take ready
    if ready = 0 then z
    else
      let ps := tapsOf (p.2.2.map (·.2)) es
      let cur := match ps.getLast? with
        | some t => t
        | none => (es.map (fun e => nth (0, 0) e 0), x0.2)
      let w := r.stages y final f i1 (es.map (List.take 4)) r.split.2 cur ps z
      out w.1 i1 w.2.1.1

/-- The REDUCE stage of a record as it runs (R119 to R121). -/
def reduceOf (cfg : BitVec 1024) (regs : List Word) (entry : Option TileEntry) : Option Reduce :=
  match cfgReduce cfg with
  | none => none
  | some k =>
    let w := cfgStage cfg k
    let given : Option Int := match pAmode w with
      | 1 => some (pAnchor w)
      | 3 => some (signed 10 (nth 0 regs (pAscl w)).toNat)
      | _ => none
    let anchor := if pAmode w = 2 then entry.map (fun t => t.anchor.toInt) else given
    let amis := stOp w == 3 && xSrc (cfgX cfg 0) == 5 && (match entry, given with
      | some t, some a => decide (t.anchor.toInt ≠ a)
      | _, _ => false)
    some { op := stOp w, ty := stTy w, sat := stSat w, e4nan := cfgE4nan cfg, raw := decide (stResult w = .raw),
           anchor := anchor, amis := amis }

/-- The pass in progress, under the active configuration. -/
def VectorRun.pass (r : VectorRun) (v : VectorUnit) : Pass :=
  let cfg := v.active
  let entry := if r.tile then some v.input else none
  { cfg := cfg, fc := r.issued, n := r.n, seg := r.seg, rate := cfgRate cfg, sweeps := cfgSweeps cfg, fill := cfgFill cfg,
    group := cfgGroup cfg, entry := entry, regs := r.regs, red := reduceOf cfg r.regs entry }

/-- A pass that has read nothing. -/
def PassState.init (st : BitVec 32) : PassState :=
  { next := 0, buf := [], done := 0, cast := [none, none, none, none], segOps := [], grids := [], block := [], writes := [],
    late := [], st := st, abort := none }

/-! ### A pass in its cell -/

/-- The pass in progress with its position changed. -/
def Cell.updPass (x : Cell) (g : PassState → PassState) : Cell :=
  { x with vector := { x.vector with run := x.vector.run.map (fun r => { r with pos := g r.pos }) } }

/-- A result written (R111, R127, R128): into scratch, other reads see it at the pass's end. ST-0x07 where a landing is in progress
in the half (R129). -/
def Cell.commit (x : Cell) (z : PassState) (w : PassWrite) : Cell :=
  if w.mem < 2 ∧ x.landingIn w.mem w.fc then x.updPass (fun z => { z with abort := earlier z.abort (some (w.fc, reasonCode .st 0x07)) })
  else
    let old := leNat ((x.passView z (w.fc + 1)).rd w.mem w.addr w.bytes.length)
    let bs := if w.keep = 0 then w.bytes else leBytes w.bytes.length ((old &&& w.keep) ||| leNat w.bytes)
    if w.mem = 3 then x.updPass (fun z =>
      { z with late := z.late ++ (bs.zipIdx).map (fun b => (w.fc, w.addr + b.2, b.1)) })
    else x.put w.fc (if w.viaR then rankVr else rankVo) w.mem w.addr bs

/-- The results due before fc `f` are written in the order of their fcs; none from the fc of a fault on (R59). -/
def Cell.commitTo (x : Cell) (f : Nat) : Cell :=
  match x.vector.run with
  | none => x
  | some r =>
    let due := sortOn (·.fc) (r.pos.writes.filter (fun w => decide (w.fc < f)))
    let x := x.updPass (fun z => { z with writes := z.writes.filter (fun w => !decide (w.fc < f)) })
    due.foldl (fun x w =>
      match x.vector.run with
      | some r => (match r.pos.abort with
        | some a => if a.1 ≤ w.fc then x else x.commit r.pos w
        | none => x.commit r.pos w)
      | none => x) x

/-- The batches of reads of fcs up to `now`, each after the results of the fcs before it; none after a fault. -/
def Cell.passTo (now : Nat) : Nat → Cell → Cell
  | 0, x => x
  | fuel + 1, x =>
    match x.vector.run with
    | none => x
    | some r =>
      let q := r.pass x.vector
      let f := q.readFc r.pos.next
      let ended := match r.pos.abort with
        | some a => decide (a.1 ≤ f)
        | none => false
      if r.live ∧ ended = false ∧ r.pos.next < q.sweeps * q.batches ∧ f ≤ now then
        let x := x.commitTo f
        Cell.passTo now fuel (x.updPass (fun z => q.batch x z z.next))
      else x

/-- What the units of the cell do up to fc `now`: every read of an fc up to it, every result of the chain of an fc before it. -/
def Cell.advance (x : Cell) (now : Nat) : Cell :=
  let fuel := match x.vector.run with
    | some r => now + 1 - r.issued
    | none => 0
  ((Cell.passTo now fuel x).commitTo now).readTo now

/-- Bytes written in fc `now` to a memory by an instruction, a landing or a stream. -/
def Cell.wr (x : Cell) (now rank m a : Nat) (bs : List Byte) : Cell := (x.advance now).put now rank m a bs

end Sys2Proof.Machine
end

