-- ==== Sys2Proof/Machine/Router.lean ====
section
/-! DEFINITION. What the mesh commands share (R31 to R36): putting a flit on a link, entering a token in a queue, the lane
slots of a route. -/
namespace Sys2Proof.Machine

/-- The forwarding byte of a fold for a flit that arrives on a side in a lane (R162, R163). -/
def fwdByte (f : Fold) (key : Nat) : Nat := bits f.fwd (8 * key + 7) (8 * key)

/-- The flit that crosses link `out` of cell `c` from fc `i` on, and what it reaches (R31, R32, R163). -/
def crossLink (c out i : Nat) (body : FlitBody) : Option Flit :=
  match neighbour c out with
  | some (d, bridge) =>
    some { dest := d, toEngine := false, due := i + hopFc bridge, side := opposite out, lane := i % 4, bridge := bridge,
           body := body }
  | none =>
    (engineAt c out).map (fun e =>
      { dest := e, toEngine := true, due := i + 2, side := opposite out, lane := i % 4, bridge := false, body := body })

/-- A flit put on a link. -/
def sendFlit (s : State) (p c out i : Nat) (body : FlitBody) : State :=
  match crossLink c out i body with
  | some f => s.updPart p (fun x => { x with flits := x.flits ++ [f] })
  | none => s

/-- A token enters the queue of its port in fc `f`, behind those that have entered by then (R33). -/
def Cell.enqueue (x : Cell) (t : Token) (f : Nat) : Cell :=
  let port := t.dport.toNat
  let q := nth [] x.queues port
  let e : Queued := { tok := t, entered := f }
  let q' := q.filter (fun d => decide (d.entered ≤ f)) ++ e :: q.filter (fun d => !decide (d.entered ≤ f))
  { x with queues := setNth x.queues port q' }

/-- The first slot of a lane from fc `i` on (R31). -/
def slotFrom (lane i : Nat) : Nat := nextMod 4 (lane % 4) i

/-- A flit that the cell's router delivers: a token to its queue in the next fc, other flits to the cell (R32, R131,
R150). -/
def Cell.deliverFlit (x : Cell) (key due : Nat) (body : FlitBody) : Cell :=
  match body with
  | .token t => x.enqueue t (due + 1)
  | .tokenFirst => x
  | .tokenSecond t => x.enqueue t (due + 1)
  | b => { x with inbox := x.inbox ++ [{ key := key, fc := due, body := b }] }

/-- An error of a bridge or a culvert, counted on a die (R12, R423). -/
def countLink (s : State) (die : Nat) (ecc : EccResult) : State :=
  match ecc with
  | .good => s
  | .corrected => odCount s (0x4000 + 0x100 * die) 0x22 0 32
  | .uncorrectable => odCount s (0x4000 + 0x100 * die) 0x23 0 32

/-- A fault of an arriving flit without a header: the cell's current fold and tag 0 (R59). -/
def arrivalAbort (s : State) (p c : Nat) (cl : Cls) (n : Nat) : State := abortTask s p cl n c (s.cell c).cur 0

/-- A firing of a fold, running or suspended, changed by a function (R47). -/
def Cell.updFiring (x : Cell) (fold : Nat) (g : Firing → Firing) : Cell :=
  match x.firing with
  | some f => if f.fold = fold then { x with firing := some (g f) }
              else x.updFold fold (fun y => { y with susp := y.susp.map g })
  | none => x.updFold fold (fun y => { y with susp := y.susp.map g })

/-- Run `f` at fc `t` of the cell's partition. -/
def cellAtFc (s : State) (c t : Nat) (f : Nat → State → State) : State :=
  match partOfCell s c with
  | some p => atFc s p t (f p)
  | none => s

end Sys2Proof.Machine
end

