-- ==== Sys2Proof/Machine/Sync.lean ====
section
/-! DEFINITION. The sync class (R54, R56 to R58), its actions 8 fc and results 16 fc after issue, waits and holds (R320). -/
namespace Sys2Proof.Machine

/-! ### Issue -/

/-- The kinds that return an object to S[D]. -/
def returnsObj (op : Nat) : Bool := op == 0x20 || op == 0x21 || op == 0x23 || op == 0x26

/-- The kinds that wait. -/
def waitsObj (op : Nat) : Bool := op == 0x22 || op == 0x25

/-- The value a sync instruction takes: IMM[31:0] or S[B][31:0] (R56); SYSET takes all of S[B]. -/
def syncValue (k : Issue) (s : State) : Word :=
  if opcode k.insn = 0x24 then k.reg s (fB k.insn)
  else if fIm k.insn then BitVec.ofNat 64 (nbits (fImm k.insn) 31 0)
  else BitVec.ofNat 64 (bits (k.reg s (fB k.insn)) 31 0)

/-- A sync operation goes out: it acts in fc t + 8 (R57). A wait stalls the firing until it ends, whatever its predicate;
an instruction that reads S[D] stalls until the result arrives (R54). -/
def syncIssue (k : Issue) (s : State) : State :=
  let op := opcode k.insn
  let o : SyncOp :=
    { cell := k.cell, fold := k.fold, tag := k.tag, opcode := op,
      die := if op = 0x26 then nbits (fImm k.insn) 45 44 else cellDie k.cell, obj := nbits (fImm k.insn) 43 32,
      value := syncValue k s, dest := fD k.insn, limit := if waitsObj op then 256 * nbits (fImm k.insn) 63 48 else 0,
      live := k.pred, issued := k.fc, acted := false, result := 0, met := none }
  let s := s.updPart k.part (fun x => { x with syncOps := x.syncOps ++ [o] })
  s.updCell k.cell (fun x =>
    let x := if returnsObj op then x.updFold k.fold (fun f => { f with awaited := f.awaited ++ [fD k.insn] }) else x
    if waitsObj op then { x with firing := x.firing.map (fun f => { f with waiting := true }) } else x)

/-- SYADD: COUNT += value; the old object to S[D]. -/
def execSyadd (c : Nat) (s : State) : Host.Outcome State Fault Refusal := issue 0x20 c syncIssue s

/-- SYMAX: VALUE = max(VALUE, value); COUNT += 1. -/
def execSymax (c : Nat) (s : State) : Host.Outcome State Fault Refusal := issue 0x21 c (fun k s => syncIssue k s) s

/-- SYWAIT: stall until COUNT ≥ value. -/
def execSywait (c : Nat) (s : State) : Host.Outcome State Fault Refusal := issue 0x22 c (fun k s => syncIssue k s) s

/-- SYRD: S[D] = the object. -/
def execSyrd (c : Nat) (s : State) : Host.Outcome State Fault Refusal := issue 0x23 c (fun k s => syncIssue k s) s

/-- SYSET: the object = S[B]. -/
def execSyset (c : Nat) (s : State) : Host.Outcome State Fault Refusal := issue 0x24 c (fun k s => syncIssue k s) s

/-- SYARR: COUNT += 1, then stall until COUNT ≥ value. -/
def execSyarr (c : Nat) (s : State) : Host.Outcome State Fault Refusal := issue 0x25 c (fun k s => syncIssue k s) s

/-- XPREAD: S[D] = an object shared by another partition (R58). -/
def execXpread (c : Nat) (s : State) : Host.Outcome State Fault Refusal := issue 0x26 c (fun k s => syncIssue k s) s

/-! ### Action -/

/-- COUNT and VALUE of an object (R56). -/
def objCount (v : Word) : Nat := bits v 31 0
def objValue (v : Word) : BitVec 32 := BitVec.ofNat 32 (bits v 63 32)

/-- An object of a VALUE and a COUNT. -/
def mkObj (value : BitVec 32) (count : Nat) : Word := BitVec.ofNat 64 (value.toNat * 2 ^ 32 + count)

/-- The object after an operation, none when COUNT would pass 0xFFFF_FFFF (R56). -/
def syncResult (op : Nat) (old value : Word) : Option Word :=
  let add (n : Nat) (v : BitVec 32) : Option Word := if objCount old + n < 2 ^ 32 then some (mkObj v (objCount old + n)) else none
  match op with
  | 0x20 => add (bits value 31 0) (objValue old)
  | 0x21 =>
    let v := BitVec.ofNat 32 (bits value 31 0)
    add 1 (if (objValue old).slt v then v else objValue old)
  | 0x24 => some value
  | 0x25 => add 1 (objValue old)
  | _ => some old

/-- An XPREAD by partition `p` may read the object (R58). -/
def shared (s : State) (p die obj : Nat) : Bool :=
  match partOfEighth s (syncEighth die obj) with
  | some q => (odForce s 0x1900 0x02 q).testBit p
  | none => false

/-- A firing's wait ends: its next instruction issues in fc `f` (R57, R142). -/
def wake (s : State) (c fold f : Nat) : State :=
  s.updCell c (fun x => x.updFiring fold (fun g => { g with waiting := false, ready := max g.ready f }))

/-- One operation on its object (R56 to R58): it has acted, and a SYSET is over. -/
def actOne (p : Nat) (s : State) (o : SyncOp) : State :=
  let old := s.syncObj o.die o.obj
  let done (s : State) (r : Word) : State :=
    s.updPart p (fun x =>
      let ops := if o.opcode = 0x24 then x.syncOps.erase o
        else x.syncOps.map (fun y => if y = o then { o with acted := true, result := r } else y)
      { x with syncOps := ops })
  if o.opcode = 0x26 then
    if !o.live then done s 0
    else if shared s p o.die o.obj then done s old
    else done (odCount s 0x1900 0x04 0 32) 0
  else if !o.live then done s old
  else match syncResult o.opcode old o.value with
    | none => done (unitAbort s p o.cell o.fold o.tag (reasonCode .ov 0x05)) old
    | some v =>
      let s := if o.opcode = 0x20 ∨ o.opcode = 0x21 ∨ o.opcode = 0x24 ∨ o.opcode = 0x25 then syncWrite s p o.die o.obj v else s
      done s old

/-- A wait's condition: COUNT of its object meets the value (R57). -/
def meets (s : State) (o : SyncOp) : Bool := decide (bits o.value 31 0 ≤ objCount (s.syncObj o.die o.obj))

/-- The waits that have acted are evaluated at the end of fc `now` (R57). A wait on an arrival object is evaluated when it
acts, and at the end of a hold (R320). -/
def evalWaits (p now : Nat) (s : State) : State :=
  s.updPart p (fun x => { x with syncOps := x.syncOps.map (fun o =>
    if waitsObj o.opcode && o.acted && !arrivalObj s p o.die o.obj then
      (match o.met with
       | none => if meets s o then { o with met := some now } else o
       | some m => if m = now && !meets s o then { o with met := none } else o)
    else o) })

/-- The waits on arrival objects that are not satisfied. -/
def openArrivals (s : State) (p : Nat) : List SyncOp :=
  (s.part p).syncOps.filter (fun o => waitsObj o.opcode && o.acted && o.met.isNone && arrivalObj s p o.die o.obj)

/-- Both conditions of R320 hold for every wait on an arrival object. -/
def arrivalsMet (s : State) (p : Nat) : Bool :=
  (openArrivals s p).all (meets s) && buffersReady s p (s.part p).fc

/-- The waits on arrival objects complete with c = t + 8 (R320). -/
def closeArrivals (s : State) (p : Nat) : State :=
  s.updPart p (fun x => { x with syncOps := x.syncOps.map (fun o =>
    if waitsObj o.opcode && o.acted && o.met.isNone && arrivalObj s p o.die o.obj then { o with met := some (o.issued + 8) }
    else o) })

/-- Waits on arrival objects in fc t + 8: they complete, or the partition is held (R320). -/
def holdOrGo (s : State) (p : Nat) : State :=
  if (openArrivals s p).isEmpty then s
  else if arrivalsMet s p then closeArrivals s p
  else s.updPart p (fun x => { x with hold := match x.hold with
    | some h => some h
    | none => some { since := s.counter.gt, spent := 0 } })

/-- The fc in which the next sync operations of a partition act. -/
def nextAct (ops : List SyncOp) : Option Nat :=
  match (ops.filter (fun o => !o.acted)).map (fun o => o.issued + 8) with
  | [] => none
  | t :: ts => some (ts.foldl min t)

/-- The operations that act in fc `t`, by ascending cell number (R57). -/
def actsAt (ops : List SyncOp) (t : Nat) : List SyncOp :=
  sortOn (·.cell) (ops.filter (fun o => !o.acted && o.issued + 8 == t))

/-- SYNC_OP_ACT: the sync operations issued 8 fc ago act on their objects (R56 to R58, R318, R320). -/
def syncOpAct (p : Nat) (s : State) : State :=
  match nextAct (s.part p).syncOps with
  | none => s
  | some t =>
    atFc s p t (fun s =>
      let s := (actsAt (s.part p).syncOps t).foldl (actOne p) s
      holdOrGo (evalWaits p t s) p)

def execSyncOpAct (p : Nat) (s : State) : Host.Outcome State Fault Refusal := onPart p s (syncOpAct p)

/-! ### Results and the ends of waits -/

/-- The operations of a cell that satisfy a condition, the earliest issued first. -/
def cellOps (s : State) (p c : Nat) (f : SyncOp → Bool) : List SyncOp :=
  sortOn (·.issued) ((s.part p).syncOps.filter (fun o => o.cell == c && f o))

/-- An operation is over. -/
def dropOp (s : State) (p : Nat) (o : SyncOp) : State := s.updPart p (fun x => { x with syncOps := x.syncOps.erase o })

/-- An AGREED MANCH takes VALUE of its object, clamped to -512 to 511, as the anchor (R80, R86). -/
def agreeAnchor (o : SyncOp) (x : Cell) : Cell :=
  let v := signed 32 (bits o.result 63 32)
  let a := clampInt v (-512) 511
  if o.live then
    { x with matrix := { x.matrix with mode := 2, given := a,
                                       status := x.matrix.status ||| mAclamp (decide (a ≠ v)) } }
  else x

/-- The result of an operation at t + 16: S[D], or the anchor of an AGREED MANCH (R57, R80). -/
def returnResult (o : SyncOp) (x : Cell) : Cell :=
  if o.opcode = 0x64 then agreeAnchor o x
  else x.updFold o.fold (fun f =>
    let f := { f with awaited := f.awaited.erase o.dest }
    if o.live then f.setReg o.dest o.result else f)

/-- SYNC_RESULT_RETURN: a result reaches its scalar 16 fc after issue (R57). -/
def syncResultReturn (c : Nat) (s : State) : State :=
  match partOfCell s c with
  | none => s
  | some p =>
    match cellOps s p c (fun o => o.acted && (returnsObj o.opcode || o.opcode == 0x64)) with
    | [] => s
    | o :: _ => atFc s p (o.issued + 16) (fun s => (dropOp s p o).updCell c (returnResult o))

def execSyncResultReturn (c : Nat) (s : State) : Host.Outcome State Fault Refusal := onCell c s (syncResultReturn c)

/-- SYNC_WAIT_DONE: a wait completes 8 fc after the fc `m` at whose end COUNT met the value; the next instruction issues at
m + 9 (R57). -/
def syncWaitDone (c : Nat) (s : State) : State :=
  match partOfCell s c with
  | none => s
  | some p =>
    match cellOps s p c (fun o => waitsObj o.opcode && o.met.isSome) with
    | [] => s
    | o :: _ =>
      match o.met with
      | none => s
      | some m => atFc s p (m + 8) (fun s => wake (dropOp s p o) c o.fold (m + 9))

def execSyncWaitDone (c : Nat) (s : State) : Host.Outcome State Fault Refusal := onCell c s (syncWaitDone c)

/-- SYNC_WAIT_TIMEOUT: a wait that has lasted longer than its limit aborts the task with OV-0x0B (R56). The spec does not say from
which fc the limit counts: here from the issue, to the fc in which COUNT meets the value (log 101). -/
def syncWaitTimeout (c : Nat) (s : State) : State :=
  match partOfCell s c with
  | none => s
  | some p =>
    match cellOps s p c (fun o => waitsObj o.opcode && o.met.isNone && decide (o.limit ≠ 0)) with
    | [] => s
    | o :: _ => atFc s p (o.issued + o.limit + 1) (fun s => unitAbort s p c o.fold o.tag (reasonCode .ov 0x0B))

def execSyncWaitTimeout (c : Nat) (s : State) : Host.Outcome State Fault Refusal := onCell c s (syncWaitTimeout c)

end Sys2Proof.Machine
end

