-- ==== Sys2Proof/Machine/Matrix.lean ====
section
/-! DEFINITION. The matrix unit (03_matrix_unit.md): MLDW, MMUL, MACC and its probe form, MANCH, MOUT, and the ends of their
operations. Operands are read through the ports fc by fc (MatrixRead.lean); results take effect in the fc that R80 and R97
give. -/
namespace Sys2Proof.Machine

/-! ### Operands (R67 to R73) -/

/-- The exponent term of an element's position in the AUTO_TILE anchor, if the position counts (R86). -/
def elemExp (f : Fmt) (e : Elem) : Option Int :=
  if f.isMx then (if e.2 = 255 then none else some ((e.2 : Int) - 127))
  else match f.decode e.1 with
    | .fin _ m x => if m = 0 then none else if f.isInt then some 0 else some (max (valExp m x) (1 - (f.enc.bias : Int)))
    | _ => none

/-- The B term of a format (R86). -/
def bTerm : Fmt → Int
  | .mxFp4 => 3
  | .mxE2m3 => 3
  | .mxE3m2 => 5
  | .mxE4m3 => 9
  | .mxE5m2 => 16
  | .mxInt8 => 1
  | .int8 => 7
  | _ => 1

/-- The rows of A that meet panel `p`, from what the operation has read (R70). -/
def MatrixOp.aRows (o : MatrixOp) (p : Nat) : List (List Elem) :=
  let t := o.tile
  let n := ceilDiv (t.kp p * t.a.width) 8
  let b := p * t.depth / 32
  let sc := (p * t.depth + t.kp p - 1) / 32 - b + 1
  let es := o.data (4 + 4 * p)
  let ss := o.data (5 + 4 * p)
  (List.range t.m).map (fun m =>
    let codes := leAt es (m * n) n
    (List.range (t.kp p)).map (fun k =>
      (packedAt codes t.a.width k, if t.a.isMx then leAt ss (m * sc + ((p * t.depth + k) / 32 - b)) 1 else 0)))

/-- The rows of panel `p` of W, from what the operation has read (R71). -/
def MatrixOp.wRows (o : MatrixOp) (p : Nat) : List (List Elem) :=
  let t := o.tile
  let bs := o.data (2 + 4 * p)
  let ss := o.data (3 + 4 * p)
  let b0 := p * t.depth / 32
  (List.range (t.kp p)).map (fun k =>
    let codes := leAt bs (k * t.rowBytes) t.rowBytes
    (List.range t.n).map (fun n =>
      (packedAt codes t.w.width n, if t.w.isMx then leAt ss (((p * t.depth + k) / 32 - b0) * t.scaleRow + n) 1 else 0)))

/-- What the scan reads of A and of W, row by row: of an MX operand the scales alone (R87). -/
def MatrixOp.aScanned (o : MatrixOp) : List (List Elem) :=
  let t := o.tile
  let bs := o.data 0
  (List.range t.m).map (fun m =>
    let codes := leAt bs (m * t.aElems) t.aElems
    (List.range t.k).map (fun k =>
      if t.a.isMx then (0, leAt bs (m * t.aScales + k / 32) 1) else (packedAt codes t.a.width k, 0)))
def MatrixOp.wScanned (o : MatrixOp) : List (List Elem) :=
  let t := o.tile
  let bs := o.data 1
  (List.range t.k).map (fun k =>
    let codes := leAt bs (k * t.rowBytes) t.rowBytes
    (List.range t.n).map (fun n =>
      if t.w.isMx then (0, leAt bs (k / 32 * t.n + n) 1) else (packedAt codes t.w.width n, 0)))

/-- An element of a weight plane (R64). What a plane loaded under another format or N holds is read by its place: the code as it
stands, under the format of the operation (R79 says 'whatever it holds' and no more; log 103). -/
def planeElem (pl : Mem) (k n : Nat) : Elem :=
  (leNat (pl.readN 0 (2 * (64 * k + n)) 2), (pl.read (16384 + 64 * k + n)).toNat)

/-- A panel written into a plane: only the rows and columns that it loads (R81). -/
def loadPlane (pl : Mem) (rows : List (List Elem)) : Mem :=
  (rows.zipIdx).foldl (fun pl r =>
    (r.1.zipIdx).foldl (fun pl e =>
      (pl.writeN 0 (2 * (64 * r.2 + e.2)) (leBytes 2 e.1.1)).write (16384 + 64 * r.2 + e.2) (BitVec.ofNat 8 e.1.2)) pl) pl

/-- The panel of depth `kp` and `n` columns that a plane holds. -/
def planeRows (pl : Mem) (kp n : Nat) : List (List Elem) :=
  (List.range kp).map (fun k => (List.range n).map (fun c => planeElem pl k c))

/-! ### Anchor and products (R69, R83, R86) -/

/-- The AUTO_TILE anchor of the rows of A and the rows of W (R86). -/
def autoAnchor (t : Tile) (as ws : List (List Elem)) : Int :=
  let best := (ws.zipIdx).foldl (fun (b : Option Int) w =>
    let ea := as.foldl (fun e r => maxOpt e (elemExp t.a (nth (0, 0) r w.2))) none
    let ew := w.1.foldl (fun e x => maxOpt e (elemExp t.w x)) none
    match ea, ew with
    | some x, some y => maxOpt b (some (x + y))
    | _, _ => b) none
  match best with
  | some e => e + bTerm t.a + bTerm t.w + 20
  | none => 0

/-- One product added on the grid of an anchor (R69, R83). -/
def addProduct (anchor : Int) (z : Sum) (a w : Val) : Sum :=
  let (p, inv) := a.mul w
  match p with
  | .nan => { z with nan := true, st := z.st ||| mInv inv }
  | .inf false => { z with pinf := true }
  | .inf true => { z with ninf := true }
  | .fin neg m e =>
    let (q, exact) := roundTo m e (anchor - 95)
    let v := signInt neg q
    let c := clampInt v (-(2 ^ 95)) (2 ^ 95 - 1)
    { z with sum := z.sum + c, st := z.st ||| mInexactP (!exact) ||| mPclamp (decide (c ≠ v)) }

/-- A window sum as an integer. -/
def WinElem.int (e : WinElem) : Int := e.sum.toInt

/-- A window element that no operation has reached. -/
def WinElem.zero : WinElem := { sum := 0, nan := false, pinf := false, ninf := false }

/-- The sums of an M × N region, by 64 m + n, and their flags (R81, R83). -/
def products (t : Tile) (anchor : Int) (as ws : List (List Elem)) : Assoc WinElem × BitVec 32 :=
  let wvs := ws.map (fun r => r.map (elemVal t.w))
  let rows := (as.zipIdx).map (fun r =>
    let av := r.1.map (elemVal t.a)
    (List.range t.n).map (fun n =>
      let z := (av.zip wvs).foldl (fun z p => addProduct anchor z p.1 (nth .nan p.2 n)) ⟨0, false, false, false, 0⟩
      (64 * r.2 + n, z)))
  let zs := rows.flatten
  (zs.map (fun z => (z.1, { sum := BitVec.ofInt 192 z.2.sum, nan := z.2.nan, pinf := z.2.pinf, ninf := z.2.ninf })),
   orFlags (zs.map (fun z => z.2.st)))

/-- A NaN operand or a 0xFF scale among the elements read (R94). -/
def nanRead (f : Fmt) (rows : List (List Elem)) : Bool := rows.any (fun r => r.any (fun e => (elemVal f e).isNan))

/-- A NaN or a 0xFF scale that a scan reads: of an MX operand it reads the scales only (R87). -/
def nanScanned (f : Fmt) (rows : List (List Elem)) : Bool :=
  rows.any (fun r => r.any (fun e => if f.isMx then e.2 == 255 else (elemVal f e).isNan))

/-! ### MMUL, MACC, the probe form, MLDW -/

/-- The A and W addresses of an instruction (R73, R74). -/
def aAddr (k : Issue) (s : State) : Nat := bits (k.reg s (mmAs k.insn)) 19 0 / 16 * 16
def wAddr (k : Issue) (s : State) : Nat := bits (k.reg s (mmWs k.insn)) 19 0 / 64 * 64

/-- The planes after the loads of an operation, the active one, and the W rows in order of K (R75, R79). -/
def takePanels (u : MatrixUnit) (o : MatrixOp) : Mem × Mem × Nat × List (List Elem) :=
  let t := o.tile
  (List.range (if o.kind = .mldw then 1 else t.panels)).foldl (fun (a : Mem × Mem × Nat × List (List Elem)) p =>
    let (w0, w1, act, rows) := a
    let cur := if act = 0 then w0 else w1
    let idle := if act = 0 then w1 else w0
    let first := p == 0 && o.kept
    if first && mmWkeep o.insn then (w0, w1, act, rows ++ planeRows cur (t.kp 0) t.n)
    else if first then (w0, w1, 1 - act, rows ++ planeRows idle (t.kp 0) t.n)
    else
      let r := o.wRows p
      let idle' := loadPlane idle r
      (if act = 0 then w0 else idle', if act = 0 then idle' else w1, if o.kind = .mldw then act else 1 - act, rows ++ r))
    (u.wp0, u.wp1, u.active, [])

/-- The panels of an operation are in the planes. -/
def MatrixUnit.load (u : MatrixUnit) (o : MatrixOp) : MatrixUnit × MatrixOp :=
  let w := takePanels u o
  ({ u with wp0 := w.1, wp1 := w.2.1, active := w.2.2.1 }, { o with rows := w.2.2.2, loaded := true })

/-- In the order of their issue, the panels of every operation that has read them by fc `now` are in the planes (R75, R79, R80). -/
def MatrixUnit.loadTo (now : Nat) (u : MatrixUnit) : MatrixUnit :=
  let q := u.ops.foldl (fun (q : MatrixUnit × List MatrixOp) o =>
    if !o.loaded && o.live && o.kind != .probe && o.wRead now then
      let y := q.1.load o
      (y.1, q.2 ++ [y.2])
    else (q.1, q.2 ++ [o])) (u, [])
  { q.1 with ops := q.2 }

/-- The matrix unit has read up to fc `now`, and what it has read of W is in the planes. -/
def Cell.matrixTo (x : Cell) (now : Nat) : Cell :=
  let y := x.advance now
  { y with matrix := y.matrix.loadTo now }

/-- The unit's times after an MMUL or MACC issued at `f` that occupies the array for `T` fc (R80). -/
def MatrixUnit.occupy (u : MatrixUnit) (f T m : Nat) : MatrixUnit :=
  { u with maccFrom := f + T, mmulFrom := f + T + 16, mldwFrom := f + T - m }

/-- The first fc in which a MACC, an MMUL, and a MOUT may issue (R80, R95). -/
def MatrixUnit.maccAt (u : MatrixUnit) : Nat := max (max u.maccFrom u.wPortFree) u.manchFree
def MatrixUnit.mmulAt (u : MatrixUnit) : Nat := max (max u.mmulFrom u.wPortFree) u.manchFree
def MatrixUnit.moutAt (u : MatrixUnit) : Nat := max (max u.mmulFrom u.convFree) u.manchFree
def MatrixUnit.mldwAt (u : MatrixUnit) : Nat := max (max u.mldwFrom u.wPortFree) u.manchFree

/-- A fault of the unit as it issues: its firing's fold and tag (R59). -/
def issueFault (k : Issue) (code : Nat) (s : State) : State := unitAbort s k.part k.cell k.fold k.tag code

/-- An operation of the unit as it issues (R80): under a false predicate it occupies the unit and reads nothing (R82). -/
def matrixOp (k : Issue) (s : State) (kind : MatrixKind) (done free : Nat) (given : Option Int) : MatrixOp :=
  { kind := kind, issued := k.fc, done := done, free := free, fold := k.fold, tag := k.tag, live := k.pred, insn := k.insn,
    aBase := aAddr k s, wBase := wAddr k s, given := given, got := [], rows := [], loaded := false, abort := none }

/-- An operation joins those in progress; `g` sets the unit's times. Tier 0 is read where it is an operand (R182). -/
def startOp (k : Issue) (t0 : Option Tier0Error) (o : MatrixOp) (g : MatrixUnit → MatrixUnit) (s : State) : State :=
  let bank := mmWsrc k.insn == 2 || (o.kind != .mldw && mmAsrc k.insn == 2)
  (tier0Error k.cell (k.pred && bank) t0 s).updCell k.cell (fun x =>
    let y := x.matrixTo k.fc
    { y with matrix := { g y.matrix with ops := y.matrix.ops ++ [o] } })

/-- An MMUL (`clear`) or a MACC that multiplies (R74, R79 to R86). -/
def multiply (clear : Bool) (t0 : Option Tier0Error) (k : Issue) (s : State) : State :=
  let t := tileOf k.insn
  let u := (s.cell k.cell).matrix
  let T := t.time (clear && decide (u.mode = 0)) (mmWkeep k.insn || mmWpre k.insn)
  startOp k t0
    (matrixOp k s (if clear then .mmul else .macc) (k.fc + T + 16) (k.fc + T) (if clear && decide (u.mode = 0) then none else some u.given))
    (fun u => u.occupy k.fc T t.m) s

/-- The probe form: the scan alone, under any mode (R79, R87). -/
def probe (t0 : Option Tier0Error) (k : Issue) (s : State) : State :=
  let T := (tileOf k.insn).scan
  startOp k t0 (matrixOp k s .probe (k.fc + T) (k.fc + T) none) (fun u => u.occupy k.fc T 0) s

/-- No operation of the unit is still to reach the window: what an MMUL and a MOUT wait for (R80). -/
def settled (s : State) (c : Nat) : Bool := (s.cell c).matrix.ops.all (fun o => !o.live || (o.kind != .mmul && o.kind != .macc))

/-- An MMUL without PROBE, or a MACC without PROBE. -/
def execMmul (u : CellRead) (s : State) : Host.Outcome State Fault Refusal :=
  issueFrom (fun s => (s.cell u.cell).matrix.mmulAt) 0x61 (fun i => !mmProbe i && settled s u.cell) u.cell (multiply true u.t0) s

def execMacc (u : CellRead) (s : State) : Host.Outcome State Fault Refusal :=
  issueFrom (fun s => (s.cell u.cell).matrix.maccAt) 0x62 (fun i => !mmProbe i) u.cell (multiply false u.t0) s

/-- The fc from which an MMUL or a MACC with PROBE may issue. -/
def probeAt (s : State) (c : Nat) : Nat :=
  let x := s.cell c
  match x.firing.bind x.nextInsn with
  | some i => if opcode i = 0x62 then x.matrix.maccAt else x.matrix.mmulAt
  | none => 0

/-- MMUL_PROBE: an MMUL or MACC with PROBE (R74, R79). -/
def execMmulProbe (u : CellRead) (s : State) : Host.Outcome State Fault Refusal :=
  onCell u.cell s (fun s =>
    match issueAt s u.cell (probeAt s u.cell) with
    | none => s
    | some k =>
      if (opcode k.insn = 0x61 ∨ opcode k.insn = 0x62) ∧ mmProbe k.insn then
        atFc s k.part k.fc (fun s => probe u.t0 k (retire k s))
      else s)

/-- MLDW: panel 0 of the weight tile goes into the idle plane (R75, R80). -/
def mldwEffect (t0 : Option Tier0Error) (k : Issue) (s : State) : State :=
  let L := { tileOf k.insn with m := 1 }.load 0
  startOp k t0 (matrixOp k s .mldw (k.fc + L) (k.fc + L) none) (fun u => { u with wPortFree := k.fc + L }) s

def execMldw (u : CellRead) (s : State) : Host.Outcome State Fault Refusal :=
  issueFrom (fun s => (s.cell u.cell).matrix.mldwAt) 0x60 (fun _ => true) u.cell (mldwEffect u.t0) s

/-! ### MANCH (R76, R80, R86) -/

/-- MANCH SUB 0: the mode and the anchor; with AGREED the object is read at issue + 8 and in force at issue + 16. -/
def manchSet (k : Issue) (s : State) : State :=
  if manchMode k.insn = 2 then
    let o : SyncOp :=
      { cell := k.cell, fold := k.fold, tag := k.tag, opcode := 0x64, die := cellDie k.cell, obj := manchObj k.insn,
        value := 0, dest := 0, limit := 0, live := k.pred, issued := k.fc, acted := false, result := 0, met := none }
    let s := s.updPart k.part (fun x => { x with syncOps := x.syncOps ++ [o] })
    s.updCell k.cell (fun x => { x with matrix := { x.matrix with manchFree := k.fc + 16 } })
  else if k.pred then
    s.updCell k.cell (fun x =>
      { x with matrix := { x.matrix with mode := BitVec.ofNat 2 (manchMode k.insn),
                                         given := if manchMode k.insn = 1 then manchAnchor k.insn else x.matrix.given } })
  else s

def execManchSetMode (c : Nat) (s : State) : Host.Outcome State Fault Refusal :=
  issueFrom (fun s => (s.cell c).matrix.manchFree) 0x64 (fun i => manchSub i == 0) c manchSet s

/-- MANCH SUB 1: S[D] = the last probe result, sign-extended. -/
def manchProbe (k : Issue) (s : State) : State :=
  setS k (manchD k.insn) (BitVec.ofInt 64 (s.cell k.cell).matrix.probe) s

def execManchReadProbe (c : Nat) (s : State) : Host.Outcome State Fault Refusal :=
  issueFrom (fun s => (s.cell c).matrix.manchFree) 0x64 (fun i => manchSub i == 1) c manchProbe s

/-- MANCH SUB 2: S[D] = the unit status word, which is then cleared. -/
def manchStatus (k : Issue) (s : State) : State :=
  if k.pred then
    (setS k (manchD k.insn) ((s.cell k.cell).matrix.status.setWidth 64) s).updCell k.cell (fun x =>
      { x with matrix := { x.matrix with status := 0 } })
  else s

def execManchReadStatus (c : Nat) (s : State) : Host.Outcome State Fault Refusal :=
  issueFrom (fun s => (s.cell c).matrix.manchFree) 0x64 (fun i => manchSub i == 2) c manchStatus s

/-! ### MOUT (R77, R84, R89 to R96) -/

/-- A window element's exact value at conversion, and its flags (R89). -/
def winVal (anchor : Int) (e : WinElem) : Val × BitVec 32 :=
  if e.nan || (e.pinf && e.ninf) then (.nan, mNan ||| mInv (e.pinf && e.ninf))
  else if e.pinf then (.inf false, 0)
  else if e.ninf then (.inf true, 0)
  else
    let c := clampInt e.int (-(2 ^ 95)) (2 ^ 95 - 1)
    (.fin (decide (c < 0)) c.natAbs (anchor - 95), mOvf (decide (c ≠ e.int)))

/-- An element in the 126-bit form of R92, and its flags. -/
def rawElem (e : WinElem) : Nat × BitVec 32 :=
  let c := clampInt e.int (-(2 ^ 125)) (2 ^ 125 - 1)
  let bad := e.nan || (e.pinf && e.ninf)
  let spec := if bad then 1 else if e.pinf then 2 else if e.ninf then 3 else 0
  (spec * 2 ^ 126 + toCode 126 c, mOvf (decide (c ≠ e.int)) ||| mNan bad ||| mInv (e.pinf && e.ninf))

/-- An element overflows at conversion to a format: its internal sum, whatever its special state, lies outside the window's
range, or for RAW outside the range of R92 (R84, R93). -/
def winOverflow (f : Fmt) (e : WinElem) : Bool :=
  let b : Int := if f = .raw then 2 ^ 125 else 2 ^ 95
  decide (e.int < -b) || decide (b ≤ e.int)

/-- The flags of one conversion to a plain format (R89, R94). -/
def encFlags (f : Fmt) (v : Val) (e : Enc) : BitVec 32 :=
  mCvtInexact e.inex ||| mCvtOvf e.ovf |||
    mNan (!v.isNan && decide (f = .e4m3) && decide (e.code % 128 = f.nanCode))

/-- One row converted: its bytes and flags (R89 to R92, R96). -/
def convertRow (f : Fmt) (e4nan : Bool) (anchor : Int) (es : List WinElem) : List Byte × BitVec 32 :=
  if f = .raw then
    let rs := es.map rawElem
    (fit 1024 (rs.flatMap (fun r => leBytes 16 r.1)), orFlags (rs.map (·.2)))
  else
    let vs := es.map (winVal anchor)
    let st := orFlags (vs.map (·.2))
    if f.isMx then
      let blocks := [(vs.map (·.1)).take 32, (vs.map (·.1)).drop 32].filter (fun b => !b.isEmpty)
      let bs := blocks.map f.mxBlock
      let codes := packCodes f.width ((bs.map (fun b => b.codes ++ List.replicate (32 - b.codes.length) 0)).flatten)
      (fit (8 * f.width) (leBytes (8 * f.width) codes) ++ fit 2 (bs.map (fun b => BitVec.ofNat 8 b.scale)),
       st ||| orFlags (bs.map (fun b => mNan b.bad ||| mScaleClamp b.clamp ||| mCvtInexact b.inex)))
    else
      let cs := vs.map (fun v => (v.1, f.encode e4nan v.1))
      (fit (8 * f.width) (leBytes (8 * f.width) (packCodes f.width (cs.map (fun c => c.2.code)))),
       st ||| orFlags (cs.map (fun c => encFlags f c.1 c.2)))

/-- The captured elements of a row of the window. -/
def winRow (u : MatrixUnit) (row cols : Nat) : List WinElem :=
  (List.range cols).map (fun n => Assoc.get (fun _ => WinElem.zero) u.window (64 * row + n))

/-- The converter's occupancy C (R95). -/
def convTime (i : InsnWord) : Nat := ceilDiv (moRows i * moCols i) (if matOut (moOfmt i) = .raw then 16 else 64) + 4

/-- MOUT: the window region is captured and converted; its entry is pushed at the end of fc m + C − 1 (R89 to R97). -/
def moutEffect (k : Issue) (s : State) : State :=
  let i := k.insn
  let f := matOut (moOfmt i)
  let C := convTime i
  let u := (s.cell k.cell).matrix
  let push (st : BitVec 32) (e : Option TileEntry) (s : State) : State :=
    let v : Conversion := { ready := k.fc + C, fold := k.fold, tag := k.tag, status := st, entry := e }
    s.updCell k.cell (fun x => { x with matrix := { x.matrix with convFree := k.fc + C, conv := x.matrix.conv ++ [v] } })
  if !k.pred then push 0 none s
  else
    let rows := (List.range (moRows i)).map (fun r => winRow u (moRow0 i + r) (moCols i))
    if moTrap i && (rows.any (fun r => r.any (winOverflow f)) || bit u.winStatus 1) then issueFault k (reasonCode .ov 0x04) s
    else
      let cs := rows.map (convertRow f (moE4nan i) u.anchor)
      let st := orFlags (cs.map (·.2))
      let e : TileEntry :=
        { ready := k.fc + C, row0 := moRow0 i, rows := moRows i, cols := moCols i, ofmt := moOfmt i,
          status := u.winStatus ||| st, anchor := BitVec.ofInt 16 u.anchor, bytes := cs.flatMap (·.1) }
      push st (some e) s

def execMout (c : Nat) (s : State) : Host.Outcome State Fault Refusal :=
  issueFrom (fun s => (s.cell c).matrix.moutAt) 0x63 (fun _ => settled s c) c moutEffect s

/-! ### The ends of operations -/

/-- One element of the window with what an operation adds. -/
def WinElem.add (a b : WinElem) : WinElem :=
  { sum := a.sum + b.sum, nan := a.nan || b.nan, pinf := a.pinf || b.pinf, ninf := a.ninf || b.ninf }

/-- What an operation adds to the window, by 64 m + n, with the flags of its products (R81, R83): its panels' products together. -/
def MatrixOp.sums (o : MatrixOp) (anchor : Int) : Assoc WinElem × BitVec 32 :=
  let t := o.tile
  products t anchor ((List.range t.m).map (fun m => (List.range t.panels).flatMap (fun p => nth [] (o.aRows p) m))) o.rows

/-- A NaN operand or a 0xFF scale has been read (R94). -/
def MatrixOp.nanIn (o : MatrixOp) : Bool :=
  let t := o.tile
  nanRead t.w (if o.kind = .mldw then o.wRows 0 else o.rows) ||
    (o.scans && (nanScanned t.a o.aScanned || nanScanned t.w o.wScanned)) ||
    ((decide (o.kind = .mmul) || decide (o.kind = .macc)) && (List.range t.panels).any (fun p => nanRead t.a (o.aRows p)))

/-- The anchor that the scan gives (R86, R87). -/
def MatrixOp.scanAnchor (o : MatrixOp) : Int := autoAnchor o.tile o.aScanned o.wScanned

/-- The unit after an operation's products reach the window, or its probe result or flags are in place (R79 to R83). -/
def MatrixUnit.apply (u : MatrixUnit) (o : MatrixOp) : MatrixUnit :=
  let u := { u with ops := u.ops.erase o }
  let anchor := if o.kind = .mmul then o.given.getD o.scanAnchor else u.anchor
  let z := o.sums anchor
  let st := mNanIn o.nanIn ||| (match o.kind with | .mmul => z.2 | .macc => z.2 | _ => 0)
  if !o.live then u
  else
    let u := { u with status := u.status ||| st }
    match o.kind with
    | .mldw => u
    | .probe => { u with probe := o.scanAnchor }
    | kind =>
      let clear := decide (kind = .mmul)
      { u with anchor := anchor,
               window := z.1.foldl (fun w z =>
                 Assoc.set (fun _ => WinElem.zero) w z.1 ((Assoc.get (fun _ => WinElem.zero) w z.1).add z.2))
                 (if clear then [] else u.window),
               winStatus := (if clear then 0 else u.winStatus) ||| st }

/-- The operation that ends first. -/
def firstOp : List MatrixOp → Option MatrixOp
  | [] => none
  | o :: os => match firstOp os with
    | some o' => if o'.done < o.done then some o' else some o
    | none => some o

/-- The operation of the unit that ends first, once it has made its reads. -/
def Cell.firstOpAt (x : Cell) (now : Nat) : Option MatrixOp := firstOp (x.matrixTo now).matrix.ops

/-- MATRIX_OP_DONE (R80): the operation that ends first leaves what it does; or, in the fc of the fault that a read of it has met,
its abort (R129, R182). -/
def matrixOpDone (c : Nat) (s : State) : State :=
  match firstOp (s.cell c).matrix.ops with
  | none => s
  | some o =>
    match ((s.cell c).firstOpAt o.free).bind (fun o => o.abort) with
    | some (f, code) =>
      cellAtFc s c f (fun p s =>
        unitAbort (s.updCell c (fun x =>
          let y := x.matrixTo f
          { y with matrix := { y.matrix with ops := y.matrix.ops.filter (fun q => q.issued != o.issued || q.kind != o.kind) } }))
          p c o.fold o.tag code)
    | none =>
      cellAtFc s c o.done (fun _ s => s.updCell c (fun x =>
        let y := x.matrixTo o.free
        match firstOp y.matrix.ops with
        | some q => { y with matrix := y.matrix.apply q }
        | none => y))

def execMatrixOpDone (c : Nat) (s : State) : Host.Outcome State Fault Refusal := onCell c s (matrixOpDone c)

/-- TILE_QUEUE_PUSH: a conversion ends and pushes its entry; OV-0x03 when four entries are still held (R97). -/
def tileQueuePush (c : Nat) (s : State) : State :=
  match (s.cell c).matrix.conv with
  | [] => s
  | v :: vs =>
    cellAtFc s c (v.ready - 1) (fun p s =>
      let s := s.updCell c (fun x => { x with matrix := { x.matrix with conv := vs } })
      match v.entry with
      | none => s
      | some e =>
        let s := s.updCell c (fun x => { x with matrix := { x.matrix with status := x.matrix.status ||| v.status } })
        if (s.cell c).matrix.tiles.length < 4 then
          s.updCell c (fun x => { x with matrix := { x.matrix with tiles := x.matrix.tiles ++ [e] } })
        else unitAbort s p c v.fold v.tag (reasonCode .ov 0x03))

def execTileQueuePush (c : Nat) (s : State) : Host.Outcome State Fault Refusal := onCell c s (tileQueuePush c)

end Sys2Proof.Machine
end

