-- ==== Sys2Proof/Machine/Streams.lean ====
section
/-! DEFINITION. The operand-buffer halves, bulk flows, local streams and the sandbag chain (R128 to R142, R146, R150, R151):
the stream instructions, and the arrivals, reads, writes and ends that they set going. -/
namespace Sys2Proof.Machine

/-! ### Landings (R129 to R131) -/

/-- The HALF code of a half (R35). -/
def halfCode (h : Nat) : BitVec 2 := if h = 0 then 1 else 2

/-- A landing in a half has written its last in fc `f`. -/
def Cell.ended (x : Cell) (half f : Nat) : Cell :=
  { x with landed := (half, f) :: x.landed.filter (fun e => decide (f ≤ e.2)) }

/-- The landing on a link side and lane. -/
def Cell.landingOn (x : Cell) (key : Nat) : Option Landing := List.find? (fun (l : Landing) => l.key == key) x.landings

/-- The key of the landing of a sandbag chain's kept flits. -/
def chainKey : Nat := 255

/-- One data flit of a landing, in fc `f`: 64 bytes at the next offset; with the last, the completion token enters its queue
in the next fc (R130, R131). The landing is in progress from this fc on: an operation that reads or writes the half in one of its
fcs meets it (R129). -/
def Cell.landFlit (x : Cell) (f : Nat) (l : Landing) (bytes : List Byte) : Cell :=
  let l := if l.started then l else { l with started := true, since := f }
  let others := x.landings.filter (fun m => m.key != l.key)
  let x := { x with landings := others ++ [l] }.wr f rankLd l.half l.ofs bytes
  if l.left ≤ 1 then
    ({ x with landings := others }.ended l.half f).enqueue { l.tok with half := halfCode l.half } (f + 1)
  else { x with landings := others ++ [{ l with ofs := l.ofs + 64, left := l.left - 1 }] }

/-! ### SWAP (R129) -/

/-- A landing stops a SWAP: one that has written in the fill half and has not ended. -/
def Cell.swapBlocked (x : Cell) : Bool :=
  x.landings.any (fun l => l.started && l.half == x.fillHalf) ||
    x.streams.any (fun st => st.live && st.written && st.kind != .stst && st.half == x.fillHalf)

def swapEffect (k : Issue) (s : State) : State :=
  if !k.pred then s
  else if (s.cell k.cell).swapBlocked then issueAbort k .st 0x07 s
  else s.updCell k.cell (fun x => { x with useHalf := x.fillHalf })

def execSwap (c : Nat) (s : State) : Host.Outcome State Fault Refusal := issue 0x46 c swapEffect s

/-! ### FLOW (R132) -/

/-- The flow on a route of a fold. -/
def Cell.flowOn (x : Cell) (fold route : Nat) : Option OutFlow :=
  List.find? (fun (o : OutFlow) => o.fold == fold && o.route == route) x.flows

/-- A flow has injected its head and all its data. -/
def OutFlow.ended (o : OutFlow) : Bool := o.head.isNone && decide (o.total ≤ o.sent)

/-- FLOW: the flow waits for its head's slot (R132). -/
def flowEffect (k : Issue) (s : State) : State :=
  let i := k.insn
  let x := s.cell k.cell
  let entry := nth 0 (x.fold k.fold).routes (fRoute i)
  let tok : Token :=
    { tag := tagx x k.fold k.tag i, pred := true, last := false, len := 0, half := 0,
      dfold := BitVec.ofNat 3 (routeFold entry), dport := BitVec.ofNat 2 (routePort entry), kind := 1, src := k.cell,
      flow := BitVec.ofNat 8 (sfFlown i), aux := BitVec.ofNat 64 (64 * sfNf i), payload := [] }
  let o : OutFlow :=
    { fold := k.fold, tag := k.tag, route := fRoute i, entry := entry, src := sfSrc i,
      addr := memBase (sfSrc i) (k.reg s (sfAs i)), total := sfNf i, sent := 0, head := some tok, lofs := sfOfs i,
      lastFc := k.fc, live := k.pred }
  s.updCell k.cell (fun x =>
    { x with flows := x.flows.filter (fun y => !(y.fold == k.fold && y.route == fRoute i)) ++ [o] })

/-- The first fc in which a FLOW on its route may issue; the flow before it must be over. -/
def flowSince (s : State) (c : Nat) : Nat :=
  let x := s.cell c
  match x.firing.bind x.nextInsn with
  | some i => match x.flowOn x.cur (fRoute i) with
    | some o => o.lastFc + 1
    | none => 0
  | none => 0

/-- The route carries no earlier flow. -/
def flowFree (s : State) (c : Nat) (i : InsnWord) : Bool :=
  let x := s.cell c
  match x.flowOn x.cur (fRoute i) with
  | some o => o.ended
  | none => true

def execFlow (c : Nat) (s : State) : Host.Outcome State Fault Refusal :=
  issueFrom (fun s => flowSince s c) 0x42 (flowFree s c) c flowEffect s

/-- A flit of a flow or a chain sent on a route entry in fc `i`; a loopback route delivers it here (R32, R131). -/
def sendOn (s : State) (p c : Nat) (entry : Word) (i : Nat) (body : FlitBody) : State :=
  if routeOut entry = 4 then s.updCell c (fun x => x.deliverFlit (16 + i % 4) i body)
  else sendFlit s p c (routeOut entry) i body

/-- A data flit of a flow, read and sent in fc `i` (R132): the memory as it stood at the start of the fc (R128). -/
def sendData (s : State) (p c i : Nat) (o : OutFlow) : State :=
  let x := ((s.cell c).advance i).view i
  let a := o.addr + 64 * o.sent
  let code := x.rdCode o.src a 64
  if !o.live then s
  else if code ≠ 0 then unitAbort s p c o.fold o.tag code
  else sendOn s p c o.entry i (.flowData (x.rd o.src a 64))

/-- FLOW_FLIT_INJECT: the head, and then each data flit, in the next slot of the route's lane in which the issuing fold is
current (R36, R132). -/
def flowInject (c route : Nat) (t0 : Option Tier0Error) (s : State) : State :=
  let x := s.cell c
  match x.flowOn x.cur route with
  | none => s
  | some o =>
    let i := slotFrom (routeLane o.entry) (max (o.lastFc + 1) x.dwellFrom)
    if o.ended || x.switching.isSome || decide (x.dwellEnd ≤ i) then s
    else
      let put (o' : OutFlow) (s : State) : State :=
        s.updCell c (fun x => { x with flows := x.flows.map (fun y => if y.fold = o.fold ∧ y.route = route then o' else y) })
      cellAtFc s c i (fun p s =>
        match o.head with
        | some t =>
          let s := put { o with head := none, lastFc := i } s
          if o.live then sendOn s p c o.entry i (.flowHead t o.lofs) else s
        | none => sendData (tier0Error c (o.live && o.src == 2) t0 (put { o with sent := o.sent + 1, lastFc := i } s)) p c i o)

def execFlowFlitInject (u : CellRead) (route : Nat) (s : State) : Host.Outcome State Fault Refusal :=
  onCell u.cell s (flowInject u.cell route u.t0)

/-! ### STIN, and the arrival of flows (R131, R146) -/

/-- STIN: the cell is armed for one edge flow. -/
def stinEffect (k : Issue) (s : State) : State :=
  let i := k.insn
  if k.pred then
    let a : Arm :=
      { tag := BitVec.ofNat 16 (k.reg s (sfBs i)).toNat, port := sfPort i, fold := k.fold, ofs := 64 * sfOfs i }
    s.updCell k.cell (fun x => { x with arms := x.arms.insert (sfFlown i) a })
  else s

def execStin (c : Nat) (s : State) : Host.Outcome State Fault Refusal := issue 0x43 c stinEffect s

/-- Data flits of a flow of some bytes. -/
def flitsOf (aux : Word) : Nat := ceilDiv aux.toNat 64

/-- A flow's landing begins to wait for its data; an earlier one on the same side and lane has ended. -/
def Cell.expect (x : Cell) (l : Landing) : Cell :=
  { x with landings := x.landings.filter (fun m => m.key != l.key) ++ [l] }

/-- The first delivered flit that satisfies `q`, and the flits without it. -/
def takeFlit (q : FlitBody → Bool) : List Delivered → Option (Delivered × List Delivered)
  | [] => none
  | d :: ds => if q d.body then some (d, ds) else (takeFlit q ds).map (fun r => (r.1, d :: r.2))

def isHead (b : FlitBody) : Bool :=
  match b with
  | .flowHead _ _ => true
  | .edgeHead _ _ _ => true
  | _ => false

def isData (b : FlitBody) : Bool :=
  match b with
  | .flowData _ => true
  | _ => false

def isChain (b : FlitBody) : Bool :=
  match b with
  | .chain _ => true
  | _ => false

/-- FLOW_HEAD_ARRIVE: the router records the landing half, the offset and the count; an edge head takes them from the arm
of its flow number, or aborts with ST-0x07 (R131, R146). -/
def flowHeadArrive (c : Nat) (s : State) : State :=
  match takeFlit isHead (s.cell c).inbox with
  | none => s
  | some (d, rest) =>
    cellAtFc s c d.fc (fun p s =>
      let s := s.updCell c (fun x => { x with inbox := rest })
      let x := s.cell c
      match d.body with
      | .flowHead t lofs =>
        s.updCell c (fun x => x.expect
          { key := d.key, half := x.fillHalf, ofs := 64 * lofs, left := flitsOf t.aux, started := false, since := 0, tok := t })
      | .edgeHead src flow aux =>
        match x.arms.find? flow.toNat with
        | none => arrivalAbort s p c .st 0x07
        | some a =>
          let t : Token :=
            { tag := a.tag, pred := true, last := false, len := 0, half := 0, dfold := BitVec.ofNat 3 a.fold,
              dport := BitVec.ofNat 2 a.port, kind := 1, src := src, flow := flow, aux := aux, payload := [] }
          s.updCell c (fun x => { x with arms := x.arms.erase flow.toNat }.expect
            { key := d.key, half := x.fillHalf, ofs := a.ofs, left := flitsOf aux, started := false, since := 0, tok := t })
      | _ => s)

def execFlowHeadArrive (c : Nat) (s : State) : Host.Outcome State Fault Refusal := onCell c s (flowHeadArrive c)

/-- FLOW_FLIT_LAND: a data flit lands in the fc of its arrival (R131). -/
def flowFlitLand (c : Nat) (s : State) : State :=
  let x := s.cell c
  match takeFlit isData x.inbox with
  | none => s
  | some (d, rest) =>
    let waits := (x.inbox.takeWhile (fun e => !isData e.body)).any (fun e => e.key == d.key && isHead e.body)
    if waits then s
    else
      cellAtFc s c d.fc (fun _ s =>
        let s := s.updCell c (fun x => { x with inbox := rest })
        match d.body, (s.cell c).landingOn d.key with
        | .flowData bs, some l => s.updCell c (fun x => x.landFlit d.fc l bs)
        | _, _ => s)

def execFlowFlitLand (c : Nat) (s : State) : Host.Outcome State Fault Refusal := onCell c s (flowFlitLand c)

/-! ### The sandbag chain (R150, R151) -/

/-- SANDBAG: the cell joins a chain at the end of this fc (R150). -/
def sandbagEffect (k : Issue) (s : State) : State :=
  let i := k.insn
  if k.pred then
    let m : Member :=
      { tag := BitVec.ofNat 16 (k.reg s (sfBs i)).toNat, port := sfPort i, fold := k.fold, route := fRoute i,
        keep := sfKeep i, rest := sfRest i, kept := 0, passed := 0, ofs := 64 * sfOfs i, half := 0, src := sfSrc i,
        addr := memBase (sfSrc i) (k.reg s (sfAs i)), read := 0, issued := k.fc }
    s.updCell k.cell (fun x => { x with chain := some m })
  else s

def execSandbag (c : Nat) (s : State) : Host.Outcome State Fault Refusal := issue 0x47 c sandbagEffect s

/-- The member's completion token (R150). -/
def Member.token (m : Member) (c : Nat) : Token :=
  { tag := m.tag, pred := true, last := false, len := 0, half := 0, dfold := BitVec.ofNat 3 m.fold,
    dport := BitVec.ofNat 2 m.port, kind := 1, src := c, flow := 0, aux := BitVec.ofNat 64 (64 * m.keep), payload := [] }

/-- The member after its next flit; none when it has kept and forwarded all of its. -/
def Member.next (m : Member) : Option Member := if m.keep ≤ m.kept ∧ m.rest ≤ m.passed then none else some m

/-- A chain flit at its member in fc `f`: kept, or forwarded on the route of the lane of its slot (R150, R151). -/
def chainFlit (p c f : Nat) (m : Member) (bytes : List Byte) (s : State) : State :=
  if m.kept < m.keep then
    let half := if m.kept = 0 then (s.cell c).fillHalf else m.half
    let l : Landing := match (s.cell c).landingOn chainKey with
      | some l => l
      | none => { key := chainKey, half := half, ofs := m.ofs, left := m.keep, started := false, since := 0, tok := m.token c }
    s.updCell c (fun x => { x with chain := { m with kept := m.kept + 1, half := half }.next }.landFlit f l bytes)
  else
    let entry := nth 0 ((s.cell c).fold m.fold).routes (m.route + f % 4)
    sendOn (s.updCell c (fun x => { x with chain := { m with passed := m.passed + 1 }.next })) p c entry f (.chain bytes)

/-- CHAIN_SOURCE_READ: the first member of a chain reads its next flit through LF (R151), the memory as it stood at the start of
the fc (R128). -/
def chainSourceRead (c : Nat) (t0 : Option Tier0Error) (s : State) : State :=
  match (s.cell c).chain with
  | none => s
  | some m =>
    if m.src = 3 ∨ m.keep + m.rest ≤ m.read then s
    else
      let f := m.issued + 1 + m.read
      cellAtFc s c f (fun p s =>
        let s := tier0Error c (m.src == 2) t0 s
        let x := ((s.cell c).advance f).view f
        let a := m.addr + 64 * m.read
        let code := x.rdCode m.src a 64
        if code ≠ 0 then unitAbort s p c m.fold m.tag code
        else chainFlit p c f { m with read := m.read + 1 } (x.rd m.src a 64) s)

def execChainSourceRead (u : CellRead) (s : State) : Host.Outcome State Fault Refusal :=
  onCell u.cell s (chainSourceRead u.cell u.t0)

/-- CHAIN_FLIT_ARRIVE: a chain flit reaches a member; ST-0x07 where no SANDBAG has armed the cell (R150, R151). -/
def chainFlitArrive (c : Nat) (s : State) : State :=
  match takeFlit isChain (s.cell c).inbox with
  | none => s
  | some (d, rest) =>
    cellAtFc s c d.fc (fun p s =>
      let s := s.updCell c (fun x => { x with inbox := rest })
      match d.body, (s.cell c).chain with
      | .chain bs, some m => if m.issued < d.fc then chainFlit p c d.fc m bs s else arrivalAbort s p c .st 0x07
      | _, _ => arrivalAbort s p c .st 0x07)

def execChainFlitArrive (c : Nat) (s : State) : Host.Outcome State Fault Refusal := onCell c s (chainFlitArrive c)

/-! ### Local streams (R140 to R142) -/

/-- A local stream issues and joins the outstanding ones. -/
def streamEffect (kind : StreamKind) (k : Issue) (s : State) : State :=
  let i := k.insn
  let listMem := if sfLsrc i = 3 then 3 else 2
  let stst := kind == .stst
  let st : LocalStream :=
    { kind := kind, sid := sfSid i, fold := k.fold, tag := k.tag, live := k.pred, issued := k.fc,
      base := (k.reg s (sfAs i)).toNat % 2 ^ 20, side := if stst then sfSrc i else 0,
      contig := if stst then memBase (sfSrc i) (k.reg s (sfBs i)) else 64 * sfOfs i,
      listMem := listMem, list := memBase listMem (k.reg s (sfBs i)), dsAddr := memBase 3 (k.reg s (sfDs i)),
      started := false, desc := 0, walk := { step := 0, ofs := 0 }, moved := 0, count := none, entry := none,
      written := false, half := 0, since := 0, lastFc := k.fc, nextFc := 0, buf := [], fault := none }
  s.updCell k.cell (fun x => { x with streams := x.streams ++ [st] })

/-- The SID is not held by an outstanding stream. -/
def sidFree (s : State) (c : Nat) (i : InsnWord) : Bool := (s.cell c).streams.all (fun st => st.sid != sfSid i)

/-- The first fc in which a stream may take its SID, after the stream that held it last. -/
def sidSince (s : State) (c : Nat) : Nat :=
  let x := s.cell c
  match x.firing.bind x.nextInsn, x.lastStrm with
  | some i, some (f, sid) => if sid = sfSid i then f + 1 else 0
  | _, _ => 0

def execStld (c : Nat) (s : State) : Host.Outcome State Fault Refusal :=
  issueFrom (fun s => sidSince s c) 0x40 (sidFree s c) c (streamEffect .stld) s

def execStst (c : Nat) (s : State) : Host.Outcome State Fault Refusal :=
  issueFrom (fun s => sidSince s c) 0x41 (sidFree s c) c (streamEffect .stst) s

def execStidx (c : Nat) (s : State) : Host.Outcome State Fault Refusal :=
  issueFrom (fun s => sidSince s c) 0x44 (sidFree s c) c (streamEffect .stidx) s

def execStptr (c : Nat) (s : State) : Host.Outcome State Fault Refusal :=
  issueFrom (fun s => sidSince s c) 0x45 (sidFree s c) c (streamEffect .stptr) s

/-- STWAIT: the firing waits for the named stream, or for every one; its predicate does not matter (R43, R142). -/
def stwaitEffect (k : Issue) (s : State) : State :=
  let i := k.insn
  s.updCell k.cell (fun x =>
    let ws := (x.streams.filter (fun st => sfAll i || st.sid == sfSid i)).map (·.issued)
    if ws.isEmpty then x else x.updFiring k.fold (fun f => { f with waiting := true, strm := ws }))

/-- An STWAIT that names a stream that ended in the fc before lets the next instruction issue in the next fc as well. -/
def execStwait (c : Nat) (s : State) : Host.Outcome State Fault Refusal := issue 0x48 c stwaitEffect s

/-- The descriptor mode of a kind of stream (R136). -/
def StreamKind.mode : StreamKind → Nat
  | .stidx => 1
  | .stptr => 2
  | _ => 0

/-- The stream at the head changed by a function. -/
def Cell.updStream (x : Cell) (g : LocalStream → LocalStream) : Cell :=
  match x.streams with
  | st :: sts => { x with streams := g st :: sts }
  | [] => x

/-- The fc in which the stream at the head starts (R142). -/
def Cell.streamStart (x : Cell) (st : LocalStream) : Nat :=
  max (st.issued + 1) (match x.lastStrm with | some (f, _) => f + 1 | none => 0)

/-- LOCAL_STREAM_START: the stream has read its descriptor, in fc `s` + 3 (R128, R136, R142). -/
def streamStart (c : Nat) (s : State) : State :=
  let x := s.cell c
  match x.streams with
  | [] => s
  | st :: _ =>
    if st.started then s
    else
      let f := x.streamStart st + 3
      cellAtFc s c f (fun p s =>
        let x := (s.cell c).view f
        let code := x.rdCode 3 st.dsAddr 64
        let d : BitVec 512 := BitVec.ofNat 512 (leNat (x.rd 3 st.dsAddr 64))
        let bad := if code ≠ 0 then code
          else if ldMalformed d || ldMode d != st.kind.mode then reasonCode .st 0x01 else 0
        if bad ≠ 0 ∧ st.live then unitAbort s p c st.fold st.tag bad
        else
          s.updCell c (fun x => x.updStream (fun st =>
            { st with started := true, desc := d, nextFc := f + 1, fault := if bad ≠ 0 then some (f, bad) else none })))

def execLocalStreamStart (c : Nat) (s : State) : Host.Outcome State Fault Refusal := onCell c s (streamStart c)

/-- One word of a stream written through LW in fc `f` (R127, R129, R142). -/
def Cell.streamWrite (x : Cell) (f : Nat) (st : LocalStream) (w : StreamWord) : Cell :=
  let st' : LocalStream :=
    { st with buf := st.buf.drop 1, written := true, lastFc := f, half := if st.written then st.half else x.fillHalf,
              since := if st.written then st.since else f }
  let y := x.updStream (fun _ => st')
  if !st.live then y
  else if st.kind == .stst then y.wr f rankLw 2 w.dst w.bytes
  else y.wr f rankLw st'.half w.dst w.bytes

/-- The head stream with a word in hand, a fault or its walk's end; its reads see what the vector chain has written before
them (R111, R128). -/
def Cell.readHead (x : Cell) (st : LocalStream) : LocalStream :=
  let y := x.advance (st.nextFc + 2)
  let st := match y.streams with | st' :: _ => st' | [] => st
  LocalStream.fetchHead y 8 st

/-- LOCAL_STREAM_WORD_WRITE: the next word of the stream at the head is written; or the read or the walk faults
(R137, R138, R142, R182). -/
def streamWordWrite (c : Nat) (t0 : Option Tier0Error) (s : State) : State :=
  match (s.cell c).streams with
  | [] => s
  | st :: _ =>
    if !st.started then s
    else
      let s := tier0Error c (st.live && (st.kind != .stst || st.listMem == 2)) t0 s
      let st := (s.cell c).readHead st
      match st.buf with
      | w :: _ =>
        if w.code ≠ 0 then cellAtFc s c w.read (fun p s => unitAbort s p c st.fold st.tag w.code)
        else cellAtFc s c (w.read + 4) (fun _ s => s.updCell c (fun x => x.streamWrite (w.read + 4) st w))
      | [] =>
        match st.fault with
        | some (f, code) => if st.live then cellAtFc s c f (fun p s => unitAbort s p c st.fold st.tag code) else s
        | none => s

def execLocalStreamWordWrite (u : CellRead) (s : State) : Host.Outcome State Fault Refusal :=
  onCell u.cell s (streamWordWrite u.cell u.t0)

/-- A firing no longer awaits the stream issued in fc `n`, which ended in fc `f` (R142). -/
def Firing.streamEnded (n f : Nat) (g : Firing) : Firing :=
  if g.strm.contains n then
    let ws := g.strm.filter (· != n)
    if ws.isEmpty then { g with strm := [], waiting := false, ready := max g.ready (f + 1) } else { g with strm := ws }
  else g

/-- The stream at the head ends in fc `f`: its SID is free, and the firings that awaited only it go on (R142). -/
def Cell.endStream (x : Cell) (st : LocalStream) (f : Nat) : Cell :=
  let x := { x with streams := x.streams.drop 1, lastStrm := some (f, st.sid),
                    firing := x.firing.map (Firing.streamEnded st.issued f),
                    folds := x.folds.map (fun (e : Nat × Fold) =>
                      (e.1, { e.2 with susp := e.2.susp.map (Firing.streamEnded st.issued f) })) }
  if st.live && st.written && st.kind != .stst then x.ended st.half f else x

/-- LOCAL_STREAM_END: the stream ends with its last write; under a false predicate, also in the fc of its fault (R142). -/
def streamEnd (c : Nat) (s : State) : State :=
  match (s.cell c).streams with
  | [] => s
  | st :: _ =>
    if !st.started then s
    else
      let st := (s.cell c).readHead st
      if !st.buf.isEmpty then s
      else
        match st.fault with
        | some (f, _) => if st.live then s else cellAtFc s c f (fun _ s => s.updCell c (fun x => x.endStream st f))
        | none => cellAtFc s c st.lastFc (fun _ s => s.updCell c (fun x => x.endStream st st.lastFc))

def execLocalStreamEnd (c : Nat) (s : State) : Host.Outcome State Fault Refusal := onCell c s (streamEnd c)

end Sys2Proof.Machine
end

