-- ==== Sys2Proof/Machine/Engines.lean ====
section
/-! DEFINITION. Edge stream engines at work (R143 to R149, R155): fetches and their arrivals, releases onto the mesh, and
egress through the outfall buffer. -/
namespace Sys2Proof.Machine

/-- The partition that owns an engine. -/
def partOfEngine (s : State) (e : Nat) : Option Nat := partOfCell s (engineCell e)

/-- A fault of an engine: its edge cell's number, that cell's current fold, and the engine's number (R155, R411). -/
def engineAbort (s : State) (p e n : Nat) : State :=
  abortTask s p .st n (engineCell e) (s.cell (engineCell e)).cur 0 (some e)

/-- An engine works: its partition's job runs and no fault has stopped it (R155). -/
def engineRuns (s : State) (p : Nat) : Bool := jobRuns (s.part p) && (s.part p).fault.isNone

/-- Words that a release buffer holds: 64 KiB (R143). -/
def releaseWords : Nat := 1024

/-- A word's bytes lie only on controllers that grant the engine a slot (R204). -/
def fetchGranted (s : State) (p e : Nat) (entry : BitVec 1024) (w : Nat) : Bool :=
  grantedOn s p e false ((edgePieces s p entry (64 * w)).map (fun q => (q.1.toNat, q.2.1)))

/-- ENGINE_FETCH: the next word in order of release is fetched in granted slots into free release-buffer space, not before its
entry's fetch start (R145, R204), and not while a transfer is still to land in it (R320). -/
def engineFetch (e : Nat) (s : State) : State :=
  match partOfEngine s e, (s.engine e).nextFetch with
  | some p, some (t, i, w) =>
    let x := s.engine e
    let entry := nth 0 x.ingress i
    if engineRuns s p && decide (x.buffer.length < releaseWords) && fetchAllowed s p entry w && fetchGranted s p e entry w then
      atFc s p (fetchStart entry) (fun s => s.updEngine e (fun x =>
        { x with fetched := Assoc.set (fun _ => 0) x.fetched i (w + 1),
                 buffer := x.buffer ++ [{ entry := i, index := w, release := t, data := none, mark := none }] }))
    else s
  | _, _ => s

def execEngineFetch (e : Nat) (s : State) : Host.Outcome State Fault Refusal := onEngine e s (onDerived (engineFetch e))

/-- A word's data put in its place of the buffer. -/
def RelWord.fill (mark : Option Nat) (data : List Byte) (b : RelWord) : RelWord := { b with data := some data, mark := mark }

/-- The first word in flight gets its data. -/
def fillFirst (mark : Option Nat) (data : List Byte) : List RelWord → List RelWord
  | [] => []
  | b :: bs => if b.data.isNone then b.fill mark data :: bs else b :: fillFirst mark data bs

/-- A memory error of a fetch counted on the channel of the word's first byte (R179, R180, R216). -/
def countFetch (s : State) (p : Nat) (entry : BitVec 1024) (w : Nat) (ecc : EccResult) : State :=
  match edgePieces s p entry (64 * w) with
  | q :: _ => countPlotEcc s p (q.1.toNat / plotBytes) (q.1.toNat % plotBytes) ecc
  | [] => s

/-- An error of a culvert, counted on the die of the engine that it joins to memory (R12, R423). -/
def countCulvert (s : State) (e : Nat) (ecc : EccResult) : State := countLink s (cellDie (engineCell e)) ecc

/-- The worse of what a word's memory read and its culvert found. -/
def worse (a b : EccResult) : EccResult := if a = .uncorrectable ∨ b = .uncorrectable then .uncorrectable else a

/-- ENGINE_WORD_ARRIVE: the word fetched first of those in flight is wholly in the buffer, marked where it may not be
released; memory and culvert each report what they found (R145, R156). -/
def engineArrive (e : Nat) (ecc culvert : EccResult) (s : State) : State :=
  match partOfEngine s e, List.find? (fun (b : RelWord) => b.data.isNone) (s.engine e).buffer with
  | some p, some b =>
    if engineRuns s p then
      let entry := nth 0 (s.engine e).ingress b.entry
      let m := wordFetch s p entry b.index (worse ecc culvert)
      (countCulvert (countFetch s p entry b.index ecc) e culvert).updEngine e (fun x => { x with buffer := fillFirst m.1 m.2 x.buffer })
    else s
  | _, _ => s

def execEngineWordArrive (e : Nat) (w : WordRead) (s : State) : Host.Outcome State Fault Refusal :=
  onEngine e s (onDerived (engineArrive e w.memory w.culvert))

/-- A flit that an engine injects in fc `t` reaches its edge cell 2 fc later (05, "Edge stream engines"). -/
def injectFlit (s : State) (p e t lane : Nat) (body : FlitBody) : State :=
  let f : Flit := { dest := engineCell e, toEngine := false, due := t + 2, side := engineSide e, lane := lane, bridge := false,
                    body := body }
  s.updPart p (fun x => { x with flits := x.flits ++ [f] })

/-- What an entry releases in its fc: a head, or a word that is in the buffer and unmarked (R144, R145). -/
def releaseOne (e p t i : Nat) (r : Release) (s : State) : State :=
  let x := s.engine e
  let entry := nth 0 x.ingress i
  let s := s.updEngine e (fun x =>
    { x with released := Assoc.set (fun _ => 0) x.released i (Assoc.get (fun _ => 0) x.released i + 1) })
  match r with
  | .head lane words =>
    injectFlit s p e t lane
      (.edgeHead (engineCell e) (BitVec.ofNat 8 (enFlown entry)) (BitVec.ofNat 64 (64 * words)))
  | .word lane index =>
    let s := s.updEngine e (fun x => { x with buffer := x.buffer.filter (fun b => !(b.entry == i && b.index == index)) })
    match List.find? (fun (b : RelWord) => b.entry == i && b.index == index) x.buffer with
    | some b =>
      match b.data, b.mark with
      | none, _ => engineAbort s p e 0x03
      | some _, some n => engineAbort s p e n
      | some bs, none => injectFlit s p e t lane (if enChain entry then .chain bs else .flowData bs)
    | none => engineAbort s p e 0x03

/-- WORD_RELEASE: the next head or word of the engine in its release fc (R144, R145). -/
def wordReleaseNext (e : Nat) (s : State) : State :=
  match partOfEngine s e, (s.engine e).nextRelease with
  | some p, some (t, i, r) => atFc s p t (releaseOne e p t i r)
  | _, _ => s

def execWordRelease (e : Nat) (s : State) : Host.Outcome State Fault Refusal := onEngine e s (wordReleaseNext e)

/-! ### Egress (R133, R147) -/

/-- The egress entry that a flow number selects. -/
def Engine.egressFor (x : Engine) (flow : Nat) : Option Nat :=
  (List.range 16).find? (fun i => let e := nth 0 x.egress i; enUsed e && enFlown e == flow)

/-- EGRESS_HEAD_ARRIVE: an egress flow's head selects its entry (R147). -/
def egressHead (e : Nat) (s : State) : State :=
  match partOfEngine s e, takeFlit isHead (s.engine e).inbox with
  | some p, some (d, rest) =>
    atFc s p d.fc (fun s => s.updEngine e (fun x =>
      let x := { x with inbox := rest }
      match d.body with
      | .flowHead t _ =>
        (match x.egressFor t.flow.toNat with
        | some i => { x with selected := x.selected.insert d.key (i, flitsOf t.aux) }
        | none => x)
      | _ => x))
  | _, _ => s

def execEgressHeadArrive (e : Nat) (s : State) : Host.Outcome State Fault Refusal := onEngine e s (egressHead e)

/-- Bytes in an outfall buffer, and its size (R143). -/
def outfallBytes (x : Engine) : Nat := (x.outfall.map (fun w => w.bytes.length)).sum
def outfallSize : Nat := 16384

/-- The ST code of an egress flit (R137 to R139, R147): the outfall full, a run outside OBJ, past the walk's end (log 17), or
the fault of its list entry. -/
def egressCode (s : State) (p : Nat) (x : Engine) (entry : BitVec 1024) (pos : Nat) : Option Nat :=
  let ps := edgePieces s p entry pos
  if decide (walkBytes (enDesc entry) < pos + 64) ||
      ps.any (fun q => q.2.2.isNone && !pieceInObj s p (enObj entry) q.1 q.2.1) then some 0x01
  else if outfallSize < outfallBytes x + 64 then some 0x03
  else (ps.filterMap (fun q => q.2.2)).head?

/-- The pieces of a flit's 64 bytes at their addresses. -/
def outWords (i : Nat) : List (Int × Nat × Option Nat) → List Byte → List OutWord
  | [], _ => []
  | q :: qs, bs => { entry := i, addr := q.1.toNat, bytes := bs.take q.2.1 } :: outWords i qs (bs.drop q.2.1)

/-- EGRESS_FLIT_ARRIVE: a data flit enters the outfall buffer at the next place of its entry's walk (R147). -/
def egressFlit (e : Nat) (s : State) : State :=
  let x := s.engine e
  match partOfEngine s e, takeFlit isData x.inbox with
  | some p, some (d, rest) =>
    let waits := (x.inbox.takeWhile (fun y => !isData y.body)).any (fun y => y.key == d.key && isHead y.body)
    if waits then s
    else
      atFc s p d.fc (fun s =>
        let s := s.updEngine e (fun x => { x with inbox := rest })
        let x := s.engine e
        match d.body, x.selected.find? d.key with
        | .flowData bs, some (i, left) =>
          let entry := nth 0 x.egress i
          let pos := Assoc.get (fun _ => 0) x.outWalk i
          (match egressCode s p x entry pos with
          | some n => engineAbort s p e n
          | none => s.updEngine e (fun x =>
              { x with outWalk := Assoc.set (fun _ => 0) x.outWalk i (pos + 64),
                       selected := if left ≤ 1 then x.selected.erase d.key else x.selected.insert d.key (i, left - 1),
                       outfall := x.outfall ++ outWords i (edgePieces s p entry pos) bs }))
        | _, _ => s)
  | _, _ => s

def execEgressFlitArrive (e : Nat) (s : State) : Host.Outcome State Fault Refusal := onEngine e s (egressFlit e)

/-- OUTFALL_WRITE: the oldest run in the outfall buffer is written to memory in granted slots, also after a fault, but not after
a breach (R17, R147, R155, R204). What its culvert found is counted on the die; a run that it has corrupted is not written, and
aborts a running job with ST-0x04 (R12, R156, R423). -/
def outfallWrite (e : Nat) (culvert : EccResult) (s : State) : State :=
  match partOfEngine s e, (s.engine e).outfall with
  | some p, w :: ws =>
    if bit s.breach 7 || !grantedOn s p e true [(w.addr, w.bytes.length)] then s
    else
      let s := countCulvert (s.updEngine e (fun x => { x with outfall := ws })) e culvert
      if culvert = .uncorrectable then (if engineRuns s p then engineAbort s p e 0x04 else s)
      else guardedWrite s p w.addr w.bytes
  | _, _ => s

def execOutfallWrite (e : Nat) (culvert : EccResult) (s : State) : Host.Outcome State Fault Refusal :=
  onEngine e s (onDerived (outfallWrite e culvert))

end Sys2Proof.Machine
end

