-- ==== Sys2Proof/Machine/ImageForm.lean ====
section
/-! DEFINITION. The configuration image as bytes (R157 to R165), and the launch state that it gives cells, engines and
sync objects (R171). -/
namespace Sys2Proof.Machine

/-! ### The header (R158) -/

def hMagic (h : Nat) : Nat := nbits h 63 0
def hVersion (h : Nat) : Nat := nbits h 95 64
def hBytes (h : Nat) : Nat := nbits h 127 96
def hShape (h : Nat) : Nat := nbits h 135 128
def hMaxFolds (h : Nat) : Nat := nbits h 143 136
def hCells (h : Nat) : Nat := nbits h 159 144
def hEngines (h : Nat) : Nat := nbits h 175 160
def hRefs (h : Nat) : Nat := nbits h 191 176
def hLoads (h : Nat) : Nat := nbits h 223 192
def hNd (h : Nat) : Nat := nbits h 231 224
def hDigest (h : Nat) : List Byte := leBytes 32 (nbits h 511 256)
def hT1 (h : Nat) : Nat := nbits h 575 512
def hT2 (h : Nat) : Nat := nbits h 639 576
def hFg1 (h : Nat) : Nat := nbits h 655 640
def hFg2 (h : Nat) : Nat := nbits h 671 656
def hNagree (h : Nat) : Nat := nbits h 679 672
def hCellOfs (h : Nat) : Nat := nbits h 735 704
def hEngOfs (h : Nat) : Nat := nbits h 767 736
def hLoadOfs (h : Nat) : Nat := nbits h 799 768

/-- The reserved bits of the header are zero. -/
def hRsvOk (h : Nat) : Bool :=
  nbits h 239 232 == 0 && nbits h 255 248 == 0 && nbits h 703 680 == 0 && nbits h 1023 800 == 0 && nbits h 32767 17920 == 0 &&
    nbits h 231 228 == 0

/-- Reference `i`: 64 bits (R160). -/
def hRef (h i : Nat) : Nat := nbits h (64 * i + 1599) (64 * i + 1536)

/-- Agreement-object name `j`: 16 bits (R160). -/
def hAgree (h j : Nat) : Nat := nbits h (16 * j + 1039) (16 * j + 1024)

/-- Objects referenced, with their stated tiers. -/
def hRefList (h : Nat) : List (Nat × Nat) :=
  (List.range (min (hRefs h) 256)).map (fun i => (nbits (hRef h i) 63 48, nbits (hRef h i) 47 46))

/-- Agreement objects, as die and number. -/
def hAgreeList (h : Nat) : List (Nat × Nat) :=
  (List.range (min (hNagree h) 32)).map (fun j => (nbits (hAgree h j) 15 14, nbits (hAgree h j) 11 0))

/-! ### Cell records (R161, R162) -/

/-- A fold block: its number, header, scalars, forwarding table, routes, instructions, and whether its padding is zero. -/
structure FoldRec where
  num     : Nat
  fhdr    : Nat
  scalars : List Word
  fwd     : BitVec 128
  routes  : List Word
  instrs  : List InsnWord
  padOk   : Bool
  deriving DecidableEq, Repr

/-- A cell record: its header, schedule, fold blocks, scratch, whether its padding is zero, and its proper length. -/
structure CellRec where
  hdr     : Nat
  sched   : List (BitVec 32)
  folds   : List FoldRec
  scratch : List Byte
  padOk   : Bool
  size    : Nat
  deriving DecidableEq, Repr

def FoldRec.ninstr (f : FoldRec) : Nat := nbits f.fhdr 7 0
def FoldRec.opMask (f : FoldRec) : Nat := nbits f.fhdr 11 8
def FoldRec.nroutes (f : FoldRec) : Nat := nbits f.fhdr 23 16

def CellRec.cell (r : CellRec) : Nat := nbits r.hdr 11 0
def CellRec.foldMask (r : CellRec) : Nat := nbits r.hdr 23 16
def CellRec.nsched (r : CellRec) : Nat := nbits r.hdr 31 24
def CellRec.recBytes (r : CellRec) : Nat := nbits r.hdr 63 32
def CellRec.scrBytes (r : CellRec) : Nat := nbits r.hdr 79 64
def CellRec.cfgMap (r : CellRec) : Nat := nbits r.hdr 191 96
def CellRec.descMap (r : CellRec) : Nat := nbits r.hdr 383 192

/-- Rounded up to a multiple of 16. -/
def pad16 (n : Nat) : Nat := ceilDiv n 16 * 16

/-- `n` little-endian words of `w` bytes from an offset. -/
def wordsAt (bs : List Byte) (o w n : Nat) : List Nat := (List.range n).map (fun i => leAt bs (o + w * i) w)

/-- Bytes `a` to `b - 1` are zero. -/
def zeroBytes (bs : List Byte) (a b : Nat) : Bool := ((bs.drop a).take (b - a)).all (· == 0)

/-- A fold block at the head of some bytes, and its length. -/
def parseFold (num : Nat) (bs : List Byte) : FoldRec × Nat :=
  let fhdr := leAt bs 0 16
  let nr := nbits fhdr 23 16
  let ni := nbits fhdr 7 0
  let at_ := 288 + pad16 (8 * nr)
  ({ num := num, fhdr := fhdr, scalars := (wordsAt bs 16 8 32).map (BitVec.ofNat 64), fwd := BitVec.ofNat 128 (leAt bs 272 16),
     routes := (wordsAt bs 288 8 nr).map (BitVec.ofNat 64), instrs := (wordsAt bs at_ 16 ni).map (BitVec.ofNat 128),
     padOk := zeroBytes bs (288 + 8 * nr) at_ }, at_ + 16 * ni)

/-- The fold blocks of the present folds, ascending, and the bytes after them. -/
def parseFolds : List Nat → List Byte → List FoldRec × List Byte
  | [], bs => ([], bs)
  | n :: ns, bs =>
    let (f, len) := parseFold n bs
    let (fs, rest) := parseFolds ns (bs.drop len)
    (f :: fs, rest)

/-- A cell record at the head of some bytes. -/
def parseRec (bs : List Byte) : CellRec :=
  let hdr := leAt bs 0 64
  let ns := nbits hdr 31 24
  let scr := nbits hdr 79 64
  let body := 64 + pad16 (4 * ns)
  let (folds, rest) := parseFolds ((List.range 8).filter (nbits hdr 23 16).testBit) (bs.drop body)
  let scrOfs := body + (folds.map (fun f => 288 + pad16 (8 * f.nroutes) + 16 * f.ninstr)).sum
  { hdr := hdr, sched := (wordsAt bs 64 4 ns).map (BitVec.ofNat 32), folds := folds, scratch := slice rest 0 scr,
    padOk := zeroBytes bs (64 + 4 * ns) body && folds.all (·.padOk) && zeroBytes rest scr (pad16 scr),
    size := scrOfs + pad16 scr }

/-- Up to `n` records in order, each with whether its REC_BYTES is its proper length and it lies within the bytes; nothing
after one that is not so. -/
def parseRecs : Nat → List Byte → List (CellRec × Bool)
  | 0, _ => []
  | n + 1, bs =>
    let r := parseRec bs
    let ok := r.recBytes == r.size && decide (r.size ≤ bs.length)
    (r, ok) :: (if ok then parseRecs n (bs.drop r.size) else [])

/-! ### The image -/

/-- An image as parsed: header, cell records, engine blocks (header, ingress, egress; R164), and tier-0 load entries
(R165). -/
structure Img where
  header  : Nat
  recs    : List (CellRec × Bool)
  engines : List (Nat × List (BitVec 1024) × List (BitVec 1024))
  loads   : List (BitVec 128)
  deriving DecidableEq, Repr

/-- Bytes of an object. -/
def objBytes (s : State) (p o : Nat) : Nat := match s.obj p o with | some x => x.nplots * plotBytes | none => 0

/-- The bytes of an image's object that loading reads: IMAGE_BYTES, at most 22.5 MiB and at most the object (R157). -/
def imageLength (s : State) (p o : Nat) : Nat :=
  min (min (hBytes (leNat (objRead s p o 0 4096))) 23592960) (objBytes s p o)

/-- An engine block's 16 entries from an offset. -/
def parseEntries (bs : List Byte) (o : Nat) : List (BitVec 1024) := (wordsAt bs o 128 16).map (BitVec.ofNat 1024)

/-- The image that bytes hold. -/
def parseImage (bs : List Byte) : Img :=
  let h := leAt bs 0 4096
  let e := bs.drop (hEngOfs h)
  { header := h,
    recs := parseRecs (hCells h) ((bs.take (hEngOfs h)).drop (hCellOfs h)),
    engines := (List.range (min (hEngines h) ((bs.length - hEngOfs h) / 4112))).map (fun i =>
      (leAt e (4112 * i) 16, parseEntries e (4112 * i + 16), parseEntries e (4112 * i + 2064))),
    loads := (wordsAt (bs.drop (hLoadOfs h)) 0 16 (min (hLoads h) ((bs.length - hLoadOfs h) / 16))).map (BitVec.ofNat 128) }

/-- The image in an object. -/
def readImage (s : State) (p o : Nat) : Img := parseImage (objRead s p o 0 (max 4096 (imageLength s p o)))

/-- A tier-0 load entry's fields (R165). -/
def leCell (e : BitVec 128) : Nat := bits e 127 116
def leAddr (e : BitVec 128) : Nat := bits e 115 96
def leObj (e : BitVec 128) : Nat := bits e 95 80
def leLen (e : BitVec 128) : Nat := bits e 63 44
def leOfs (e : BitVec 128) : Nat := bits e 43 0

/-! ### The launch state (R171, R172) -/

/-- A fold as its block gives it. -/
def FoldRec.load (f : FoldRec) : Fold :=
  { Fold.init with
    instrs := f.instrs, opMask := BitVec.ofNat 4 f.opMask, routes := f.routes, fwd := f.fwd,
    regs := ((List.range 32).zip f.scalars).foldl (fun (m : Assoc Word) e =>
      if e.1 = 0 then m else Assoc.set (fun _ => 0) m e.1 e.2) [] }

/-- A cell in its launch state; its halves and its bank keep what they hold (R172). -/
def Cell.launch (x : Cell) (r : Option CellRec) : Cell :=
  let x0 := { Cell.init with half0 := x.half0, half1 := x.half1, tier0 := x.tier0, pages := x.pages }
  match r with
  | none => x0
  | some r =>
    { x0 with record := true, sched := r.sched, folds := r.folds.map (fun f => (f.num, f.load)),
              scratch := Mem.zero.writeN 0 0 r.scratch }

/-- An engine with the entries of its block. -/
def Engine.load (b : Nat × List (BitVec 1024) × List (BitVec 1024)) : Engine :=
  { Engine.init with ingress := b.2.1, egress := b.2.2 }

/-- The partition's sync objects at 0 (R171). -/
def clearSync (s : State) (p : Nat) : State :=
  { s with sync := s.sync.filter (fun e => !syncInPart s p (e.1 / 4096) (e.1 % 4096)) }

/-- The launch state of an image written into the partition's cells and engines (R168, R171). -/
def launchState (s : State) (p : Nat) (im : Img) : State :=
  let s := (partListed s p).foldl (fun s c => s.updCell c (fun x => x.launch none)) s
  let s := im.recs.foldl (fun s r =>
    if r.2 && inPart s p r.1.cell then s.updCell r.1.cell (fun x => x.launch (some r.1)) else s) s
  let s := (partEngines s p).foldl (fun s e => s.updEngine e (fun _ => Engine.init)) s
  let s := im.engines.foldl (fun s b =>
    let n := nbits b.1 7 0
    if engineInPart s p n then s.updEngine n (fun _ => Engine.load b) else s) s
  clearSync s p

end Sys2Proof.Machine
end

