-- ==== Sys2Proof/Machine/ImageCheck.lean ====
section
/-! DEFINITION. The enable check (R174, R175): the failures of each step, and the verdict with the lowest locator. -/
namespace Sys2Proof.Machine

/-- A failure: locator kind (0 none, 1 cell, 2 engine, 3 reference), unit, fold and entry index (each one more than its
number, 0 for none), and EN code (R166, R174). -/
structure Fail where
  kind : Nat
  unit : Nat
  fold : Nat
  sub  : Nat
  code : Nat
  deriving DecidableEq, Repr, Inhabited

/-- The order in which failures of one step are reported (R174). -/
def Fail.order (f : Fail) : Nat := (((f.kind * 65536 + f.unit) * 16 + f.fold) * 65536 + f.sub) * 256 + f.code

/-- The failure that a step reports. -/
def lowestFail : List Fail → Option Fail
  | [] => none
  | f :: fs => match lowestFail fs with
    | some g => if g.order < f.order then some g else some f
    | none => some f

/-- A failure with a code where a condition holds. -/
def failIf (b : Bool) (kind unit fold sub code : Nat) : List Fail := if b then [{ kind, unit, fold, sub, code }] else []

/-- A failure of a cell record, of a fold of it, of an instruction or entry of a fold. -/
def failCell (b : Bool) (c code : Nat) : List Fail := failIf b 1 c 0 0 code
def failFold (b : Bool) (c f code : Nat) : List Fail := failIf b 1 c (f + 1) 0 code
def failInsn (b : Bool) (c f k code : Nat) : List Fail := failIf b 1 c (f + 1) (k + 1) code

/-- A list with the indexes of its elements. -/
def indexed {α : Type} (l : List α) : List (Nat × α) := (List.range l.length).zip l

/-- The folds of an image, with their cells. -/
def Img.folds (im : Img) : List (CellRec × FoldRec) :=
  im.recs.flatMap (fun r => r.1.folds.map (fun f => (r.1, f)))

/-- Failures over every instruction of an image. -/
def overInsns (im : Img) (g : CellRec → FoldRec → Nat → InsnWord → List Fail) : List Fail :=
  im.folds.flatMap (fun rf => (indexed rf.2.instrs).flatMap (fun ki => g rf.1 rf.2 ki.1 ki.2))

/-! ### Steps 2 to 5 -/

/-- An edge stream entry's reserved bits are not zero in a used entry (R143). -/
def entryRsvBad (e : BitVec 1024) : Bool := enUsed e && bits e 271 0 != 0

/-- Step 2: MAGIC, VERSION, IMAGE_BYTES, the region offsets and the counts, then the reserved fields of what the header
counts (R157, R158, R160, R164, R165; log 24). `size` is the object's. -/
def step2 (im : Img) (size : Nat) : List Fail :=
  let h := im.header
  let (ib, c, e, t) := (hBytes h, hCellOfs h, hEngOfs h, hLoadOfs h)
  let nums := im.engines.map (fun b => nbits b.1 7 0)
  let at_ := fun (b : Bool) code => failIf b 0 0 0 0 code
  if hMagic h ≠ 0x4547414D494C4443 then at_ true 0x11
  else if nbits (hVersion h) 31 16 ≠ 1 ∨ 0 < nbits (hVersion h) 15 0 then at_ true 0x02
  else if ib < 4096 ∨ 23592960 < ib ∨ size < ib then at_ true 0x11
  else if c < 4096 ∨ c % 16 ≠ 0 ∨ e % 16 ≠ 0 ∨ t % 16 ≠ 0 ∨ e < c ∨ t < e ∨ ib < t then at_ true 0x11
  else if e - c < 64 * hCells h ∨ 4112 * hEngines h ≠ t - e ∨ 16 * hLoads h ≠ ib - t ∨ 256 < hRefs h ∨ 32 < hNagree h then
    at_ true 0x11
  else
    at_ (!hRsvOk h || (List.range (hRefs h)).any (fun i => hRef h i % 2 ^ 46 != 0) ||
      (List.range (hNagree h)).any (fun j => nbits (hAgree h j) 13 12 != 0) ||
      im.engines.any (fun b => b.1 / 256 != 0 || b.2.1.any entryRsvBad || b.2.2.any entryRsvBad) ||
      !((nums.zip (nums.drop 1)).all (fun p => decide (p.1 < p.2))) ||
      im.loads.any (fun l => bits l 79 64 != 0)) 0x11

/-- Step 3: the digest (R158, R168; log 24). -/
def step3 (im : Img) (image : Image) : List Fail :=
  failIf (!image.whole || image.digest != hDigest im.header) 0 0 0 0 0x01

/-- Step 4: SHAPE and MAXFOLDS. -/
def step4 (im : Img) (shape : Nat) : List Fail :=
  failIf (hShape im.header != shape) 0 0 0 0 0x03 ++
    failIf (hMaxFolds im.header == 0 || decide (8 < hMaxFolds im.header)) 0 0 0 0 0x04

/-- Fold-schedule faults of a record (R45, R175). -/
def schedFails (r : CellRec) : List Fail :=
  failCell (r.nsched == 0 || decide (32 < r.nsched)) r.cell 0x16 ++
  (indexed r.sched).flatMap (fun ke =>
    let e := ke.2
    failIf (bits e 27 24 != 0) 1 r.cell 0 (ke.1 + 1) 0x11 ++
    failIf (bits e 23 0 == 0 || (bit e 28 != decide (ke.1 + 1 = r.nsched)) || !r.foldMask.testBit (bits e 31 29))
      1 r.cell 0 (ke.1 + 1) 0x16)

/-- Faults of a fold block's form (R162, R163). -/
def foldFails (c : Nat) (f : FoldRec) : List Fail :=
  failFold (f.fhdr / 2 ^ 24 != 0 || nbits f.fhdr 15 12 != 0 || f.ninstr == 0 || nth 0 f.scalars 0 != 0 ||
    decide (32 < f.nroutes) || f.routes.any (fun r => bits r 40 0 != 0) ||
    (List.range 16).any (fun k => nbits (bits f.fwd (8 * k + 7) (8 * k)) 6 3 != 0)) c f.num 0x11 ++
  failFold (decide (64 < f.ninstr)) c f.num 0x05

/-- Set bits of a number's low 8. -/
def popcount8 (n : Nat) : Nat := ((List.range 8).filter n.testBit).length

/-- Faults of one record, with the cell number before it (R161, R162, R174). -/
def recFails (s : State) (p : Nat) (maxFolds : Nat) (prev : Option Nat) (r : CellRec × Bool) : List Fail :=
  let x := r.1
  let c := x.cell
  let late := match prev with | some q => decide (c ≤ q) | none => false
  failCell (!r.2 || late || nbits x.hdr 15 12 != 0 || nbits x.hdr 95 80 != 0 || nbits x.hdr 511 384 != 0 ||
    x.scrBytes % 8 != 0 || decide (12288 < x.scrBytes) || !x.padOk) c 0x11 ++
  failCell (!inPart s p c) c 0x03 ++ failCell (decide (maxFolds < popcount8 x.foldMask)) c 0x04 ++
  schedFails x ++ x.folds.flatMap (foldFails c)

/-- Faults of records in order. -/
def recsFails (s : State) (p maxFolds : Nat) : Option Nat → List (CellRec × Bool) → List Fail
  | _, [] => []
  | prev, r :: rs =>
    recFails s p maxFolds prev r ++
      recsFails s p maxFolds (some (match prev with | some q => max q r.1.cell | none => r.1.cell)) rs

/-- Step 5: the cell records, which end where the engine blocks begin (R157, R161, R162). -/
def step5 (s : State) (p : Nat) (im : Img) : List Fail :=
  let len := (im.recs.map (fun r => r.1.size)).sum
  recsFails s p (hMaxFolds im.header) none im.recs ++
    failIf (im.recs.all (·.2) && (hCellOfs im.header + len != hEngOfs im.header)) (if im.recs = [] then 0 else 1)
      (match im.recs.getLast? with | some r => r.1.cell | none => 0) 0 0 0x11

/-! ### Step 6 -/

/-- The opcodes that are assigned (R53). -/
def assigned (op : Nat) : Bool :=
  decide (op ≤ 0x0F) || (decide (0x20 ≤ op) && decide (op ≤ 0x26)) || (decide (0x40 ≤ op) && decide (op ≤ 0x48)) ||
    (decide (0x60 ≤ op) && decide (op ≤ 0x64)) || (decide (0x80 ≤ op) && decide (op ≤ 0x83))

/-- The bits that an opcode's fields take, as ranges (R44, R52, R53, R74 to R77, R106, R140, R141). A field that only another SUB
or MODE of a MANCH uses is not reserved here. DESIGN CHOICE (log 102). -/
def fieldRanges (op : Nat) : List (Nat × Nat) :=
  let d := (95, 91)
  let a := (90, 86)
  let b := (85, 81)
  let port := (80, 79)
  let im := (78, 78)
  let sub := (76, 72)
  let imm := (63, 0)
  let rt := (71, 64)
  let tagx := (111, 96)
  let as_ := d
  let bs := a
  let ds := b
  let src := (78, 77)
  let sid := (76, 75)
  let lsrc := (73, 72)
  let ofs := (47, 40)
  match op with
  | 0x02 => [rt, port, sub, a, b, (77, 77), imm, tagx]
  | 0x03 => [rt, port, b, (77, 77), tagx]
  | 0x04 => [d, imm]
  | 0x05 => [d, a, b, im, sub, imm]
  | 0x06 => [d, a, b, im, sub, imm]
  | 0x07 => [d, a, b, sub]
  | 0x08 => [d, port, sub, imm]
  | 0x09 => [d]
  | 0x0A => [d, a, imm]
  | 0x0B => [a, b, imm]
  | 0x0C => [d, a, b]
  | 0x0D => [d]
  | 0x0E => [d]
  | 0x0F => [d, imm]
  | 0x20 => [d, b, im, imm]
  | 0x21 => [d, b, im, imm]
  | 0x22 => [b, im, imm]
  | 0x23 => [d, imm]
  | 0x24 => [b, imm]
  | 0x25 => [b, im, imm]
  | 0x26 => [d, imm]
  | 0x40 => [as_, ds, sid, ofs]
  | 0x41 => [as_, bs, ds, src, sid]
  | 0x42 => [as_, src, rt, (63, 56), (55, 48), ofs, tagx]
  | 0x43 => [bs, port, (63, 56), ofs]
  | 0x44 => [as_, bs, ds, lsrc, sid, ofs]
  | 0x45 => [as_, bs, ds, lsrc, sid, ofs]
  | 0x47 => [as_, bs, port, src, rt, ofs, (39, 32), (31, 18)]
  | 0x48 => [sid, (74, 74)]
  | 0x60 => [(89, 84), (83, 72), (71, 64), (61, 60), (50, 46)]
  | 0x61 => [(95, 57), (55, 22)]
  | 0x62 => [(95, 57), (55, 22)]
  | 0x63 => [(95, 72)]
  | 0x64 => [(95, 87), (79, 64), (43, 32)]
  | 0x80 => [(95, 77)]
  | 0x81 => [(95, 76)]
  | 0x83 => [(95, 89)]
  | _ => []

/-- A bit of [111:0] outside the opcode's fields is set. -/
def rsvSet (i : InsnWord) : Bool :=
  let used := (fieldRanges (opcode i)).foldl (fun m r => m ||| (2 ^ (r.1 + 1) - 2 ^ r.2)) 0
  (bits i 111 0 &&& used) != bits i 111 0

/-- The predicate-select field is reserved, or names a port outside the operand mask (R42). -/
def pselBad (f : FoldRec) (i : InsnWord) : Bool :=
  let n := bits i 116 112
  if n = 0 then false
  else if n ≤ 4 then !f.opMask.testBit (n - 1)
  else if n ≤ 8 then !f.opMask.testBit (n - 5)
  else decide (n < 0x10 ∨ 0x17 < n)

/-- The largest SUB of an opcode that has one (R53, R76, R106). -/
def subBad (i : InsnWord) : Bool :=
  match opcode i with
  | 0x02 => decide (3 < fSub i)
  | 0x05 => decide (10 < fSub i)
  | 0x06 => decide (6 < fSub i)
  | 0x07 => decide (3 < fSub i)
  | 0x08 => decide (2 < fSub i)
  | 0x64 => decide (2 < manchSub i)
  | 0x83 => decide (2 < bits i 90 89)
  | _ => false

/-- A route that the instruction names is not one of the fold's (R52, R150). -/
def routeBad (f : FoldRec) (i : InsnWord) : Bool :=
  match opcode i with
  | 0x02 => decide (f.nroutes ≤ fRoute i)
  | 0x03 => decide (f.nroutes ≤ fRoute i)
  | 0x42 => decide (f.nroutes ≤ fRoute i)
  | 0x47 => decide (0 < sfRest i) && decide (f.nroutes ≤ fRoute i + 3)
  | _ => false

/-- An input format code that is reserved (R78). -/
def inFmtBad (c : Nat) : Bool := decide (0xA < c)

/-- The refusals of R78 that have EN-0x14, and a reserved operand source (R74). -/
def matrixBad (i : InsnWord) : Bool :=
  let fmts := inFmtBad (bits i 71 68) || inFmtBad (bits i 67 64) || decide (mmWsrc i = 3)
  let product := fmts || decide (mmAsrc i = 3) || decide (mmApitch i = 0) || (mmWkeep i && mmWpre i) ||
    (mmWkeep i && decide (panelDepth (mmAfmt i) (mmWfmt i) < mmK i))
  match opcode i with
  | 0x60 => fmts
  | 0x61 => product
  | 0x62 => product
  | 0x63 => (decide (0xA < moOfmt i) && decide (moOfmt i ≠ 0xF)) || decide (64 < moRow0 i + moRows i) ||
      (decide (moOfmt i = 0xF) && decide (16 < moRows i))
  | 0x64 => decide (manchMode i = 3) || (decide (manchMode i = 1) && decide (manchAnchor i < -512 ∨ 511 < manchAnchor i))
  | _ => false

/-- Other field faults: LEN and the scalars of an EMIT, predicate registers above PR7, a static count of 0 (R52, R53,
R106, R175). -/
def operandBad (i : InsnWord) : Bool :=
  match opcode i with
  | 0x02 =>
    let len := fImm i % 128
    decide (64 < len) || (if fSub i = 2 then decide (32 < fA i + ceilDiv len 8) else decide (fA i ≠ 0))
  | 0x06 => decide (7 < fD i)
  | 0x07 => decide (7 < fD i ∨ 7 < fA i ∨ 7 < fB i)
  | 0x81 => !bit i 81 && decide (bits i 95 82 = 0)
  | _ => false

/-- The ND bits of opcodes, as bits of ND_SUMMARY (R53, R158). -/
def ndOf (op : Nat) : Option Nat :=
  match op with
  | 0x0D => some 0
  | 0x0E => some 1
  | 0x0F => some 2
  | 0x26 => some 3
  | _ => none

/-- Step 6: each instruction, and each fold's END (log 24). -/
def step6 (im : Img) : List Fail :=
  overInsns im (fun r f k i =>
    let op := opcode i
    if !assigned op then failInsn true r.cell f.num k 0x12
    else
      let nd := bit i 119
      let ndBad := match ndOf op with | some b => !nd || !(hNd im.header).testBit b | none => nd
      failInsn ndBad r.cell f.num k 0x13 ++
      failInsn (rsvSet i || pselBad f i || subBad i || routeBad f i || matrixBad i || operandBad i) r.cell f.num k 0x14) ++
  im.folds.flatMap (fun rf =>
    failInsn (!rf.2.instrs.any (fun i => opcode i == 1)) rf.1.cell rf.2.num (rf.2.ninstr - 1) 0x15)

/-! ### Steps 7 to 9 -/

/-- `n` bytes of a record's scratch as a number; bytes past SCR_BYTES are zero (R162). -/
def CellRec.scrAt (r : CellRec) (a n : Nat) : Nat := leNat (slice r.scratch a n)

/-- The descriptor at a scratch address is one that DESCMAP marks. -/
def CellRec.descAt (r : CellRec) (a : Nat) : Option (BitVec 512) :=
  if a % 64 = 0 ∧ a < 0x3000 ∧ r.descMap.testBit (a / 64) then some (BitVec.ofNat 512 (r.scrAt a 64)) else none

/-- The descriptor MODE that a local stream's opcode asks for (R136). -/
def wantMode (op : Nat) : Nat := match op with | 0x44 => 1 | 0x45 => 2 | _ => 0

/-- The record's SWAP: with none in any fold, half 1 stays the fill half (R129). -/
def CellRec.swaps (r : CellRec) : Bool := r.folds.any (fun f => f.instrs.any (fun i => opcode i == 0x46))

/-- A stream instruction's fields that R141 refuses. -/
def streamBad (r : CellRec) (f : FoldRec) (i : InsnWord) : Bool :=
  let op := opcode i
  let desc := r.descAt (bits (nth 0 f.scalars (sfDs i)) 13 0 / 8 * 8)
  let mode := match desc with | some d => decide (ldMode d ≠ wantMode op) | none => false
  match op with
  | 0x40 => mode
  | 0x41 => mode || decide (sfSrc i = 2)
  | 0x42 => decide (sfSrc i = 1) && !r.swaps
  | 0x44 => mode || decide (sfLsrc i < 2)
  | 0x45 => mode || decide (sfLsrc i < 2)
  | _ => false

/-- Step 7: chain configurations, loop descriptors and the stream fields (R105, R136, R141; log 24). -/
def step7 (im : Img) : List Fail :=
  im.recs.flatMap (fun rr =>
    let r := rr.1
    (List.range 96).flatMap (fun i =>
      failIf (r.cfgMap.testBit i && !cfgOk (BitVec.ofNat 1024 (r.scrAt (128 * i) 128))) 1 r.cell 0 (min (2 * i) 63 + 1) 0x17) ++
    (List.range 192).flatMap (fun i =>
      failIf (r.descMap.testBit i && ldMalformed (BitVec.ofNat 512 (r.scrAt (64 * i) 64))) 1 r.cell 0 (min i 63 + 1) 0x0E)) ++
  overInsns im (fun r f k i => failInsn (streamBad r f i) r.cell f.num k 0x0E)

/-- The claims on lanes of a fold, in order: link, lane, and the locator of the claimant (R31, R163). -/
def laneClaims (c : Nat) (f : FoldRec) : List (Nat × Nat × Nat) :=
  (indexed f.routes).filterMap (fun kr => if routeOut kr.2 < 4 then some (routeOut kr.2, routeLane kr.2, kr.1) else none) ++
  (List.range 16).filterMap (fun k =>
    let b := bits f.fwd (8 * k + 7) (8 * k)
    let bridge := match neighbour c (k / 4) with | some n => n.2 | none => false
    if b.testBit 7 ∧ b % 8 < 4 then some (b % 8, (if bridge then k % 4 else (k % 4 + 2) % 4), 32 + k) else none)

/-- The claims that meet an earlier one of the same lane. -/
def clashes : List (Nat × Nat) → List (Nat × Nat × Nat) → List Nat
  | _, [] => []
  | seen, (l, n, k) :: cs => (if seen.contains (l, n) then [k] else []) ++ clashes ((l, n) :: seen) cs

/-- Step 8: routes and forwarding of a fold (R31, R163; log 24). -/
def step8 (im : Img) : List Fail :=
  im.folds.flatMap (fun rf =>
    let c := rf.1.cell
    let f := rf.2
    let leads := fun out => (neighbour c out).isSome || (engineAt c out).isSome
    (clashes [] (laneClaims c f)).flatMap (fun k => failInsn true c f.num k 0x06) ++
    (indexed f.routes).flatMap (fun kr =>
      failInsn (decide (4 < routeOut kr.2) || (decide (routeOut kr.2 < 4) && !leads (routeOut kr.2))) c f.num kr.1 0x06) ++
    (List.range 16).flatMap (fun k =>
      let b := bits f.fwd (8 * k + 7) (8 * k)
      failInsn (b.testBit 7 && (decide (4 < b % 8) || (decide (b % 8 < 4) && !leads (b % 8)))) c f.num (32 + k) 0x06))

/-- Step 9: sync-object names and the AGREE list (R56, R58, R78, R160). -/
def step9 (s : State) (p : Nat) (im : Img) : List Fail :=
  let agree := hAgreeList im.header
  overInsns im (fun r f k i =>
    let op := opcode i
    let die := cellDie r.cell
    if 0x20 ≤ op ∧ op ≤ 0x25 then failInsn (!syncInPart s p die (bits i 43 32)) r.cell f.num k 0x0C
    else if op = 0x64 then
      if syncInPart s p die (manchObj i) then
        failInsn (decide (manchMode i = 2) && !agree.contains (die, manchObj i)) r.cell f.num k 0x0D
      else failInsn true r.cell f.num k 0x0C
    else []) ++
  (indexed agree).flatMap (fun ja => failIf (!syncInPart s p ja.2.1 ja.2.2) 3 ja.1 0 0 0x0C)

/-! ### Step 10 -/

/-- An entry that R144 or R147 refuses, by its place in the block: 0 ingress, 1 egress. -/
def entryBad (dir : Nat) (e : BitVec 1024) : Bool :=
  let n := (enLanes e).length
  enUsed e && (ldMalformed (enDesc e) || decide (enDir e ≠ dir) || decide (enTier e = 0 ∨ enTier e = 3) ||
    (decide (dir = 0) &&
      (decide (enRstart e % 4 ≠ 0 ∨ enRgap e % 4 ≠ 0 ∨ n = 0) || decide (enBurst e % n ≠ 0) ||
        decide (enRgap e < 4 * (enBurst e / n + (if enChain e then 0 else 1))) ||
        (!enChain e && decide (256 < enBurst e / n)) || decide (walkBytes (enDesc e) % 64 ≠ 0) ||
        (enChain e && decide (n ≠ 4)))))

/-- The slots of a lane that a burst of an entry takes: first fc and the fc after the last. -/
def burstSlots (e : BitVec 1024) (lane b : Nat) : Option (Nat × Nat) :=
  let n := (enLanes e).length
  match (enLanes e).findIdx? (· == lane) with
  | none => none
  | some i =>
    let words := laneWords n (min (enBurst e) (enWords e - b * enBurst e)) i
    let start := enRstart e + b * enRgap e
    some (start, start + 4 * (words + (if enChain e then 0 else 1)))

/-- Two used entries own one slot of a lane (R144). -/
def slotsMeet (a b : BitVec 1024) : Bool :=
  enUsed a && enUsed b &&
  (List.range 4).any (fun lane =>
    (List.range (ceilDiv (enWords a) (enBurst a))).any (fun i =>
      (List.range (ceilDiv (enWords b) (enBurst b))).any (fun j =>
        match burstSlots a lane i, burstSlots b lane j with
        | some x, some y => decide (x.1 < y.2) && decide (y.1 < x.2)
        | _, _ => false)))

/-- Faults of an engine block (R143, R144, R164). -/
def engineFails (s : State) (p : Nat) (b : Nat × List (BitVec 1024) × List (BitVec 1024)) : List Fail :=
  let n := nbits b.1 7 0
  let at_ := fun (x : Bool) k code => failIf x 2 n 0 (k + 1) code
  if !engineInPart s p n then failIf true 2 n 0 0 0x03
  else
    (indexed b.2.1).flatMap (fun ke => at_ (entryBad 0 ke.2) ke.1 0x0E ++
      at_ (!entryBad 0 ke.2 && (b.2.1.take ke.1).any (fun e => !entryBad 0 e && slotsMeet e ke.2)) ke.1 0x06) ++
    (indexed b.2.2).flatMap (fun ke => at_ (entryBad 1 ke.2) (16 + ke.1) 0x0E)

/-- The used egress entries of an engine have a flow number (none: any). -/
def hasEgress (im : Img) (n : Nat) (flown : Option Nat) : Bool :=
  im.engines.any (fun b => nbits b.1 7 0 == n && b.2.2.any (fun e =>
    enUsed e && (match flown with | some k => enFlown e == k | none => true)))

/-- The engine that a route ends at (R163). -/
def routeEngine (r : Word) : Option Nat := if bit r 53 ∧ routeOut r ≠ 4 then some (bits r 52 41) else none

/-- Egress routes without an entry (R147), those of a FLOW without one of its number. -/
def egressFails (im : Img) : List Fail :=
  im.folds.flatMap (fun rf =>
    (indexed rf.2.routes).flatMap (fun kr => match routeEngine kr.2 with
      | some n => failInsn (!hasEgress im n none) rf.1.cell rf.2.num kr.1 0x0E
      | none => []) ++
    (indexed rf.2.instrs).flatMap (fun ki =>
      if opcode ki.2 = 0x42 then
        match routeEngine (nth 0 rf.2.routes (fRoute ki.2)) with
        | some n => failInsn (!hasEgress im n (some (sfFlown ki.2))) rf.1.cell rf.2.num ki.1 0x0E
        | none => []
      else []))

/-- The four forward routes of a SANDBAG own all four lanes of one link and end at one cell (R150). -/
def sandbagRoutesOk (f : FoldRec) (i : InsnWord) : Bool :=
  let rs := (List.range 4).map (fun k => nth 0 f.routes (fRoute i + k))
  let r0 := nth 0 rs 0
  rs.all (fun r => routeOut r == routeOut r0 && decide (routeOut r < 4) && bits r 53 41 == bits r0 53 41 && !bit r 53) &&
    (List.range 4).all (fun l => rs.any (fun r => routeLane r == l))

/-- The SANDBAGs of an image: cell, fold, index, instruction. -/
def sandbags (im : Img) : List (CellRec × FoldRec × Nat × InsnWord) :=
  im.folds.flatMap (fun rf => (indexed rf.2.instrs).filterMap (fun ki =>
    if opcode ki.2 = 0x47 then some (rf.1, rf.2, ki.1, ki.2) else none))

/-- Members of the longest chain from a SANDBAG on, up to `fuel`: the next member stands in the routes' cell, takes from
upstream, and keeps and forwards what this one forwards (R150, R151). -/
def chainFrom (all : List (CellRec × FoldRec × Nat × InsnWord)) : Nat → CellRec × FoldRec × Nat × InsnWord → Nat
  | 0, _ => 1
  | fuel + 1, (_, f, _, i) =>
    if sfRest i = 0 then 1
    else
      let dest := bits (nth 0 f.routes (fRoute i)) 52 41
      let next := all.filter (fun m => m.1.cell == dest && sfSrc m.2.2.2 == 3 && sfKeep m.2.2.2 + sfRest m.2.2.2 == sfRest i)
      1 + (next.map (chainFrom all fuel)).foldl max 0

/-- Chains whose routes do not own a link's four lanes, or of more than 48 members (R150). -/
def chainFails (im : Img) : List Fail :=
  let all := sandbags im
  all.flatMap (fun m =>
    failInsn (decide (0 < sfRest m.2.2.2) && !sandbagRoutesOk m.2.1 m.2.2.2 || decide (48 < chainFrom all 49 m))
      m.1.cell m.2.1.num m.2.2.1 0x0E)

/-- Step 10: engine blocks, egress routes and chains. -/
def step10 (s : State) (p : Nat) (im : Img) : List Fail :=
  im.engines.flatMap (engineFails s p) ++ egressFails im ++ chainFails im

/-! ### Steps 11 to 15 -/

/-- Every plot of an object of the partition is in a tier; false where there is no such object. -/
def objStands (s : State) (p o tier : Nat) : Bool :=
  match s.obj p o with
  | some x => objInTier s p x tier
  | none => false

/-- The objects that engine entries name are referenced (R160). -/
def entryRefFails (im : Img) : List Fail :=
  let refs := (hRefList im.header).map (·.1)
  im.engines.flatMap (fun b =>
    let n := nbits b.1 7 0
    (indexed (b.2.1 ++ b.2.2)).flatMap (fun ke => failIf (enUsed ke.2 && !refs.contains (enObj ke.2)) 2 n 0 (ke.1 + 1) 0x09))

/-- Step 11: the image in tier 1 (R179), and every referenced object in its stated tier (R160). -/
def step11 (s : State) (p handle : Nat) (im : Img) : List Fail :=
  failIf (!objStands s p handle 1) 0 0 0 0 0x09 ++ entryRefFails im ++
  (indexed (hRefList im.header)).flatMap (fun ir =>
    failIf (ir.2.2 == 0 || ir.2.2 == 3 || !objStands s p ir.2.1 ir.2.2) 3 ir.1 0 0 0x09)

/-- Two load entries of one cell overlap in its bank (R165). -/
def loadsMeet (a b : BitVec 128) : Bool :=
  leCell a == leCell b && decide (leAddr a < leAddr b + leLen b) && decide (leAddr b < leAddr a + leLen a)

/-- A load entry that R165 refuses, as its step reports it: EN-0x07. -/
def loadBad (s : State) (p : Nat) (l : BitVec 128) : Bool :=
  !inPart s p (leCell l) || decide (leAddr l % 64 ≠ 0 ∨ leLen l % 64 ≠ 0 ∨ leOfs l % 64 ≠ 0) ||
    decide (leLen l < 64 ∨ bankBytes < leLen l ∨ bankBytes < leAddr l + leLen l) ||
    (match s.obj p (leObj l) with | some x => decide (x.nplots * plotBytes < leOfs l + leLen l) | none => false)

/-- Step 12: the tier-0 load list, each entry located by its cell and its number among the cell's (log 24). -/
def step12 (s : State) (p : Nat) (im : Img) : List Fail :=
  let refs := (hRefList im.header).map (·.1)
  (indexed im.loads).flatMap (fun il =>
    let l := il.2
    let k := ((im.loads.take il.1).filter (fun m => leCell m == leCell l)).length
    let meets := (indexed im.loads).any (fun jm => jm.1 != il.1 && loadsMeet l jm.2)
    failIf (meets || loadBad s p l) 1 (leCell l) 0 (min k 63 + 1) 0x07 ++
    failIf (!refs.contains (leObj l)) 1 (leCell l) 0 (min k 63 + 1) 0x09)

/-- Step 13: the free quota of each tier covers its demand and, in the drain tier, the drain area (R190). -/
def step13 (s : State) (p : Nat) (im : Img) : List Fail :=
  let short := fun t bytes => decide (freeFrames s p t < ceilDiv bytes plotBytes +
    (if drainTier s p = t then drainFrames (shapeOf s p) else 0))
  failIf (short 1 (hT1 im.header) || short 2 (hT2 im.header)) 0 0 0 0 0x08

/-- FG positions of a controller's table. -/
def fgSlots (s : State) (p tier ctl : Nat) : Nat := ((List.range 256).filter (fun i => slotOwner s p tier ctl i == 1)).length

/-- The least FG positions of the partition's controllers of a tier. -/
def leastFg (s : State) (p tier : Nat) : Nat :=
  match (List.range (numControllers s p tier)).map (fgSlots s p tier) with
  | [] => 0
  | n :: ns => ns.foldl min n

/-- A grantee of a tier has no slot on some controller (R175, R204). -/
def starved (s : State) (p tier : Nat) : Bool :=
  let gs := grantees s p tier
  (List.range gs.length).any (fun g => (List.range (numControllers s p tier)).all (fun c =>
    !(List.range 256).any (granted s p tier c g gs.length)))

/-- The partition's used ingress entries of a tier. -/
def tierEntries (s : State) (p tier : Nat) : List (BitVec 1024) :=
  (partEngines s p).flatMap (fun n => (s.engine n).ingress.filter (fun e => enUsed e && enTier e == tier))

/-- The engines' demand of a tier is more than the FG slots that the partition owns over the time from the first fetch start to
the last release (R149, R175, R201; log 97): each slot moves one granule. -/
def overdrawn (s : State) (p tier : Nat) : Bool :=
  let es := tierEntries s p tier
  match es with
  | [] => false
  | e :: _ =>
    let demand := ((es.map (fun e => enWords e)).sum * 64) / (if tier = 1 then 64 else 128)
    let first := es.foldl (fun a e => min a (fetchStart e)) (fetchStart e)
    let last := es.foldl (fun a e => max a (wordRelease e (enWords e - 1))) 0
    let periods := ceilDiv (mcOf (last - first)) 1024 + 1
    decide (periods * ((List.range (numControllers s p tier)).map (fgSlots s p tier)).sum < demand)

/-- Step 14: the sluice demand. -/
def step14 (s : State) (p : Nat) (im : Img) : List Fail :=
  failIf (decide (leastFg s p 1 < hFg1 im.header) || decide (leastFg s p 2 < hFg2 im.header) || starved s p 1 || starved s p 2 ||
    overdrawn s p 1 || overdrawn s p 2) 0 0 0 0 0x0B

/-- The first entry of an engine with a word that arrives after its release (R149). -/
def lateEntry (s : State) (p n : Nat) : Option Nat :=
  let as := engineArrivals s p n
  let x := s.engine n
  let ws := engineWords ((x.ingress.filter enUsed).map enWords).sum { x with fetched := [], released := [] }
  let late := (as.filter (fun a => decide (5 * a.1 < 4 * a.2.2.2))).map (fun a => a.2.1) ++
    (match ws[as.length]? with | some w => [w.2.1] | none => [])
  match late with
  | [] => none
  | k :: ks => some (ks.foldl min k)

/-- Step 15: release feasibility (R149). -/
def step15 (s : State) (p : Nat) : List Fail :=
  (partEngines s p).flatMap (fun n => match lateEntry s p n with
    | some k => failIf true 2 n 0 (k + 1) 0x0F
    | none => [])

/-! ### The verdict -/

/-- The first step that fails, with what it reports. -/
def firstFail : List (Nat × List Fail) → Option (Nat × Fail)
  | [] => none
  | (n, fs) :: rest => match lowestFail fs with
    | some f => some (n, f)
    | none => firstFail rest

/-- Steps 2 to 15 over the enabled image (R174). -/
def checkImage (s : State) (p : Nat) (image : Image) : Option (Nat × Fail) :=
  let im := readImage s p image.handle
  firstFail [(2, step2 im (objBytes s p image.handle)), (3, step3 im image), (4, step4 im (shapeOf s p)), (5, step5 s p im),
    (6, step6 im), (7, step7 im), (8, step8 im), (9, step9 s p im), (10, step10 s p im), (11, step11 s p image.handle im),
    (12, step12 s p im), (13, step13 s p im), (14, step14 s p im), (15, step15 s p)]

/-- Steps 14 and 15 again (R170). -/
def recheckImage (s : State) (p : Nat) (image : Image) : Option (Nat × Fail) :=
  firstFail [(14, step14 s p (readImage s p image.handle)), (15, step15 s p)]

end Sys2Proof.Machine
end

