-- ==== Sys2Proof/Machine/Images.lean ====
section
/-! DEFINITION. Enabling and disabling an image (06_configuration_images.md): PART_CTL, load, check, fill and the repeated
check of R170. -/
namespace Sys2Proof.Machine

/-! ### PART_CTL_ENABLE -/

/-- The event of an accepted enable, in the partition group (R167; log 15). -/
def evEnabled : Nat := 0x0601

/-- The load estimate at an enable: the partition's share of CAP_MAX − 300 W by its cells, in W (R333). -/
def enableLoad (s : State) (p : Nat) : Nat := (capMax s.boot.assembly - 300) * (partEighths s p).length / 8

/-- The partition may accept an enable (R167). -/
def PState.mayEnable : PState → Bool
  | .off | .ready | .refused => true
  | _ => false

/-- A drained job that is to be discarded when the partition next enters READY (R294). -/
def Part.dropDrained (x : Part) (f : Drained → Bool) : Part :=
  { x with drained := x.drained.map (fun d => { d with discard := d.discard || f d }) }

/-- ENABLE = 1 written with an image (R167): the enable is accepted into LOADING, or refused with EN-0x10. -/
def enableImage (s : State) (p : Nat) (image : BitVec 16) : State :=
  if (s.part p).state.mayEnable then
    let s := s.updPart p (fun x =>
      { x.dropDrained (fun d => descImage d.job.desc != image.toNat) with
        ctlImage := image, enable := true, code := 0, lkind := 0, lunit := 0, lsub := 0, lfold := 0, stepNo := 0,
        image := none, restoring := false, recheck := false, disabling := false })
    let s := odSet s 0x1900 0x25 0 (satAdd 64 (od s 0x1900 0x25) 1)
    let s := odSet s (0x2000 + 0x100 * p) 0x10 0 (enableLoad s p)
    logEvent (setPState s p .loading) evEnabled 0 0 1 (some p) 0
  else logEn (s.updPart p (fun x => { x with code := 0x10 })) p 0x10

/-- PART_CTL_ENABLE: a guarded write (R167, R270), discarded while DEV_STATE is not ACCEPTING (R392). -/
def partCtlEnable (src p : Nat) (image : BitVec 16) (s : State) : State :=
  if mayGuard s src p ∧ s.boot.devState = 2 then enableImage s p image else s

def execPartCtlEnable (src p : Nat) (image : BitVec 16) (s : State) : Host.Outcome State Fault Refusal :=
  onSrcPart src p s (onDerived (partCtlEnable src p image))

/-! ### PART_CTL_DISABLE -/

/-- The tier-0 banks of a partition's cells are undefined (R167). -/
def undefTier0 (s : State) (p : Nat) : State :=
  (partCells s p).foldl (fun s c => let (n, s) := s.fresh; s.updCell c (fun x => { x with tier0 := Mem.undef n })) s

/-- ENABLE = 0 written (R167, R294). -/
def disableImage (s : State) (p : Nat) : State :=
  let x := s.part p
  let clear := s.updPart p (fun x => { x.dropDrained (fun _ => true) with enable := false })
  match x.state with
  | .off => s
  | .loading | .checking | .filling => undefTier0 (becomeOff clear p) p
  | .ready | .refused => becomeOff clear p
  | .busy | .draining | .halted => clear.updPart p (fun x => { x with disabling := true })

/-- PART_CTL_DISABLE: a guarded write (R167, R270), discarded while DEV_STATE is not ACCEPTING (R392). -/
def partCtlDisable (src p : Nat) (s : State) : State :=
  if mayGuard s src p ∧ s.boot.devState = 2 then disableImage s p else s

def execPartCtlDisable (src p : Nat) (s : State) : Host.Outcome State Fault Refusal :=
  onSrcPart src p s (onDerived (partCtlDisable src p))

/-! ### Load, check and fill -/

/-- IMAGE_LOAD_DONE: the image's folds, routes and schedules stand in the cells and its entries in the engines, its digest is
computed with IMAGE_DIGEST's own bytes as zeros (R158), and the check begins (R168). -/
def imageLoadDone (p : Nat) (s : State) : State :=
  let x := s.part p
  if x.state = .loading ∧ ¬ partBlocked s p then
    let o := x.ctlImage.toNat
    let n := imageLength s p o
    let bs := objRead s p o 0 n
    let im := parseImage (objRead s p o 0 (max 4096 n))
    let whole := match s.obj p o with | some ob => !poisoned s p (objAddr ob 0) n | none => false
    let image : Image :=
      { handle := o, header := objRead s p o 0 4096,
        digest := Crypto.sha256 (bs.take 32 ++ List.replicate (min 32 (n - 32)) 0 ++ bs.drop 64), whole := whole,
        refs := hRefList im.header }
    setPState ((launchState s p im).updPart p (fun x => { x with image := some image })) p .checking
  else s

def execImageLoadDone (p : Nat) (s : State) : Host.Outcome State Fault Refusal := onPart p s (onDerived (imageLoadDone p))

/-- The check or the fill refuses the image: STEP, the code and the locator stand in PART_STAT, and the refusal is counted
and logged (R166, R167, R174). -/
def refuseImage (s : State) (p step : Nat) (f : Fail) : State :=
  let s := s.updPart p (fun x =>
    { x with code := BitVec.ofNat 8 f.code, lkind := BitVec.ofNat 2 f.kind, lunit := BitVec.ofNat 12 f.unit,
             lsub := BitVec.ofNat 6 (min (f.sub - 1) 63), lfold := BitVec.ofNat 3 (f.fold - 1), stepNo := BitVec.ofNat 5 step,
             image := none, recheck := false, restoring := false })
  logEn (keepVerdict (setPState s p .refused) p) p f.code

/-- CHECK_VERDICT, `micros` µs after the write of ENABLE: a pass enters FILLING, a failure REFUSED (R168, R174, R177). -/
def checkVerdict (p micros : Nat) (s : State) : State :=
  let x := s.part p
  match x.image with
  | some image =>
    if x.state = .checking ∧ x.recheck = false then
      let s := odSet s 0x1900 0x26 0 (max (od s 0x1900 0x26) (min micros (2 ^ 32 - 1)))
      match checkImage s p image with
      | none => keepVerdict (setPState s p .filling) p
      | some (step, f) => refuseImage s p step f
    else s
  | none => s

def execCheckVerdict (p micros : Nat) (s : State) : Host.Outcome State Fault Refusal := onPart p s (onDerived (checkVerdict p micros))

/-- A tier-0 load entry's bytes, none where some of them are poisoned (R165, R168). -/
def loadData (s : State) (p : Nat) (l : BitVec 128) : Option (List Byte) :=
  match s.obj p (leObj l) with
  | some o => if poisoned s p (objAddr o (leOfs l)) (leLen l) then none else some (objRead s p (leObj l) (leOfs l) (leLen l))
  | none => none

/-- The object's bytes that a load entry takes hold the device address. -/
def loadCovers (s : State) (p : Nat) (l : BitVec 128) (addr : Nat) : Bool :=
  match s.obj p (leObj l) with
  | some o => decide (objAddr o (leOfs l) ≤ addr) && decide (addr < objAddr o (leOfs l) + leLen l)
  | none => false

/-- The device address of a load entry's first poisoned plot, or of its first byte. -/
def loadLost (s : State) (p : Nat) (l : BitVec 128) : Nat :=
  match s.obj p (leObj l) with
  | some o =>
    let a := objAddr o (leOfs l)
    ((chunksOf a (leLen l)).findSome? (fun c =>
      let b := c.1 * plotBytes + c.2.1
      if poisoned s p b c.2.2 then some b else none)).getD a
  | none => 0

/-- The tier-0 load list executed, `bad` the device address of an uncorrectable read: the state, and the cell of the first entry
whose data is lost, which is logged with its device address (R165, R168, R175). -/
def fillTier0 (p : Nat) (bad : Option Nat) : List (BitVec 128) → State → State × Option Nat
  | [], s => (s, none)
  | l :: ls, s =>
    let hit := bad.filter (loadCovers s p l)
    match if hit.isSome then none else loadData s p l with
    | some bs => fillTier0 p bad ls (s.updCell (leCell l) (fun x => x.bankWrite (leAddr l) bs))
    | none => (logUncorrectable s p (hit.getD (loadLost s p l)) (leObj l), some (leCell l))

/-- TIER0_FILL_DONE, `micros` µs after the fill began: the launch state is restored next (R168, R171), or the image is
refused with EN-0x18 for data that is poisoned or that the read at `addr` found uncorrectable. -/
def tier0FillDone (p micros addr : Nat) (ecc : EccResult) (s : State) : State :=
  let x := s.part p
  match x.image with
  | some image =>
    if x.state = .filling ∧ x.restoring = false then
      let s := odSet s 0x1900 0x27 0 (max (od s 0x1900 0x27) (min micros (2 ^ 32 - 1)))
      let s := countPlotEcc s p (addr / plotBytes) (addr % plotBytes) ecc
      match fillTier0 p (if ecc = .uncorrectable then some addr else none) (readImage s p image.handle).loads s with
      | (s, none) => startRestore s p
      | (s, some c) => refuseImage s p 16 { kind := 1, unit := c, fold := 0, sub := 0, code := 0x18 }
    else s
  | none => s

def execTier0FillDone (p : Nat) (r : FillRead) (s : State) : Host.Outcome State Fault Refusal :=
  onPart p s (onDerived (tier0FillDone p r.micros r.addr r.ecc))

/-! ### SLUICE_RECHECK -/

/-- SLUICE_RECHECK: steps 14 and 15 are repeated. A refusal enters REFUSED with the code, and discards a drained job (R170,
R293). -/
def sluiceRecheck (p : Nat) (s : State) : State :=
  let x := s.part p
  match x.image with
  | some image =>
    if x.state = .checking ∧ x.recheck then
      match recheckImage s p image with
      | none => setPState (s.updPart p (fun x => { x with recheck := false })) p .ready
      | some (step, f) => refuseImage (finishDrained s p stCancelled (reasonCode .jb 0x09)) p step f
    else s
  | none => s

def execSluiceRecheck (p : Nat) (s : State) : Host.Outcome State Fault Refusal := onPart p s (onDerived (sluiceRecheck p))

end Sys2Proof.Machine
end

