-- ==== Sys2Proof/Machine/Routing.lean ====
section
/-! DEFINITION. Ways through the torus (R305, R306): axis roles, dimension order and the links that serve a way. -/
namespace Sys2Proof.Machine

/-- X, Y, Z (0, 1, 2) of an 18-bit node, and the node of three coordinates (R300). -/
def nodeCoord (n i : Nat) : Nat := n / 64 ^ (2 - i) % 64
def nodeOf (x y z : Nat) : Nat := x * 4096 + y * 64 + z

/-- Nodes along an axis (R327). -/
def ringSize (s : State) (i : Nat) : Nat :=
  let r := odForce s 0x1C00 0x02 0
  max 1 (nbits r (23 - 8 * i) (16 - 8 * i))

/-- The axis and sign (0 positive) on which a frame from node `n` to `dst` goes next; none where it has arrived (R306). -/
def nextAxis (s : State) (n dst : Nat) : Option (Nat × Nat) :=
  (List.range 3).findSome? (fun i =>
    let k := ringSize s i
    let d := (nodeCoord dst i % k + k - nodeCoord n i % k) % k
    if d = 0 then none else some (i, if 2 * d ≤ k then 0 else 1))

/-- The role of a torus link in force (R305). -/
def axisRole (s : State) (l : Nat) : Nat := odForce s 0x1C00 0x03 l

/-- STATE of a link (R328): 0 absent, 1 listening, 2 training, 3 KEYWAIT, 4 up, 5 HALTED, 6 down, 7 self-test. -/
def linkState (s : State) (l : Nat) : Nat := od s (0x3000 + 0x20 * l) 0x01

/-- The link has lanes in this assembly (R298). -/
def linkFitted (s : State) (l : Nat) : Bool := linkLanes s.boot.assembly l != 0

/-- The links of an axis and sign that the assembly has (R305). -/
def axisLinks (s : State) (axis sign : Nat) : List Nat :=
  (List.range 12).filter (fun l => linkFitted s l && axisRole s l == 2 * axis + sign)

/-- The half of a torus link (R298). -/
def linkHalf (l : Nat) : Nat := l / 6

/-- A link is down or absent (R306). -/
def linkDown (s : State) (l : Nat) : Bool := linkState s l == 6 || !linkFitted s l

/-- The way to a node leaves on a link that is down in both halves (R306). -/
def dirDown (s : State) (dst : Nat) : Bool :=
  match nextAxis s (ownNode s) dst with
  | none => false
  | some (a, g) => (axisLinks s a g).all (linkDown s)

/-- The link on which a frame to a node leaves, `half` preferred (R306). -/
def wayOut (s : State) (dst half : Nat) : Option Nat :=
  match nextAxis s (ownNode s) dst with
  | none => none
  | some (a, g) =>
    let ls := (axisLinks s a g).filter (fun l => !linkDown s l)
    match ls.find? (fun l => linkHalf l == half) with
    | some l => some l
    | none => ls.head?

/-- The member after a node in a group's ring (R319). -/
def nextMember (ms : List Nat) (n : Nat) : Nat :=
  match ms.findIdx? (· == n) with
  | some i => nth n ms ((i + 1) % ms.length)
  | none => n

end Sys2Proof.Machine
end

