-- ==== Sys2Proof/Machine/Jobs.lean ====
section
/-! DEFINITION. Submission queues, taking and launching jobs, and their end (10_jobs_and_preemption.md, R225, R229 to R232,
R316, R324). -/
namespace Sys2Proof.Machine

/-! ### Submission queues (R277, R278) -/

/-- A submission queue. -/
def Part.sq (x : Part) (q : Nat) : SubQueue := Assoc.get (fun _ => SubQueue.init) x.queues q

/-- A submission queue changed by a function. -/
def Part.updSq (x : Part) (q : Nat) (f : SubQueue → SubQueue) : Part :=
  { x with queues := Assoc.set (fun _ => SubQueue.init) x.queues q (f (x.sq q)) }

/-- The queue is enabled. -/
def SubQueue.enabled (k : SubQueue) : Bool := bit k.cfg 63

/-- Entries held. -/
def SubQueue.held (k : SubQueue) : Nat := (k.tail + 256 - k.head) % 256

/-- The keepers own the queue: queue 1 while SERVE is set (R234, R277). -/
def keeperQueue (s : State) (p q : Nat) : Bool := serving s p && q == 1

/-- A requester may write descriptors into a queue and ring its doorbell (R277). -/
def ownsQueue (s : State) (src p q : Nat) : Bool :=
  if keeperQueue s p q then decide (src / 0x1000 = 3) && (partKeepers s p).contains (src % 0x1000)
  else queueOwner (s.part p) q == src && isFnId src

/-- The descriptor at a queue's head came from the partition's keepers (R234, R280). -/
def headByKeepers (x : Part) (q : Nat) : Bool := (x.sq q).byKeepers.contains (x.sq q).head

/-- The owner that the record of a queue's head goes to; the keepers take no copy and no interrupt. -/
def recordOwner (s : State) (p q : Nat) : Nat :=
  if headByKeepers (s.part p) q then keeperOwner else queueOwner (s.part p) q

/-- A JB-0x0D or JB-0x0E event, counted (R277, R278, R296). -/
def doorbellError (s : State) (p n : Nat) : State := logReason (odCount s 0x1800 0x11 0 32) .jb n 0 1 (some p) 0

/-- A pre-emption request (R289): refused with JB-0x0B in PREEMPT_STAT, or pending until a freeze. A request that is still
pending is a freeze under way (log 26). -/
def requestPreempt (s : State) (p : Nat) (cheap : Bool) : State :=
  let x := s.part p
  if x.state ≠ .busy ∨ x.drained.isSome ∨ x.preempt.isSome ∨ x.freezing.isSome then
    s.updPart p (fun x => { x with preCode := 0x0B })
  else
    s.updPart p (fun x => { x with preempt := some { cheap := cheap, since := x.fc, expired := false }, preVoid := false,
                                   fellBack := false })

/-- AUTOPRE_REQUEST: a descriptor becomes head of a queue of higher priority than the running job's (R289). -/
def autoPreempt (s : State) (p q : Nat) : State :=
  let x := s.part p
  match x.job with
  | some j =>
    if x.state = .busy ∧ bit (x.sq q).cfg 46 ∧ q < j.queue then requestPreempt s p (bit (x.sq q).cfg 45) else s
  | none => s

/-- SQ_DOORBELL: SQ_TAILq written (R277, R278, R289, R392). -/
def sqDoorbell (src p q tail : Nat) (s : State) : State :=
  let k := (s.part p).sq q
  let more := (tail % 256 + 256 - k.tail) % 256
  if !reachesPart s src p || shapeOf s p == 0 then s
  else if !ownsQueue s src p q then doorbellError s p 0x0E
  else if 255 < k.held + more ∨ ¬ k.enabled ∨ s.boot.devState ≠ 2 then doorbellError s p 0x0D
  else
    let added := if keeperQueue s p q then (List.range more).map (fun i => (k.tail + i) % 256) else []
    let s := s.updPart p (fun x => x.updSq q (fun k => { k with tail := tail % 256, byKeepers := k.byKeepers ++ added }))
    if k.held = 0 ∧ more ≠ 0 then autoPreempt s p q else s

def execSqDoorbell (src p q tail : Nat) (s : State) : Host.Outcome State Fault Refusal :=
  if q < 4 then onSrcPart src p s (onDerived (sqDoorbell src p q tail)) else .refused (.noSuchUnit "queue" q)

/-- The descriptor at the head of a queue. -/
def headDesc (x : Part) (q : Nat) : BitVec 1024 := BitVec.ofNat 1024 (ringNat x (sqOfs q + 128 * (x.sq q).head) 16)

/-- The head of a queue advances (R278). -/
def advanceHead (s : State) (p q : Nat) : State :=
  s.updPart p (fun x => x.updSq q (fun k =>
    { k with head := (k.head + 1) % 256, byKeepers := k.byKeepers.filter (fun i => i != k.head) }))

/-- Every descriptor of a queue not yet taken completes with JB-0x08 (R265, R277, R294). -/
def cancelQueue (s : State) (p q : Nat) (noCopy : Bool) : State :=
  let n := ((s.part p).sq q).held
  let s := (List.range n).foldl (fun s _ =>
    let d := headDesc (s.part p) q
    let owner := recordOwner s p q
    postPlain (advanceHead s p q) p
      { queue := q, desc := d, code := reasonCode .jb 0x08, gt := s.counter.gt, owner := owner, noCopy := noCopy }) s
  s.updPart p (fun x => { x with prepared := x.prepared.filter (fun e => e.1 != q) })

/-- The bits of SQ_CFG that hold a value (R277). -/
def sqCfgMask : Word := 0x87FFE00000000000

/-- SQ_CFG written: clearing EN cancels what is not yet taken, under the owner it had (R277). -/
def setSqCfg (s : State) (p q : Nat) (v : Word) : State :=
  let s := if ((s.part p).sq q).enabled && !bit v 63 then cancelQueue s p q false else s
  s.updPart p (fun x => x.updSq q (fun k => { k with cfg := v &&& sqCfgMask }))

/-- SQ_CFG_WRITE: a guarded write (R270, R277). -/
def execSqCfgWrite (src p q : Nat) (v : Word) (s : State) : Host.Outcome State Fault Refusal :=
  if q < 4 then onSrcPart src p s (onDerived (fun s => if mayGuard s src p then setSqCfg s p q v else s))
  else .refused (.noSuchUnit "queue" q)

/-! ### JOB_TAKE (R280, R281) -/

/-- The queues that hold a descriptor, highest priority first. -/
def headQueues (x : Part) : List Nat := (List.range 4).filter (fun q => (x.sq q).held != 0)

/-- The LAUNCH count of a queue's head is still ahead (R281). -/
def launchAhead (s : State) (p q : Nat) : Bool := decide (s.counter.gt < descLaunch (headDesc (s.part p) q))

/-- The queue whose head has the earliest LAUNCH count of those still ahead (R281; log 27). -/
def awaitedQueue (s : State) (p : Nat) : Option Nat :=
  (sortOn (fun q => descLaunch (headDesc (s.part p) q)) ((headQueues (s.part p)).filter (launchAhead s p))).head?

/-- A queue of higher priority than a drained job's, if one is held (R281). -/
def aboveDrained (x : Part) (q : Nat) : Bool := match x.drained with | some d => decide (q < d.job.queue) | none => true

/-- The queue from which the partition takes its next descriptor (R280, R281). -/
def takeQueue (s : State) (p : Nat) : Option Nat :=
  let x := s.part p
  if x.state = .ready then
    match awaitedQueue s p with
    | some q => if aboveDrained x q then some q else none
    | none => ((headQueues x).filter (aboveDrained x)).head?
  else (headQueues x).head?

/-- The descriptor that would be taken next is the serving loop's, whose record needs no space in the ring (R284). -/
def takesLoop (s : State) (p : Nat) : Bool :=
  serving s p && (match takeQueue s p with | some q => headByKeepers (s.part p) q | none => false)

/-- The partition may take a descriptor (R167, R280, R284, R407). -/
def mayTake (s : State) (p : Nat) : Bool :=
  let x := s.part p
  !bit s.breach 7 && (takesLoop s p || cqSpace x (1 + x.late.length)) && x.prepared.isNone &&
    (match x.state with
     | .off | .refused => true
     | .ready => !x.restoring && !x.recheck && !x.disabling
     | _ => false)

/-- A job is strict (R225, R279). -/
def strictJob (s : State) (p : Nat) (d : BitVec 1024) : Bool := descStrict d || decide (od s 0x1500 0x20 p = 1)

/-- ND_SUMMARY of the enabled image. -/
def ndSummary (x : Part) : Nat := match x.image with | some im => hNd (leNat im.header) | none => 0

/-- The check that a descriptor fails, as a reason code; 0 where it passes all (R280). -/
def takeCode (s : State) (p q : Nat) (d : BitVec 1024) : Nat :=
  let x := s.part p
  if descVer d ≠ 1 ∨ descPart d ≠ p ∨ descDest d = 3 ∨ bits d 156 152 ≠ 0 ∨ bits d 143 0 ≠ 0 then reasonCode .jb 0x01
  else if serving s p ∧ headByKeepers x q = false then reasonCode .jb 0x05
  else if x.state ≠ .ready then reasonCode .jb 0x02
  else if descImage d ≠ x.ctlImage.toNat then reasonCode .jb 0x03
  else if descLaunch d ≠ 0 ∧ descLaunch d < s.counter.gt then reasonCode .jb 0x04
  else if strictJob s p d ∧ ndSummary x ≠ 0 then reasonCode .en 0x0A
  else 0

/-- What EN-0x0A counts, and the CODE that it leaves in PART_STAT (R166, R173, R177, R225). -/
def countStrict (s : State) (p code : Nat) : State :=
  if code = reasonCode .en 0x0A then
    let s := odCount (odCount s 0x1500 0x22 p 32) 0x1900 0x24 0x0A 32
    s.updPart p (fun x => { x with code := 0x0A })
  else s

/-- A descriptor taken from a queue's head and refused (R280). -/
def refuseHead (s : State) (p q code : Nat) : State :=
  let d := headDesc (s.part p) q
  let l : Late := { queue := q, desc := d, code := code, gt := s.counter.gt, owner := recordOwner s p q, noCopy := false }
  postPlain (countStrict ((advanceHead s p q).updPart p (fun x => { x with prepared := none })) p code) p l

/-- JOB_TAKE: the next descriptor is checked; it is refused, or prepared for its launch (R280, R281). -/
def jobTake (p : Nat) (s : State) : State :=
  if mayTake s p then
    match takeQueue s p with
    | some q =>
      let d := headDesc (s.part p) q
      let code := takeCode s p q d
      if code ≠ 0 then refuseHead s p q code else s.updPart p (fun x => { x with prepared := some (q, d) })
    | none => s
  else s

def execJobTake (p : Nat) (s : State) : Host.Outcome State Fault Refusal := onPart p s (onDerived (jobTake p))

/-! ### JOB_LAUNCH (R282, R316, R324) -/

/-- A byte range lies in an object of the partition. -/
def rangeInObj (s : State) (p o ofs n : Nat) : Bool :=
  match s.obj p o with
  | some x => decide (ofs + n ≤ x.nplots * plotBytes)
  | none => false

/-- A group's 256 bytes hold a mark that is neither a member's nor an unused word's (R317). -/
def groupBad (bs : List Byte) : Bool := (List.range 64).any (fun i => decide (1 < leAt bs (4 * i + 3) 1))

/-- A plan entry is malformed, or names something outside the partition or its objects (R317, R324 step 1). -/
def planEntryBad (s : State) (p : Nat) (pl : Plan) (e : BitVec 512) : Bool :=
  let op := peOp e
  let moves := op == opSend || op == opRecv || op == opAllsum || op == opAllgather
  let reads := op == opSend || op == opAllsum || op == opAllgather
  let lands := op == opRecv || op == opAllsum || op == opAllgather
  let group := decide (opAllsum ≤ op)
  op == 0 || decide (opBarrier < op) || bits e 257 0 != 0 ||
    (group && decide (pl.groups.length ≤ peGrp e)) ||
    (op != opRecv && (!syncInPart s p (peTdie e) (peTobj e) || peTcount e == 0)) ||
    (op != opSend && !syncInPart s p (peAdie e) (peAobj e)) ||
    (moves && (peLen e == 0 || decide (2 ^ 35 < peLen e))) ||
    (op == opAllsum && peLen e % 16 != 0) ||
    (reads && (peSofs e % 64 != 0 || !rangeInObj s p (peSobj e) (peSofs e) (peLen e))) ||
    (lands && (peDofs e % 64 != 0 || !rangeInObj s p (peDobj e) (peDofs e) (pl.landing e)))

/-- The plan object named for the partition's next launch (R317). -/
def planObject (s : State) (p : Nat) : Option Nat :=
  if od s 0x1C00 0x10 p = 0xFFFF then none else some (od s 0x1C00 0x10 p)

/-- LK-0x08: the plan is not among the OBJREFS, or is malformed (R324 step 1). -/
def planBad (s : State) (p o : Nat) : Bool :=
  let listed := match (s.part p).image with | some im => im.refs.any (fun r => r.1 == o) | none => false
  match readPlan s p o with
  | some pl =>
    let chans := pl.entries.map peChan
    !listed || chans.eraseDups.length != chans.length || pl.entries.any (planEntryBad s p pl) ||
      (List.range pl.groups.length).any (fun g => groupBad (objRead s p o (64 + 256 * g) 256))
  | none => true

/-- LK-0x09: the own node is missing from a group that an entry uses, or the way to a peer or to the next group member leaves
on a link that is down in both halves (R324 step 3; log 28). -/
def planUnroutable (s : State) (pl : Plan) : Bool :=
  pl.entries.any (fun e =>
    let op := peOp e
    if op = opSend ∨ op = opRecv then dirDown s (pePeer e)
    else
      !(pl.members e).contains (ownNode s) || (op != opBarrier && dirDown s (nextMember (pl.members e) (ownNode s))))

/-- The code with which the torus checks refuse a launch, 0 where they pass (R316, R324). -/
def torusCode (s : State) (p : Nat) : Nat :=
  match planObject s p with
  | none => 0
  | some o =>
    if planBad s p o then reasonCode .lk 0x08
    else if od s 0x1C00 0x20 ≠ 2 ∧ od s 0x1C00 0x20 ≠ 3 then reasonCode .lk 0x0A
    else match readPlan s p o with
      | some pl => if planUnroutable s pl then reasonCode .lk 0x09 else 0
      | none => 0

/-- The 35-byte entry of a reference in the weights digest (R229). -/
def weightEntry (s : State) (p o : Nat) : List Byte :=
  match s.obj p o with
  | some x => leBytes 2 o ++ (if x.rvalid then 1 :: fit 32 x.root else List.replicate 33 0)
  | none => leBytes 2 o ++ List.replicate 33 0

/-- The weights digest W of the enabled image's references (R229). -/
def weightsDigest (s : State) (p : Nat) (im : Image) : List Byte :=
  Crypto.sha256 (im.refs.flatMap (fun r => weightEntry s p r.1))

/-- References whose object carries no root (R229). -/
def unrooted (s : State) (p : Nat) (im : Image) : Nat :=
  (im.refs.filter (fun r => match s.obj p r.1 with | some x => !x.rvalid | none => true)).length

/-- The provenance digest P (R230). -/
def provenance (im : Image) (w : List Byte) (d : BitVec 1024) : List Byte :=
  Crypto.sha256 (ascii "CDLPROV1" ++ hDigest (leNat im.header) ++ w ++ descInput d ++ leBytes 8 (descStep d) ++
    Crypto.sha256 (descSeed d))

/-- The job that a descriptor becomes when it launches (R229 to R232, R282, R285, R317, R342). -/
def newJob (s : State) (p q : Nat) (d : BitVec 1024) (im : Image) : Job :=
  let w := weightsDigest s p im
  { desc := d, queue := q, owner := recordOwner s p q, noCopy := false, weights := w, prov := provenance im w d,
    startGt := s.counter.gt, preempts := 0, ndops := 0, held := 0, energy0 := partEnergy s p, plan := planObject s p,
    loop := headByKeepers (s.part p) q }

/-- W, P and the unrooted references of the partition's last launch, and the launches and serving steps counted (R229, R232,
R262, R297). -/
def noteLaunch (s : State) (p : Nat) (j : Job) (im : Image) : State :=
  let s := odSet s 0x1500 0x10 p (leNat j.weights)
  let s := odSet s 0x1500 0x11 p (leNat j.prov)
  let s := odSet s 0x1500 0x12 p (min (unrooted s p im) 65535)
  let s := if j.loop then odSet s 0x1A00 0x10 p (satAdd 64 (od s 0x1A00 0x10 p) 1) else s
  odSet s (0x2000 + 0x100 * p) 0x06 0 (satAdd 64 (od s (0x2000 + 0x100 * p) 0x06) 1)

/-- A prepared descriptor launches: its first fabric cycle is delivered, its written-page maps are clear, and a drained job
has been overtaken (R282, R288, R291, R293, R334). -/
def launchJob (s : State) (p q : Nat) (d : BitVec 1024) (im : Image) : State :=
  let j := newJob s p q d im
  let s := advanceHead (noteLaunch s p j im) p q
  let s := (partListed s p).foldl (fun s c => s.updCell c (fun x => { x with pages := 0 })) s
  let s := s.updPart p (fun x =>
    { x with job := some j, fc := 0, first := true, flits := [], syncOps := [], hold := none, transfers := [], fault := none,
             preempt := none, drained := x.drained.map (fun d => { d with overtaken := true }) })
  setPState (spillAdjust s p false) p .busy

/-- JOB_LAUNCH: at the first pace step at or after its LAUNCH count the prepared descriptor launches, once no commit is due,
no block it needs is in reset (R393) and the launch state is restored; it is refused where it could not launch by then, where
FORCE_STRICT has made it strict since it was taken, or by the torus checks (R191, R225, R280, R282, R324). -/
def jobLaunch (p : Nat) (s : State) : State :=
  let x := s.part p
  match x.prepared, x.image with
  | some (q, d), some im =>
    if x.state = .ready ∧ x.restoring = false ∧ x.recheck = false ∧ clocksRun s ∧ s.clocks.edge = 0 ∧ descLaunch d ≤ s.counter.gt ∧
        ¬ partBlocked s p ∧ ¬ ((planObject s p).isSome ∧ blockHeld s p [4]) then
      if descLaunch d ≠ 0 ∧ descLaunch d + 1 < s.counter.gt then refuseHead s p q (reasonCode .jb 0x04)
      else if commitDue s p then s
      else if strictJob s p d ∧ ndSummary x ≠ 0 then refuseHead s p q (reasonCode .en 0x0A)
      else if torusCode s p ≠ 0 then refuseHead s p q (torusCode s p)
      else launchJob s p q d im
    else s
  | _, _ => s

def execJobLaunch (p : Nat) (s : State) : Host.Outcome State Fault Refusal := onPart p s (jobLaunch p)

/-! ### The end of a job (R283, R286) -/

/-- A chain member has begun and is not complete, or still reads its own flits (R283). -/
def Member.inFlight (m : Member) : Bool :=
  decide (0 < m.kept + m.passed) || (decide (m.src ≠ 3) && decide (m.read < m.keep + m.rest))

/-- The fc from which a cell's matrix unit and its other units are free. -/
def Cell.unitsFree (x : Cell) : Nat := max (max x.matrix.wPortFree x.matrix.convFree) (max x.matrix.manchFree x.matrix.mmulFrom)

/-- A cell is quiescent once its units are free (R283): a complete set of operands has still to fire, and so has a current
fold with an empty operand mask, from the first fc of its dwell on (R38; log 29). -/
def Cell.quiescent (x : Cell) : Bool :=
  x.firing.isNone && !(x.emptyMask && x.switching.isNone && !x.sched.isEmpty) && x.folds.all (fun f => f.2.susp.isNone) && x.queues.all (·.isEmpty) &&
    x.slots.all (fun e => e.2.complete.isNone) && x.outbox.isEmpty && x.loopback.isEmpty && x.inbox.isEmpty &&
    x.landings.isEmpty && x.flows.isEmpty && x.streams.isEmpty && x.matrix.ops.isEmpty && x.matrix.conv.isEmpty &&
    x.vector.load.isNone && x.vector.run.isNone && !x.genBusy &&
    (match x.chain with | some m => !m.inFlight | none => true)

/-- An engine has released its last word, and every egress write has reached its tier (R283). -/
def Engine.quiescent (x : Engine) : Bool := x.nextRelease.isNone && x.inbox.isEmpty && x.outfall.isEmpty

/-- The partition is quiescent once its units are free. -/
def quiescent (s : State) (p : Nat) : Bool :=
  (s.part p).flits.isEmpty && (partListed s p).all (fun c => (s.cell c).quiescent) &&
    (partEngines s p).all (fun e => (s.engine e).quiescent)

/-- The first fc at which a partition whose work is done is quiescent: its units are free in the next. -/
def quiescentAt (s : State) (p : Nat) : Nat :=
  (partListed s p).foldl (fun t c => max t ((s.cell c).unitsFree - 1)) (s.part p).fc

/-- The lowest cell, fold and tag of a slot that holds a partial set of operands. -/
def strandedSlot (s : State) (p : Nat) : Option (Nat × Slot) :=
  (partListed s p).findSome? (fun c => ((s.cell c).slots.head?).map (fun e => (c, e.2)))

/-- No egress byte waits in an outfall buffer of the partition (R283). -/
def outfallEmpty (s : State) (p : Nat) : Bool := (partEngines s p).all (fun e => (s.engine e).outfall.isEmpty)

/-- The partition after its job has ended normally: READY, and the launch-state restore runs (R283). -/
def backToReady (s : State) (p : Nat) : State :=
  let s := becomeReady s p
  if (s.part p).state = .off then s else startRestore s p

/-- The job of a fault ends: its record, then HALTED (R286). -/
def endFaulted (s : State) (p : Nat) (f : FaultRec) : State :=
  let s := finishJob s p (if f.stop then stStop else stAbort) f.code.toNat f.notify
  setPState (s.updPart p (fun x => { x with stopped := f.stop })) p .halted

/-- JOB_END: the partition is quiescent and its job has ended, or is stranded; or a fault has ended it. The record is written
once every egress byte is in its tier (R59, R283, R286). -/
def jobEnd (p : Nat) (s : State) : State :=
  let x := s.part p
  match x.job, x.fault with
  | some _, some f => if outfallEmpty s p then endFaulted s p f else s
  | some _, none =>
    if jobRuns x ∧ x.hold.isNone ∧ quiescent s p then
      atFc s p (quiescentAt s p) (fun s =>
        match strandedSlot s p with
        | some (c, sl) =>
          let s := abortJob s p .jb 0x07 (fabricDetail (s.part p).fc false c sl.fold sl.tag.toNat) false true
          (match (s.part p).fault with
           | some f => endFaulted s p f
           | none => s)
        | none => backToReady (finishJob s p stSuccess 0 false) p)
    else s
  | none, _ => s

def execJobEnd (p : Nat) (s : State) : Host.Outcome State Fault Refusal := onPart p s (onDerived (jobEnd p))

/-- FC_LIMIT_REACHED: the fabric-cycle count reaches FCLIMIT, and the job aborts in that fc (R283; log 14). -/
def fcLimitReached (p : Nat) (s : State) : State :=
  match (s.part p).job with
  | some j =>
    if descLimit j.desc ≠ 0 then
      atFc s p (descLimit j.desc - 1) (fun s =>
        if (s.part p).fc = descLimit j.desc - 1 then
          abortJob s p .jb 0x06 (fabricDetail (s.part p).fc false 0 0 0) false true
        else s)
    else s
  | none => s

def execFcLimitReached (p : Nat) (s : State) : Host.Outcome State Fault Refusal := onPart p s (fcLimitReached p)

/-- LAUNCH_STATE_RESTORE_DONE: the launch state stands. The partition enters READY from FILLING, from DRAINING, and from HALTED
after a stop-acknowledge (R168, R171, R286, R288). -/
def restoreDone (p : Nat) (s : State) : State :=
  let x := s.part p
  match x.restoring, x.image with
  | true, some im =>
    let s := launchState s p (readImage s p im.handle)
    let s := s.updPart p (fun x => { x with restoring := false })
    (match x.state with
     | .filling | .draining | .halted => becomeReady s p
     | _ => s)
  | _, _ => s

def execLaunchStateRestoreDone (p : Nat) (s : State) : Host.Outcome State Fault Refusal := onPart p s (onDerived (restoreDone p))

/-! ### STOP_ACK (R286) -/

/-- The event of a stop-acknowledge that is discarded (R286). -/
def evStopAck : Nat := 0x0901

/-- A stop-acknowledge of 1: after a task abort the launch state is restored and READY follows, or a pending ENABLE = 0 takes
effect; otherwise it is discarded and logged with the writer's owner id (R167, R286). -/
def stopAcknowledge (s : State) (p src : Nat) : State :=
  let x := s.part p
  if x.state = .halted ∧ x.stopped = false then
    if x.restoring then s else if x.disabling then becomeOff s p else startRestore s p
  else logEvent s evStopAck 0 0 1 (some p) src

end Sys2Proof.Machine
end

