-- ==== Sys2Proof/Machine/Prefix.lean ====
section
/-! DEFINITION. The prefix engine (R247 to R252): block hashes, the prefix table and its commands. -/
namespace Sys2Proof.Machine

/-! ### The command (R249) -/

def pcOp (c : BitVec 512) : Nat := bits c 511 504
def pcLease (c : BitVec 512) : Bool := bit c 503
def pcObj (c : BitVec 512) : Nat := bits c 495 480
def pcFirst (c : BitVec 512) : Nat := bits c 479 466
def pcBlocks (c : BitVec 512) : Nat := bits c 465 452 + 1
def pcPrev (c : BitVec 512) : Nat := bits c 451 388
def pcRobj (c : BitVec 512) : Nat := bits c 387 372
def pcRofs (c : BitVec 512) : Nat := bits c 371 328
def pcCtx (c : BitVec 512) : Nat := bits c 63 0

/-- The OP or another field is reserved (R249). -/
def pcBad (c : BitVec 512) : Bool :=
  pcOp c == 0 || decide (5 < pcOp c) || bits c 502 496 != 0 || bits c 327 64 != 0 || pcRofs c % 32 != 0

/-- A completion in the form of R194, with the command's own OP, to the keepers (R249). -/
def pcComplete (s : State) (p : Nat) (c : BitVec 512) (status count : Nat) : State :=
  let w := BitVec.ofNat 128 (pcCtx c * 2 ^ 64 + status * 2 ^ 56 + pcOp c * 2 ^ 48 + pcObj c * 2 ^ 32 + count % 2 ^ 32)
  s.updPart p (fun x => { x with pfxDone := x.pfxDone ++ [w] })

/-! ### The table (R248) -/

/-- The prefix table of a partition, where it is as R248 requires. -/
def prefixTable (s : State) (p : Nat) : Option Nat :=
  let o := od s 0x1A20 0x01 p
  match s.obj p o with
  | some x => if o ≠ 0xFFFF ∧ x.nplots = 16 ∧ x.home = 1 ∧ x.pin ∧ x.expiring = false then some o else none
  | none => none

/-- An entry's fields. -/
def pfHash (e : Nat) : Nat := nbits e 255 192
def pfObj (e : Nat) : Nat := nbits e 191 176
def pfBlock (e : Nat) : Nat := nbits e 175 162
def pfValid (e : Nat) : Bool := e.testBit 161

/-- An entry of the table, by its number. -/
def prefixEntry (s : State) (p t i : Nat) : Nat := leNat (objRead s p t (32 * i) 32)

/-- An entry written. -/
def setPrefixEntry (s : State) (p t i e : Nat) : State := objWrite s p t (32 * i) (leBytes 32 e)

/-- The entries of the set of a hash. -/
def prefixSet (h : Nat) : List Nat := range (8 * (h % 2 ^ 17)) 8

/-- The entry that holds a hash. -/
def prefixFind (s : State) (p t h : Nat) : Option Nat :=
  (prefixSet h).find? (fun i => let e := prefixEntry s p t i; pfValid e && pfHash e == h)

/-! ### Hashes (R247) -/

/-- The tokens of a block of a conversation object, as bytes (R246). -/
def blockTokens (s : State) (p o b : Nat) : List Byte := objRead s p o (256 * b) 256

/-- The hash of a block after the hash, or namespace, `prev`, as a number. -/
def blockHash (prev : Nat) (tokens : List Byte) : Nat := leNat ((Crypto.sha256 (leBytes 8 prev ++ tokens)).take 8)

/-- The hashes of `n` blocks from block `b` on. -/
def blockHashes (s : State) (p o : Nat) : Nat → Nat → Nat → List Nat
  | 0, _, _ => []
  | n + 1, b, prev =>
    let h := blockHash prev (blockTokens s p o b)
    h :: blockHashes s p o n (b + 1) h

/-! ### LOOKUP (R250, R251) -/

/-- What a lookup has found so far: the entries matched, the objects it leases, and its stop reason. -/
structure Found where
  state   : State
  entries : List Nat
  leased  : List Nat
  stop    : Nat

/-- Bytes of an object lie in a plot whose current copy is the polder. -/
def inPolder (s : State) (p o ofs n : Nat) : Bool :=
  match s.obj p o with
  | some x => (chunksOf (objAddr x ofs) n).any (fun c => match s.plot p c.1 with | some y => y.cur == 2 | none => false)
  | none => false

/-- One lease more or less on an object (R251). -/
def addLease (s : State) (p o : Nat) : State :=
  match s.obj p o with
  | some x => s.setObj p o { x with leases := x.leases + 1 }
  | none => s
def dropLease (s : State) (p o : Nat) : State :=
  match s.obj p o with
  | some x => s.setObj p o { x with leases := x.leases - 1 }
  | none => s

/-- The lease that a match of object `m` takes for a lookup of object `o`: none needed, taken, or beyond the limit. -/
def matchLease (f : Found) (p o m : Nat) (lease : Bool) : Option Found :=
  if !lease || m == o || f.leased.contains m then some f
  else if 65535 ≤ (match f.state.obj p m with | some x => x.leases | none => 0) then none
  else some { f with state := addLease f.state p m, leased := f.leased ++ [m] }

/-- Successive blocks of an object matched in the table. -/
def lookupBlocks (p t o : Nat) (lease : Bool) : Nat → Nat → Nat → Found → Found
  | 0, _, _, f => f
  | n + 1, b, prev, f =>
    let tokens := blockTokens f.state p o b
    let h := blockHash prev tokens
    match prefixFind f.state p t h with
    | none => f
    | some i =>
      let e := prefixEntry f.state p t i
      if inPolder f.state p (pfObj e) (256 * pfBlock e) 256 then { f with stop := 2 }
      else if blockTokens f.state p (pfObj e) (pfBlock e) ≠ tokens then
        { f with state := odCount f.state 0x1A20 0x03 p 32, stop := 1 }
      else match matchLease f p o (pfObj e) lease with
        | none => { f with stop := 3 }
        | some f => lookupBlocks p t o lease n (b + 1) h { f with entries := f.entries ++ [e] }

/-- A lookup and the blocks it matched, counted (R250, R262). -/
def prefixLookup (s : State) (p t o first n prev : Nat) (lease : Bool) : Found :=
  let f := lookupBlocks p t o lease n first prev { state := s, entries := [], leased := [], stop := 0 }
  { f with state := odSet f.state 0x1A20 0x02 p (satAdd 64 (od f.state 0x1A20 0x02 p) f.entries.length) }

/-! ### INSERT and INVAL (R250) -/

/-- Blocks entered from block `b` on: the state, the blocks inserted, and the SV code of a stop. -/
def insertBlocks (p t o : Nat) : Nat → Nat → Nat → Nat → State → State × Nat × Nat
  | 0, _, _, done, s => (s, done, 0)
  | n + 1, b, prev, done, s =>
    let tokens := blockTokens s p o b
    let h := blockHash prev tokens
    match prefixFind s p t h with
    | some i =>
      let e := prefixEntry s p t i
      if blockTokens s p (pfObj e) (pfBlock e) = tokens then insertBlocks p t o n (b + 1) h (done + 1) s else (s, done, 0x04)
    | none =>
      match (prefixSet h).find? (fun i => !pfValid (prefixEntry s p t i)) with
      | none => (s, done, 0x03)
      | some i =>
        insertBlocks p t o n (b + 1) h (done + 1)
          (setPrefixEntry s p t i (h * 2 ^ 192 + o * 2 ^ 176 + b % 2 ^ 14 * 2 ^ 162 + 2 ^ 161))

/-- An insertion, a stop counted (R262). -/
def prefixInsert (s : State) (p t o first n prev : Nat) : State × Nat × Nat :=
  let r := insertBlocks p t o n first prev 0 s
  if r.2.2 = 0 then r else (odCount r.1 0x1A20 0x04 p 32, r.2)

/-- Every entry that names an object cleared: the state and the entries cleared. -/
def prefixInval (s : State) (p o : Nat) : State × Nat :=
  match prefixTable s p with
  | none => (s, 0)
  | some t =>
    (List.range (2 ^ 20)).foldl (fun (a : State × Nat) i =>
      let e := prefixEntry a.1 p t i
      if pfValid e && pfObj e == o then (setPrefixEntry a.1 p t i 0, a.2 + 1) else a) (s, 0)

/-! ### The commands (R250) -/

/-- The object is live and expiring (R198). -/
def objExpiring (s : State) (p o : Nat) : Bool := match s.obj p o with | some x => x.expiring | none => false

/-- A prefix command names an expiring object: OBJ, or the ROBJ that receives the results of a HASH or LOOKUP (R249, R255). -/
def namesExpiring (s : State) (p : Nat) (c : BitVec 512) : Bool :=
  objExpiring s p (pcObj c) || ((pcOp c == 1 || pcOp c == 2) && objExpiring s p (pcRobj c))

/-- A prefix command: malformed (SV-0x0D), without a prefix table (SV-0x05), naming an expiring object (SV-0x07, which a RELEASE
survives; log 33), or carried out. A word that spells another command is none of this one's. -/
def prefixCommand (op p : Nat) (c : BitVec 512) (run : State → Nat → State × Nat × Nat) (s : State) : State :=
  let expiring := namesExpiring s p c
  if pcBad c then pcComplete s p c 0x0D 0
  else if pcOp c ≠ op then s
  else match prefixTable s p with
    | none => pcComplete s p c 0x05 0
    | some t =>
      if expiring && op != 5 then pcComplete s p c 0x07 0
      else
        let r := run s t
        pcComplete r.1 p c (if expiring then 0x07 else r.2.1) r.2.2

/-- PREFIX_HASH. -/
def execPrefixHash (p : Nat) (c : BitVec 512) (s : State) : Host.Outcome State Fault Refusal :=
  onPart p s (onDerived <| prefixCommand 1 p c (fun s _ =>
    let hs := blockHashes s p (pcObj c) (pcBlocks c) (pcFirst c) (pcPrev c)
    (objWrite s p (pcRobj c) (pcRofs c) (hs.flatMap (leBytes 8)), 0, pcBlocks c)))

/-- PREFIX_LOOKUP. -/
def execPrefixLookup (p : Nat) (c : BitVec 512) (s : State) : Host.Outcome State Fault Refusal :=
  onPart p s (onDerived <| prefixCommand 2 p c (fun s t =>
    let f := prefixLookup s p t (pcObj c) (pcFirst c) (pcBlocks c) (pcPrev c) (pcLease c)
    (objWrite f.state p (pcRobj c) (pcRofs c) (f.entries.flatMap (leBytes 32)), 0, f.stop * 2 ^ 30 + f.entries.length)))

/-- PREFIX_INSERT. -/
def execPrefixInsert (p : Nat) (c : BitVec 512) (s : State) : Host.Outcome State Fault Refusal :=
  onPart p s (onDerived <| prefixCommand 3 p c (fun s t =>
    let r := prefixInsert s p t (pcObj c) (pcFirst c) (pcBlocks c) (pcPrev c)
    (r.1, r.2.2, r.2.1)))

/-- PREFIX_INVAL. -/
def execPrefixInval (p : Nat) (c : BitVec 512) (s : State) : Host.Outcome State Fault Refusal :=
  onPart p s (onDerived <| prefixCommand 4 p c (fun s _ => let r := prefixInval s p (pcObj c); (r.1, 0, r.2)))

/-- PREFIX_RELEASE (R251). -/
def execPrefixRelease (p : Nat) (c : BitVec 512) (s : State) : Host.Outcome State Fault Refusal :=
  onPart p s (onDerived <| prefixCommand 5 p c (fun s _ => (dropLease s p (pcObj c), 0, 1)))

end Sys2Proof.Machine
end

