-- ==== Sys2Proof/Machine/Serving.lean ====
section
/-! DEFINITION. The serving loop that the keepers run (R234 to R246, R253 to R259): requests, budgets, steps, results, parking
and expiry. -/
namespace Sys2Proof.Machine

/-! ### Requests and completions (R235 to R237) -/

def srOp (c : BitVec 512) : Nat := bits c 511 504
def srReq (c : BitVec 512) : Nat := bits c 503 480
def srCust (c : BitVec 512) : Nat := bits c 479 468
def srFlags (c : BitVec 512) : BitVec 3 := BitVec.ofNat 3 (bits c 467 465)
def srKobj (c : BitVec 512) : Nat := bits c 463 448
def srNtok (c : BitVec 512) : Nat := bits c 447 428
def srMaxNew (c : BitVec 512) : Nat := bits c 427 408
def srTtl (c : BitVec 512) : Nat := bits c 407 376
def srNs (c : BitVec 512) : Nat := bits c 375 312
def srCtx (c : BitVec 512) : Nat := bits c 63 0

/-- A reserved field is set, or a PARK gives no TTL (R235). -/
def srBad (c : BitVec 512) : Bool := bit c 464 || bits c 311 64 != 0 || (srOp c == 3 && srTtl c == 0)

/-- NOPFX, NOINS and PROGRESS of a request. -/
def Request.noPrefix (r : Request) : Bool := bit r.flags 2
def Request.noInsert (r : Request) : Bool := bit r.flags 1
def Request.progress (r : Request) : Bool := bit r.flags 0

/-- EVENT codes (R237). -/
def evEnded : Nat := 1
def evParked : Nat := 2
def evResumed : Nat := 3
def evCancelled : Nat := 4
def evProgress : Nat := 5
def evRefused : Nat := 6

/-- The loop's part of a partition changed. -/
def updServing (s : State) (p : Nat) (f : Serving → Serving) : State := s.updPart p (fun x => { x with serving := f x.serving })

/-- A live request (R236). -/
def liveReq (s : State) (p r : Nat) : Option Request := (s.part p).serving.requests.find? r

/-- A live request changed. -/
def updReq (s : State) (p r : Nat) (f : Request → Request) : State :=
  match liveReq s p r with
  | some x => updServing s p (fun v => { v with requests := v.requests.insert r (f x) })
  | none => s

/-- Completions that wait are written while their ring has space, each with its interrupt (R237, R267, R268). -/
def flushPosts : Nat → Nat → State → State
  | 0, _, s => s
  | n + 1, p, s =>
    let x := s.part p
    match x.serving.posts with
    | [] => s
    | w :: ws =>
      if ringFull x.sc 1024 then s
      else
        let s := updServing s p (fun v => { v with posts := ws })
        let s := s.updPart p (fun x =>
          { setRingNat x (scOfs + 16 * x.sc.tail) w.toNat 2 with
            sc := { x.sc with tail := (x.sc.tail + 1) % 1024, total := x.sc.total + 1 } })
        flushPosts n p (raisePart s p 2)

/-- A serving completion posted (R237); one that finds the ring full waits (log 34). -/
def svPost (s : State) (p ctx status event req pos : Nat) : State :=
  let w := BitVec.ofNat 128 (ctx * 2 ^ 64 + status % 256 * 2 ^ 56 + event * 2 ^ 48 + req * 2 ^ 24 + pos % 2 ^ 20 * 2 ^ 4)
  let s := updServing s p (fun v => { v with posts := v.posts ++ [w] })
  flushPosts (s.part p).serving.posts.length p s

/-- A request refused or ended with an SV code is counted (R262). -/
def countSv (s : State) (p : Nat) : State := odCount s 0x1A00 0x11 p 32

/-- Conversations parked now (R262). -/
def notParked (s : State) (p : Nat) (r : Request) : State :=
  if 2 ≤ r.parking then odSet s 0x1A40 0x01 p (od s 0x1A40 0x01 p - 1) else s

/-- A live request ends: its completion with a CTX, its leases released, its entry of a step in progress void (R236, R251). -/
def endReqCtx (s : State) (p req event status ctx : Nat) (sv : Bool) : State :=
  match liveReq s p req with
  | none => s
  | some r =>
    let s := svPost s p ctx status event req r.pos
    let s := r.leases.foldl (fun s o => dropLease s p o) (notParked s p r)
    let s := updServing s p (fun v => { v with
      requests := v.requests.erase req,
      step := v.step.map (fun k => { k with entries := k.entries.map (fun e =>
        if e.req = req then { e with cancelled := true } else e) }) })
    if sv then countSv s p else s

/-- A live request ends other than by a CANCEL: the completion carries the CTX of its START (R235). -/
def endReq (s : State) (p req event status : Nat) (sv : Bool) : State :=
  match liveReq s p req with
  | none => s
  | some r => endReqCtx s p req event status r.ctx.toNat sv

/-! ### The request ring (R236) -/

/-- SR_DOORBELL's head of the ring. -/
def srHead (x : Part) : Option (BitVec 512) :=
  if x.sr.head = x.sr.tail then none else some (BitVec.ofNat 512 (ringNat x (srOfs + 64 * x.sr.head) 8))

/-- The keepers take requests: SERVE is set, and DEV_STATE is ACCEPTING (R234, R392). -/
def srMayTake (s : State) (p : Nat) : Bool := serving s p && decide (s.boot.devState = 2) && decide (shapeOf s p ≠ 0)

/-- The head is taken. -/
def srAdvance (s : State) (p : Nat) : State :=
  s.updPart p (fun x => { x with sr := { x.sr with head := (x.sr.head + 1) % 1024 } })

/-- A request refused (R236, R261). -/
def srRefuse (s : State) (p : Nat) (c : BitVec 512) (code : Nat) : State :=
  countSv (svPost s p (srCtx c) code evRefused (srReq c) (match liveReq s p (srReq c) with | some r => r.pos | none => 0)) p

/-- Requests at the head with a reserved OP are taken and refused with SV-0x0D (R235). -/
def srSkip : Nat → Nat → State → State
  | 0, _, s => s
  | n + 1, p, s =>
    match srHead (s.part p) with
    | some c =>
      if srMayTake s p ∧ (srOp c = 0 ∨ 6 < srOp c) then srSkip n p (srRefuse (srAdvance s p) p c 0x0D) else s
    | none => s

/-- The request at the head taken where its OP is `op`. -/
def srTake (op p : Nat) (run : State → BitVec 512 → State) (s : State) : State :=
  match srHead (s.part p) with
  | some c =>
    if srOp c = op ∧ srMayTake s p then
      let s := srAdvance s p
      srSkip 1024 p (if srBad c then srRefuse s p c 0x0D else run s c)
    else s
  | none => s

/-- A request on a live REQ, or SV-0x0D (R236). -/
def onLive (p : Nat) (f : State → BitVec 512 → Request → State) (s : State) (c : BitVec 512) : State :=
  match liveReq s p (srReq c) with
  | some r => f s c r
  | none => srRefuse s p c 0x0D

/-- SR_DOORBELL: SR_TAIL written (R236). -/
def srDoorbell (src p tail : Nat) (s : State) : State :=
  if reachesPart s src p ∧ shapeOf s p ≠ 0 then
    srSkip 1024 p (s.updPart p (fun x =>
      { x with sr := { x.sr with tail := tail % 1024, total := x.sr.total + (tail % 1024 + 1024 - x.sr.tail) % 1024 } }))
  else s

def execSrDoorbell (src p tail : Nat) (s : State) : Host.Outcome State Fault Refusal := onSrcPart src p s (onDerived (srDoorbell src p tail))

/-- Full blocks of a prompt that a lookup may match: at least one position is left to compute (log 35). -/
def promptBlocks (ntok : Nat) : Nat := (ntok - 1) / 64

/-- START: the request is live; its prompt's blocks are looked up and leased unless NOPFX (R236, R250, R251). One whose
conversation is expiring ends at once with SV-0x07 (R255). -/
def startReq (p : Nat) (s : State) (c : BitVec 512) : State :=
  let req := srReq c
  if (liveReq s p req).isSome then srRefuse s p c 0x0B
  else
    let found : State × List Nat × List Nat :=
      match prefixTable s p with
      | some t =>
        if bit (srFlags c) 2 || promptBlocks (srNtok c) == 0 || objExpiring s p (srKobj c) then (s, [], [])
        else
          let f := prefixLookup s p t (srKobj c) 0 (promptBlocks (srNtok c)) (srNs c) true
          (f.state, f.entries, f.leased)
      | none => (s, [], [])
    let matched := found.2.1.map (fun e => (pfObj e, pfBlock e))
    let r : Request :=
      { cust := srCust c, kobj := srKobj c, ns := BitVec.ofNat 64 (srNs c), flags := srFlags c, ctx := BitVec.ofNat 64 (srCtx c),
        prompt := srNtok c, pos := 64 * matched.length, left := if srMaxNew c = 0 then none else some (srMaxNew c),
        parking := 0, turns := [], append := 0, tree := false, matched := matched, leases := found.2.2,
        order := (s.part p).serving.order, inserted := matched.length, inStep := false, status := 0,
        resumeCtx := 0, treeCtx := 0 }
    let s' := updServing found.1 p (fun v => { v with requests := v.requests.insert req r, order := v.order + 1 })
    if objExpiring s p (srKobj c) then endReq s' p req evEnded 0x07 true else s'

def execStart (p : Nat) (s : State) : Host.Outcome State Fault Refusal := onPart p s (onDerived (srTake 1 p (startReq p)))

/-- APPEND: tokens that the next admission adds (R236). -/
def execAppend (p : Nat) (s : State) : Host.Outcome State Fault Refusal :=
  onPart p s (onDerived <| srTake 2 p (onLive p (fun s c _ =>
    updReq s p (srReq c) (fun r => { r with append := r.append + srNtok c }))))

/-- TREE: the draft tree applies to the next step that admits the request (R259). -/
def execTree (p : Nat) (s : State) : Host.Outcome State Fault Refusal :=
  onPart p s (onDerived <| srTake 6 p (onLive p (fun s c _ =>
    updReq s p (srReq c) (fun r => { r with tree := true, treeCtx := BitVec.ofNat 64 (srCtx c) }))))

/-- CANCEL: its completion carries its own CTX (R235, R236). -/
def execCancel (p : Nat) (s : State) : Host.Outcome State Fault Refusal :=
  onPart p s (onDerived <| srTake 5 p (onLive p (fun s c _ => endReqCtx s p (srReq c) evCancelled 0 (srCtx c) false)))

/-! ### Parking (R253, R254) -/

/-- A memory command word of the keepers (log 36). -/
def keeperCmd (op obj ctx place tier ttl count : Nat) : BitVec 512 :=
  BitVec.ofNat 512 (op * 2 ^ 504 + obj * 2 ^ 480 + count * 2 ^ 400 + place * 2 ^ 392 + tier * 2 ^ 390 + ttl * 2 ^ 352 + ctx)

/-- The CTX of the keepers' commands for a request's park or resume (log 36). -/
def Request.keeperCtx (r : Request) (resume : Bool) : Nat := (2 * r.order + ofBool resume) % 2 ^ 64

/-- A command of the keepers with an OP and a CTX is in progress, in the memory command ring, or waits to enter it. -/
def keeperBusy (s : State) (p op ctx : Nat) : Bool :=
  let x := s.part p
  let is := fun (c : BitVec 512) => mcOp c == op && mcCtx c == ctx
  x.mcRuns.any (fun r => mcKeeper r.cmd && is r.cmd) || x.serving.cmds.any is ||
    x.mcKeepers.any (fun i => is (BitVec.ofNat 512 (ringNat x (mcOfs + 64 * i) 8)))

/-- The PLACE that the keepers issue with a HOME, an ALLOW and a TTL, the other placement bits as stored. -/
def placeWord (s : State) (p : Nat) (r : Request) (resume : Bool) (home allow ttl : Nat) : BitVec 512 :=
  let bits := match s.obj p r.kobj with
    | some x => x.qclass % 4 * 64 + ofBool x.keep2 * 32 + ofBool x.pin * 16 + (if allow = 0 then x.allow.toNat else allow) * 4 + home
    | none => home
  keeperCmd 5 r.kobj (r.keeperCtx resume) bits 0 ttl 0

/-- The MOVE of the whole object that the keepers issue. -/
def moveWord (s : State) (p : Nat) (r : Request) (resume : Bool) (tier : Nat) : BitVec 512 :=
  keeperCmd 3 r.kobj (r.keeperCtx resume) 0 tier 0 (match s.obj p r.kobj with | some x => x.nplots | none => 0)

/-- A request ends because a memory command of the keepers was refused: SV-0x07 where its conversation has expired (R254),
otherwise the MM code. -/
def endByMemory (s : State) (p req e : Nat) : State :=
  if e = 0x13 then endReq s p req evEnded 0x07 true else endReq s p req evEnded e false

/-- A request is parked: EVENT 0x02 with the CTX of its PARK, and the PLACE with its TTL (R253). -/
def parkNow (s : State) (p req ttl ctx : Nat) : State :=
  match liveReq s p req with
  | none => s
  | some r =>
    let s := svPost s p ctx 0 evParked req r.pos
    let s := if 2 ≤ r.parking then s else odCount s 0x1A40 0x01 p 32
    keeperSend (updReq s p req (fun r => { r with parking := 2, status := 0 })) p (placeWord s p r false 2 3 ttl)

/-- A request's resume begins: PLACE with TTL 0 and HOME tier 1; the MOVE follows its completion (R254). -/
def resumeNow (s : State) (p req ctx : Nat) : State :=
  match liveReq s p req with
  | none => s
  | some r =>
    let s := if 2 ≤ r.parking then s else odCount s 0x1A40 0x01 p 32
    keeperSend (updReq s p req (fun r => { r with parking := 4, status := 0, resumeCtx := BitVec.ofNat 64 ctx })) p
      (placeWord s p r true 1 0 0)

/-- A PARK waits for the step that has its request; it and a RESUME wait for a resume under way (R236). -/
def Request.turnWaits (r : Request) (t : ParkTurn) : Bool := decide (4 ≤ r.parking) || (!t.resume && r.inStep)

/-- The PARK and RESUME requests of a live request take effect in their order. -/
def takeTurns : Nat → Nat → Nat → State → State
  | 0, _, _, s => s
  | n + 1, p, req, s =>
    match liveReq s p req with
    | some r =>
      match r.turns with
      | t :: ts =>
        if r.turnWaits t then s
        else
          let s := updReq s p req (fun r => { r with turns := ts })
          takeTurns n p req (if t.resume then resumeNow s p req t.ctx.toNat else parkNow s p req t.ttl t.ctx.toNat)
      | [] => s
    | none => s

/-- The turns of a request that now may come. -/
def nextTurns (s : State) (p req : Nat) : State :=
  takeTurns (match liveReq s p req with | some r => r.turns.length | none => 0) p req s

/-- A PARK or RESUME taken from the ring. -/
def turnReq (p : Nat) (resume : Bool) (s : State) (c : BitVec 512) (_ : Request) : State :=
  nextTurns (updReq s p (srReq c) (fun r =>
    { r with turns := r.turns ++ [{ resume := resume, ctx := BitVec.ofNat 64 (srCtx c), ttl := srTtl c }] })) p (srReq c)

/-- PARK: at once, or after the request's step in progress (R236, R253). -/
def execPark (p : Nat) (s : State) : Host.Outcome State Fault Refusal :=
  onPart p s (onDerived (srTake 3 p (onLive p (turnReq p false))))

/-- RESUME (R254). -/
def execResume (p : Nat) (s : State) : Host.Outcome State Fault Refusal :=
  onPart p s (onDerived (srTake 4 p (onLive p (turnReq p true))))

/-- The keepers go on with a request whose command has completed: a refusal ends it, and the MOVE of its resume follows the
PLACE (R253, R254). -/
def keeperNext (p : Nat) (s : State) (req : Nat) : State :=
  match liveReq s p req with
  | some r =>
    let resume := r.parking != 2
    let op := if r.parking = 5 then 3 else 5
    if r.parking ≠ 2 ∧ r.parking ≠ 4 ∧ r.parking ≠ 5 then s
    else if keeperBusy s p op (r.keeperCtx resume) then s
    else if r.status ≠ 0 then endByMemory s p req r.status
    else if r.parking = 4 then
      keeperSend (updReq s p req (fun r => { r with parking := 5, status := 0 })) p (moveWord s p r true 1)
    else s
  | none => s

/-- Every park and resume goes on. -/
def keepersGoOn (p : Nat) (s : State) : State := ((s.part p).serving.requests.map (·.1)).foldl (keeperNext p) s

/-- PARK_MOVE: once the parked object has no lease, and its PLACE has completed, its MOVE to the polder is issued (R251, R253). -/
def parkMove (p req : Nat) (s : State) : State :=
  match liveReq s p req with
  | some r =>
    match s.obj p r.kobj with
    | some x =>
      if r.parking = 2 ∧ x.leases = 0 ∧ r.status = 0 ∧ ¬ keeperBusy s p 5 (r.keeperCtx false) then
        keeperSend (updReq s p req (fun r => { r with parking := 3 })) p (moveWord s p r false 2)
      else s
    | none => s
  | none => s

def execParkMove (p req : Nat) (s : State) : Host.Outcome State Fault Refusal := onPart p s (onDerived (parkMove p req))

/-- PLACE (R193); the keepers go on where it was theirs. -/
def execPlace (p : Nat) (s : State) : Host.Outcome State Fault Refusal :=
  onPart p s (onDerived fun s => keepersGoOn p (mcTake 5 p noWait (placeCommandRefusal p) (placeStart p) s))

/-- MOVE (R195); the keepers go on where it was theirs. -/
def execMove (p : Nat) (s : State) : Host.Outcome State Fault Refusal :=
  onPart p s (onDerived fun s => keepersGoOn p (mcTake 3 p (rangeWait p) (moveRefusal p) (moveStart p) s))

/-- COMMIT: the changes pending at a step boundary are committed, and the keepers go on with what waited for them (R191, R254). -/
def execCommit (p : Nat) (s : State) : Host.Outcome State Fault Refusal :=
  onPart p s (onDerived fun s => keepersGoOn p (commit p s))

/-- RESUME_MOVE_DONE: the MOVE has completed, after its commit; the request is admissible again (R254). -/
def resumeMoveDone (p req : Nat) (s : State) : State :=
  let s := keeperNext p s req
  match liveReq s p req with
  | some r =>
    if r.parking = 5 ∧ ¬ keeperBusy s p 3 (r.keeperCtx true) then
      let s := svPost (notParked s p r) p r.resumeCtx.toNat 0 evResumed req r.pos
      nextTurns (updReq s p req (fun r => { r with parking := 0 })) p req
    else s
  | none => s

def execResumeMoveDone (p req : Nat) (s : State) : Host.Outcome State Fault Refusal :=
  onPart p s (onDerived (resumeMoveDone p req))

/-! ### Expiry (R198, R255) -/

/-- The event of an expired object (R255). -/
def evExpired : Nat := 0x0A01

/-- OBJECT_EXPIRE: the object is expiring and counted, its prefix entries are cleared, and the live requests of its conversation
end (R198, R255, R262; log 106). -/
def expireObj (s : State) (p o : Nat) : State :=
  match s.obj p o with
  | none => s
  | some x =>
    let (s, n) := prefixInval s p o
    let x := (s.obj p o).getD x
    let s := s.setObj p o { x with expiring := true, ttl := 0 }
    let s := logEvent s evExpired 0 0 1 (some p) (o * 2 ^ 32 + n)
    let reqs := ((s.part p).serving.requests.filter (fun e => e.2.kobj == o)).map (·.1)
    reqs.foldl (fun s r => endReq s p r evEnded 0x07 true) (odCount s 0x1A40 0x02 p 32)

/-- One object's TTL at a tick. -/
def tickObj (s : State) (e : Nat × Obj) : State :=
  let p := e.1 / 65536
  let o := e.1 % 65536
  match s.obj p o with
  | some x =>
    if x.ttl = 0 ∨ x.expiring then s
    else if x.ttl = 1 then expireObj s p o
    else s.setObj p o { x with ttl := x.ttl - 1 }
  | none => s

/-- TTL_TICK: at each multiple of 100,000,000 gt every TTL that is not 0 is decremented (R198). -/
def ttlTick (s : State) : State :=
  if s.counter.gt % 100000000 = 0 ∧ s.counter.gt ≠ s.ttlGt then s.objects.foldl tickObj { s with ttlGt := s.counter.gt } else s

def execTtlTick (s : State) : Host.Outcome State Fault Refusal := .next (onDerived ttlTick s)

/-! ### Budgets (R242 to R245) -/

/-- The fields of a customer's entry. -/
def budget (s : State) (c : Nat) : BitVec 128 := BitVec.ofNat 128 (od s 0x1A10 0x01 c)
def bdAllow (b : BitVec 128) : Nat := bits b 127 96
def bdRefill (b : BitVec 128) : Nat := bits b 95 64
def bdCap (b : BitVec 128) : Nat := bits b 63 32
def bdValid (b : BitVec 128) : Bool := bit b 31
def bdUnlim (b : BitVec 128) : Bool := bit b 30
def bdMask (b : BitVec 128) (p : Nat) : Bool := bits b 7 0 |>.testBit p

/-- An entry with another allowance. -/
def setAllow (s : State) (c a : Nat) : State :=
  odSet s 0x1A10 0x01 c (a * 2 ^ 96 + (budget s c).toNat % 2 ^ 96)

/-- Refill ticks to apply at instant `a` (R243). -/
def refillTicks (s : State) (a : Nat) : Nat :=
  let p := max 1 (od s 0x1A10 0x02)
  a / p - s.refillL / p

/-- An entry's allowance after `m` ticks, in 64-bit arithmetic (R243). -/
def refilled (b : BitVec 128) (m : Nat) : Nat :=
  max (bdAllow b) (min (bdCap b) ((bdAllow b + m * bdRefill b) % 2 ^ 64))

/-! ### Draft trees (R259) -/

/-- The nodes of a conversation's draft tree record. -/
def treeNodes (s : State) (p o : Nat) : List Nat := wordsAt (objRead s p o 0x400000 128) 0 8 16
def tnToken (w : Nat) : Nat := nbits w 63 32
def tnParent (w : Nat) : Nat := nbits w 31 27
def tnValid (w : Nat) : Bool := w.testBit 26

/-- Valid nodes of a record. -/
def treeSize (ws : List Nat) : Nat := (ws.filter tnValid).length

/-- The tree is malformed (R259). -/
def treeBad (ws : List Nat) : Bool :=
  let k := treeSize ws
  let vs := ws.take k
  !vs.all tnValid || ws.any (fun w => nbits w 25 0 != 0) ||
    (List.range k).any (fun n => let q := tnParent (nth 0 vs n); q != 0x1F && decide (n ≤ q)) ||
    (List.range k).any (fun n => (List.range n).any (fun m =>
      tnParent (nth 0 vs n) == tnParent (nth 0 vs m) && tnToken (nth 0 vs n) == tnToken (nth 0 vs m)))

/-! ### Admission (R244) -/

/-- Positions of a conversation (R240, R241). -/
def numPositions : Nat := 2 ^ 20

/-- The positions of a request's prompt once its APPEND applies: none passes the last position (R241). -/
def Request.promptNow (r : Request) : Nat :=
  min numPositions (if r.append = 0 then r.prompt else max r.prompt r.pos + r.append)

/-- The request's next step computes prompt positions. -/
def Request.prefill (r : Request) : Bool := decide (r.pos < r.promptNow)

/-- The image that a request's next step needs (R262). -/
def stepImage (s : State) (p : Nat) (r : Request) : Nat := od s 0x1A00 0x06 (2 * p + if r.prefill then 0 else 1)

/-- The requests that wait for admission, in order of their START (R244). -/
def waiting (s : State) (p : Nat) : List (Nat × Request) :=
  sortOn (fun e => e.2.order) ((s.part p).serving.requests.filter (fun e => e.2.parking == 0 && !e.2.inStep))

/-- Ticks by which a request of the walk refills its customer's entry: an admission refills each entry that it touches once, at
the walk's first request of the customer (R243). -/
def firstTicks (m : Nat) (walk : List (Nat × Request)) (e : Nat × Request) : Nat :=
  match walk.find? (fun f => f.2.cust == e.2.cust) with
  | some f => if f.1 = e.1 then m else 0
  | none => m

/-- The draft tree that a request's step takes from its record: how many nodes, and whether it is dropped as malformed. A TREE
whose step computes prompt positions has no drafts (R244, R259; log 107). -/
def stepTree (s : State) (p : Nat) (r : Request) (b : BitVec 128) : Nat × Bool :=
  let ws := treeNodes s p r.kobj
  if !r.tree then (0, false)
  else if treeBad ws then (0, true)
  else if !r.prefill && (bdUnlim b || decide (1 + treeSize ws ≤ bdCap b)) then (treeSize ws, false)
  else (0, false)

/-- One request of the walk: refused, deferred, or admitted with its charge, and then its APPEND and its TREE are used up (R236,
R244, R259). -/
def admitOne (p m : Nat) (a : State × List StepEntry) (e : Nat × Request) : State × List StepEntry :=
  let (s, es) := a
  let r := e.2
  let s := setAllow s r.cust (refilled (budget s r.cust) m)
  let b := budget s r.cust
  let (drafts, bad) := stepTree s p r b
  let charge := if r.prefill then min (r.promptNow - r.pos) (od s 0x1A00 0x03 p) else 1 + drafts
  if od s 0x1A00 0x02 p ≤ es.length then a
  else if !bdValid b || !bdMask b p then (endReq s p e.1 evRefused 0x02 true, es)
  else if bdCap b = 0 ∧ ¬ bdUnlim b then (endReq s p e.1 evRefused 0x0A true, es)
  else if bdUnlim b || decide (charge ≤ bdAllow b) then
    let s := if bdUnlim b then s else setAllow s r.cust (bdAllow b - charge)
    let s := if bad then svPost s p r.treeCtx.toNat 0x08 evRefused e.1 r.pos else s
    let s := updReq s p e.1 (fun r => { r with prompt := r.promptNow, append := 0, tree := false, inStep := true })
    (s, es ++ [{ req := e.1, pos := r.pos, npos := charge, drafts := drafts, prefill := r.prefill, cancelled := false }])
  else (odCount s 0x1A10 0x03 r.cust 32, es)

/-! ### The step object and the step's job (R234, R238) -/

/-- The device address of the KV of block `b` of a request (R246, R252). -/
def kvAddr (s : State) (p : Nat) (r : Request) (b : Nat) : Nat :=
  let (o, k) := nth (r.kobj, b) r.matched b
  match s.obj p o with
  | some x => objAddr x (0x600000 + k * od s 0x1A00 0x04 p)
  | none => 0

/-- The KV pointer list of an entry: its count and its pointers (R138, R252). -/
def kvList (s : State) (p : Nat) (e : StepEntry) : List Byte :=
  match liveReq s p e.req with
  | some r =>
    let n := ceilDiv (e.pos + e.npos) 64
    leBytes 8 n ++ (List.range n).flatMap (fun b => leBytes 8 (kvAddr s p r b))
  | none => leBytes 8 0

/-- Rounded up to a multiple of 64. -/
def pad64 (n : Nat) : Nat := ceilDiv n 64 * 64

/-- A token tag (R240). -/
def stepTag (req pos : Nat) (prefill : Bool) : Nat := req * 2 ^ 40 + pos % 2 ^ 20 * 2 ^ 20 + ofBool prefill * 16

/-- The entries with the byte offsets of their pointer lists, and the offset after them. -/
def listOffsets (s : State) (p : Nat) : List StepEntry → Nat → List (StepEntry × Nat) × Nat
  | [], o => ([], o)
  | e :: es, o =>
    let (l, z) := listOffsets s p es (o + pad64 (kvList s p e).length)
    ((e, o) :: l, z)

/-- The bytes of the step object, and the offset of its result area (R238). -/
def stepBytes (s : State) (p base step : Nat) (es : List StepEntry) : List Byte × Nat :=
  let n := es.length
  let (ls, z) := listOffsets s p es (pad64 (64 + 32 * n))
  let cap := if od s 0x1A30 0x01 p = 0 then n else od s 0x1A30 0x01 p
  let head := leBytes 64 (step + n * 2 ^ 64 + cap * 2 ^ 80 + z * 2 ^ 96)
  let entry (q : StepEntry × Nat) : List Byte :=
    let kobj := match liveReq s p q.1.req with | some r => r.kobj | none => 0
    leBytes 32 (stepTag q.1.req q.1.pos q.1.prefill * 2 ^ 192 + q.1.npos * 2 ^ 172 + q.1.drafts * 2 ^ 167 + kobj * 2 ^ 144 +
      (base + q.2) * 2 ^ 64)
  let lists := ls.flatMap (fun q => fit (pad64 (kvList s p q.1).length) (kvList s p q.1))
  (fit (pad64 (64 + 32 * n)) (head ++ ls.flatMap entry) ++ lists, z)

/-- The leaves of some bytes, as digests (R212). -/
def leavesOf : Nat → List Byte → List (List Byte)
  | 0, _ => []
  | n + 1, bs => leafDigest (bs.take leafBytes) :: leavesOf n (bs.drop leafBytes)

/-- The step object of a partition: one of the objects that the enabled image references (log 32). -/
def stepObj (s : State) (p : Nat) : Option Nat :=
  match (s.part p).image with
  | some im => match im.refs with
    | [] => none
    | r :: rs => some (nth r (r :: rs) (Config.stepRef p % (rs.length + 1))).1
  | none => none

/-- The keepers' DIGEST with ROOT over `len` bytes of the step object: the state, and the step's input digest (R230, R238). -/
def digestStep (s : State) (p : Nat) (obj : Option Nat) (len : Nat) : State × List Byte :=
  match obj with
  | none => (s, Crypto.sha256 [])
  | some o =>
    let leaves := leavesOf (numLeaves len) (objRead s p o 0 len)
    (setRoot s p o len leaves, Crypto.sha256 (leBytes 2 o ++ merkleRoot len leaves))

/-- The step object written: the state, its length and the offset of its result area (R238). -/
def writeStep (s : State) (p : Nat) (es : List StepEntry) : State × Nat × Nat :=
  match stepObj s p with
  | none => (s, 0, 0)
  | some o =>
    let base := match s.obj p o with | some x => objAddr x 0 | none => 0
    let (bs, z) := stepBytes s p base (od s 0x1A00 0x08 p) es
    (objWrite s p o 0 bs, bs.length, z)

/-- The descriptor of a step's job, under the seed of its admission (R234, R262, R279). -/
def stepDesc (s : State) (p seed : Nat) (digest : List Byte) : BitVec 1024 :=
  BitVec.ofNat 1024 (seed % 2 ^ 256 * 2 ^ 768 + leNat digest % 2 ^ 256 * 2 ^ 512 + od s 0x1A00 0x08 p * 2 ^ 448 +
    (s.part p).ctlImage.toNat * 2 ^ 176 + p * 2 ^ 161 + 2 ^ 144)

/-- The keepers digest the step object and submit the step's job on queue 1, which they enable, under the next step counter (R234,
R238, R277; log 37). -/
def submitStep (s : State) (p : Nat) (k : ServeStep) : State :=
  let (s, digest) := digestStep s p k.obj k.len
  let d := stepDesc s p k.seed digest
  let s := odSet s 0x1A00 0x08 p ((od s 0x1A00 0x08 p + 1) % 2 ^ 64)
  let s := updServing s p (fun v => { v with step := some { k with digest := digest } })
  s.updPart p (fun x =>
    let x := setRingNat x (sqOfs 1 + 128 * (x.sq 1).tail) d.toNat 16
    x.updSq 1 (fun q => { q with
      cfg := q.cfg ||| 0x8000000000000000, tail := (q.tail + 1) % 256, byKeepers := q.byKeepers ++ [q.tail] }))

/-- No request of the image in force is admissible: the keepers enable the image of the first waiting request that needs
another, where they hold or may take SEM(8 + p) (R262). -/
def switchImage (s : State) (p : Nat) : State :=
  let x := s.part p
  match (waiting s p).find? (fun e => x.state = .off || stepImage s p e.2 != x.ctlImage.toNat) with
  | none => s
  | some e =>
    let id := 0x3000 + (partKeepers s p).headD 0
    let s := semAcquire s (8 + p) id
    if owns s (8 + p) id then enableImage s p (BitVec.ofNat 16 (stepImage s p e.2)) else s

/-- SERVE_STEP_ADMIT: at one instant the waiting requests of the enabled image are walked, budgets are refilled and charged,
the step object is written and its job submitted; where none is admitted and another image has work, that image is enabled
(R234, R238, R243, R244, R262). -/
def serveStepAdmit (p : Nat) (s : State) : State :=
  let x := s.part p
  let idle := x.job.isNone && x.prepared.isNone && x.serving.step.isNone && decide ((x.sq 1).held = 0)
  if srMayTake s p ∧ idle ∧ !bit s.breach 7 ∧ x.state.mayEnable then
    let a := s.counter.gt
    let walk := if x.state = .ready then (waiting s p).filter (fun e => stepImage s p e.2 == x.ctlImage.toNat) else []
    let (s, es) := walk.foldl (fun r e => admitOne p (firstTicks (refillTicks s a) walk e) r e) (s, [])
    let s := if walk = [] then s else { s with refillL := a }
    if es = [] then
      switchImage s p
    else
      let (s, n, z) := writeStep s p es
      submitStep s p { obj := stepObj s p, len := n, seed := od s 0x1A00 0x07 p, entries := es, digest := [], results := z,
                       retry := false, outcome := none }
  else s

def execServeStepAdmit (p : Nat) (s : State) : Host.Outcome State Fault Refusal := onPart p s (onDerived (serveStepAdmit p))

/-- SERVE_STEP_RETRY: after the stop-acknowledge of a step's task abort the same step object runs once more under a new step
counter (R239). -/
def retryStep (s : State) (p : Nat) : State :=
  match (s.part p).serving.step with
  | some k => if k.outcome = some stAbort ∧ k.retry = false then submitStep s p { k with retry := true, outcome := none } else s
  | none => s

/-- A stop-acknowledge, and what the serving loop makes of it (R239, R286). -/
def acknowledge (s : State) (p src : Nat) : State :=
  let x := s.part p
  let was := decide (x.state = .halted) && !x.stopped && !x.restoring
  let s := stopAcknowledge s p src
  if was then retryStep s p else s

/-- STOP_ACK: a guarded write (R270, R286). -/
def stopAck (src p : Nat) (v : Word) (s : State) : State := if bit v 0 ∧ mayGuard s src p then acknowledge s p src else s

def execStopAck (src p : Nat) (v : Word) (s : State) : Host.Outcome State Fault Refusal := onSrcPart src p s (onDerived (stopAck src p v))

/-! ### Results (R239, R241) -/

/-- The result records of a step, as tag and token. -/
def stepResults (s : State) (p o z : Nat) : List (Nat × Nat) :=
  let n := min (leNat (objRead s p o z 4)) ((objBytes s p o - z - 16) / 16)
  (List.range n).map (fun i => (leNat (objRead s p o (z + 24 + 16 * i) 8), leNat (objRead s p o (z + 20 + 16 * i) 4)))

/-- A result that is not written is counted (R241). -/
def dropResult (s : State) (p : Nat) : State := odCount s 0x1A00 0x12 p 32

/-- One result put back at its position (R241), with the tags put back before it. -/
def putBack (p : Nat) (k : ServeStep) (a : State × List Nat) (res : Nat × Nat) : State × List Nat :=
  let (s, seen) := a
  let (tag, token) := res
  let req := tag / 2 ^ 40
  let pos := tag / 2 ^ 20 % 2 ^ 20
  match liveReq s p req with
  | none => (dropResult s p, seen)
  | some r =>
    if k.entries.any (fun e => e.req == req && e.cancelled) then (dropResult s p, seen)
    else if seen.contains tag then (endReq (dropResult s p) p req evEnded 0x09 true, seen)
    else
      let s := objWrite s p r.kobj (4 * pos) (leBytes 4 token)
      (updReq s p req (fun r => { r with pos := max r.pos (pos + 1), left := r.left.map (· - 1) }), tag :: seen)

/-- A live request after the results of a step, of which `seen` were put back: it ends by LAST or MAXNEW, or with SV-0x0C where its
next position would pass the last one (R235, R236, R241; log 108). -/
def afterResults (p : Nat) (seen : List Nat) (s : State) (req : Nat) : State :=
  match liveReq s p req with
  | none => s
  | some r =>
    if seen.any (fun t => t / 2 ^ 40 == req && t % 2 == 1) || r.left == some 0 then endReq s p req evEnded 0 false
    else if numPositions ≤ r.pos then endReq s p req evEnded 0x0C true
    else s

/-- Full blocks of a conversation whose KV has been put back: a generated token's own KV is computed by the next step (R252;
log 38). -/
def Request.fullBlocks (r : Request) : Nat := (if r.pos ≤ r.prompt then r.pos else r.pos - 1) / 64

/-- The loop inserts a conversation's newly full blocks; after a stop it inserts no more of them (R250, R252). -/
def insertNew (s : State) (p req : Nat) : State :=
  match liveReq s p req, prefixTable s p with
  | some r, some t =>
    if r.noInsert || decide (r.fullBlocks ≤ r.inserted) then s
    else
      let prev := ((blockHashes s p r.kobj r.inserted 0 r.ns.toNat).getLast?).getD r.ns.toNat
      let (s, n, code) := prefixInsert s p t r.kobj r.inserted (r.fullBlocks - r.inserted) prev
      updReq s p req (fun r => { r with inserted := r.inserted + n, flags := if code = 0 then r.flags else r.flags ||| 2 })
  | _, _ => s

/-- An entry after its step: progress, insertion, and a park that waited for it (R235, R236, R252, R253). -/
def closeEntry (p : Nat) (done : Bool) (s : State) (e : StepEntry) : State :=
  if e.cancelled then s
  else
    let s := updReq s p e.req (fun r => { r with inStep := false })
    let s := if done then insertNew s p e.req else s
    match liveReq s p e.req with
    | some r =>
      let s := if done ∧ r.progress ∧ e.pos < r.pos then svPost s p r.ctx.toNat 0 evProgress e.req r.pos else s
      nextTurns s p e.req
    | none => s

/-- The entries of the step in progress: those whose request has ended since are marked. -/
def stepEntries (s : State) (p : Nat) : List StepEntry :=
  match (s.part p).serving.step with | some k => k.entries | none => []

/-- The step is over. -/
def closeStep (s : State) (p : Nat) (done : Bool) : State :=
  updServing ((stepEntries s p).foldl (closeEntry p done) s) p (fun v => { v with step := none })

/-- A completed step: prompt positions computed, overflow counted, every result put back, and then the requests that this ends
(R241, R257). -/
def takeResults (s : State) (p : Nat) (k : ServeStep) : State :=
  let s := k.entries.foldl (fun s e =>
    if e.prefill && !e.cancelled then updReq s p e.req (fun r => { r with pos := max r.pos (e.pos + e.npos) }) else s) s
  let (s, seen) := match k.obj with
    | none => (s, [])
    | some o =>
      let clamped := leNat (objRead s p o (k.results + 8) 4)
      let s := odSet s 0x1A30 0x02 p (satAdd 64 (od s 0x1A30 0x02 p) clamped)
      (stepResults s p o k.results).foldl (putBack p k) (s, [])
  ((s.part p).serving.requests.map (·.1)).foldl (afterResults p seen) s

/-- SERVE_STEP_COMPLETE: the job of the step has its record. Results are taken of a success; a first task abort waits for its
retry; a failure ends every request of the step with SV-0x0E; a step refused or cancelled leaves its requests waiting (R239,
R241; log 39). -/
def serveStepComplete (p : Nat) (s : State) : State :=
  match (s.part p).serving.step with
  | some k =>
    match k.outcome with
    | some 0 => closeStep (takeResults s p k) p true
    | some 1 => closeStep s p false
    | some 5 => closeStep s p false
    | some n =>
      if n = stAbort ∧ k.retry = false then s
      else
        let s := k.entries.foldl (fun s e => if e.cancelled then s else endReq s p e.req evEnded 0x0E true) s
        closeStep s p false
    | none => s
  | none => s

def execServeStepComplete (p : Nat) (s : State) : Host.Outcome State Fault Refusal := onPart p s (onDerived (serveStepComplete p))

end Sys2Proof.Machine
end

