-- ==== Sys2Proof/Machine/TorusPaths.lean ====
section
/-! DEFINITION. The links that a torus plan's entries use at this node (R305, R306, R319, R325, R394). -/
namespace Sys2Proof.Machine

/-- The member before a node in a group's ring (R319). -/
def prevMember (ms : List Nat) (n : Nat) : Nat :=
  match ms.findIdx? (· == n) with
  | some i => nth n ms ((i + ms.length - 1) % ms.length)
  | none => n

/-- The node to which an entry sends data, and the one from which it receives, if any (R319). -/
def entryTo (s : State) (pl : Plan) (e : BitVec 512) : Option Nat :=
  if peOp e = opSend then some (pePeer e)
  else if peOp e = opAllsum ∨ peOp e = opAllmax ∨ peOp e = opAllgather then some (nextMember (pl.members e) (ownNode s))
  else none
def entryFrom (s : State) (pl : Plan) (e : BitVec 512) : Option Nat :=
  if peOp e = opRecv then some (pePeer e)
  else if peOp e = opAllsum ∨ peOp e = opAllmax ∨ peOp e = opAllgather then some (prevMember (pl.members e) (ownNode s))
  else none

/-- The axis and the sign of the own links on which frames from a node arrive: the last axis of their path, and the side they
come from (R306). -/
def lastAxis (s : State) (src : Nat) : Option (Nat × Nat) :=
  ([2, 1, 0] : List Nat).findSome? (fun i =>
    let k := ringSize s i
    let d := (nodeCoord (ownNode s) i % k + k - nodeCoord src i % k) % k
    if d = 0 then none else some (i, if 2 * d ≤ k then 1 else 0))

/-- Link `l` serves the axis and sign. -/
def onAxis (s : State) (l : Nat) (a : Option (Nat × Nat)) : Bool :=
  match a with
  | some (i, g) => (axisLinks s i g).contains l
  | none => false

/-- An entry's transfers use link `l` at this node; BARRIER uses both switch links (R319). -/
def entryUses (s : State) (pl : Plan) (l : Nat) (e : BitVec 512) : Bool :=
  if peOp e = opBarrier then l == 12 || l == 13
  else
    (match entryTo s pl e with | some n => onAxis s l (nextAxis s (ownNode s) n) | none => false) ||
    (match entryFrom s pl e with | some n => onAxis s l (lastAxis s n) | none => false)

/-- A plan uses link `l` at this node. -/
def planUses (s : State) (l : Nat) (pl : Plan) : Bool := pl.entries.any (entryUses s pl l)

/-- A partition holds a running or drained job with a torus plan that uses link `l` (R394). -/
def linkInUse (s : State) (l : Nat) : Bool :=
  s.parts.any (fun e =>
    (match e.2.job with
     | some j => (match jobPlan s e.1 j with | some pl => planUses s l pl | none => false)
     | none => false) ||
    (match e.2.drained with
     | some d => (match jobPlan s e.1 d.job with | some pl => planUses s l pl | none => false)
     | none => false))

end Sys2Proof.Machine
end

