-- ==== Sys2Proof/Machine/Resets.lean ====
section
/-! DEFINITION. What each reset level clears and keeps, and the episodes (R265, R273, R382 to R394). -/
namespace Sys2Proof.Machine

/-! ### Contents that are lost -/

/-- A cell after a reset of its die or partition: its registers and queues as at reset, the contents of its memories
undefined (R383). -/
def lostCell (s : State) (c : Nat) : State :=
  let (a, s) := s.fresh
  let (b, s) := s.fresh
  let (d, s) := s.fresh
  let (e, s) := s.fresh
  s.setCell c { Cell.init with scratch := Mem.undef a, half0 := Mem.undef b, half1 := Mem.undef d, tier0 := Mem.undef e }

/-- Every cell, engine and sync object of the package. -/
def lostFabric (s : State) : State :=
  { (List.range numCells).foldl lostCell { s with cells := [] } with engines := [], sync := [] }

/-- The memory commands of a partition are lost with its rings: an ALLOC that has not committed takes nothing. The plot table and
the sector maps stay as they are (R383, R384; log 50). -/
def abandonRuns (s : State) (p : Nat) : State :=
  let s := (s.part p).mcRuns.foldl (fun s r =>
    match mcOp r.cmd, r.record with
    | 1, some o => if (s.obj p r.obj).isNone then dropObj (s.setObj p r.obj o) p r.obj else s
    | _, _ => s) s
  s.updPart p (fun x => { x with mcRuns := [] })

/-- An entry's value survives an L2: everything but the counters that its chapter clears (R29, R62, R177, R233, R262, R297,
R327, R349, R350). Standby slots are settings. -/
def survivesL2 (index sub : Nat) : Bool :=
  match (family index).1, sub with
  | 0x1000, 0x12 | 0x1000, 0x14 => false
  | 0x1100, 0x07 | 0x1100, 0x10 | 0x1100, 0x11 | 0x1100, 0x2A | 0x1100, 0x2B | 0x1400, 0x15 => false
  | 0x1500, 0x21 | 0x1500, 0x22 => false
  | 0x1600, 0x30 | 0x1600, 0x31 => false
  | 0x1900, 0x03 | 0x1900, 0x04 | 0x1900, 0x05 | 0x1900, 0x23 | 0x1900, 0x24 | 0x1900, 0x25 | 0x1900, 0x26 | 0x1900, 0x27 => false
  | 0x1A00, 0x10 | 0x1A00, 0x11 | 0x1A00, 0x12 | 0x1A10, 0x03 => false
  | 0x1A20, 0x02 | 0x1A20, 0x03 | 0x1A20, 0x04 | 0x1A30, 0x02 | 0x1A40, _ => false
  | 0x1C00, 0x12 | 0x1C00, 0x27 | 0x1C00, 0x30 | 0x1C00, 0x31 | 0x1C00, 0x32 => false
  | 0x2000, 0x06 | 0x2000, 0x07 | 0x2000, 0x08 | 0x2000, 0x09 | 0x2000, 0x0A => false
  | _, _ => true

/-- An entry's value survives an L1: what only L0 clears (R29, R216, R328, R350, R404, R413, R422). -/
def survivesL1 (index sub : Nat) : Bool :=
  match (family index).1, sub with
  | 0x1100, 0x04 => true
  | 0x1200, 0x01 | 0x1200, 0x02 | 0x1200, 0x03 | 0x1200, 0x07 | 0x1200, 0x0B => true
  | 0x1400, 0x02 | 0x1400, 0x03 | 0x1400, 0x04 | 0x1400, 0x06 => true
  | 0x1E00, 0x01 | 0x1E00, 0x02 | 0x1E00, 0x21 | 0x1E00, 0x22 | 0x1E00, 0x30 => true
  | 0x3000, 0x0A | 0x3000, 0x0B | 0x3000, 0x0C | 0x3000, 0x0D | 0x3000, 0x0E => true
  | 0x4000, 0x04 => true
  | 0x5000, 0x03 | 0x5000, 0x04 | 0x5000, 0x05 | 0x5000, 0x06 => true
  | _, _ => false

/-- The dictionary without the entries that do not survive. -/
def keepDict (s : State) (f : Nat → Nat → Bool) : State :=
  { s with dict := s.dict.filter (fun e => f (e.1 / 2 ^ 40) (e.1 / 2 ^ 32 % 256)) }

/-- Memory channels as the start of an L2 leaves them: each in service is in self-refresh until its exit (R384). -/
def selfRefresh (s : State) : State :=
  (List.range 24).foldl (fun s c => if od s (0x5000 + c) 0x01 = 2 then odSet s (0x5000 + c) 0x01 0 1 else s) s

/-! ### L2, L1 and L0 (R383) -/

/-- The control and data planes cleared: what L0, L1 and L2 share (R273, R383, R384, R418). -/
def clearPlanes (s : State) : State :=
  let s := (List.range 8).foldl abandonRuns s
  let s := (List.range 8).foldl (fun s p => s.setPart p Part.init) s
  let s := (List.range 14).foldl (fun s l => odSet s (0x3000 + 0x20 * l) 0x01 0 0) (lostFabric s)
  let s := [0, 1].foldl (fun s k => odSet (odSet s 0x1800 0x02 k 0) 0x1700 0x01 k 0) s
  let s := odSet (selfRefresh s) 0x1E00 0x20 0 0
  let s := semFree s (fun o => o / 0x1000 != 4)
  { s with
    inForce := [], shareWait := [], links := [], seenMsgs := [], mailbox := [], windowNak := [], fns := [], breach := 0, pathDrops := 0,
    qps := s.qps.map (fun (e : Nat × QueuePair) => (e.1, { e.2 with runs := [], state := if e.2.state = 0 then 0 else 2 })),
    clocks := { s.clocks with pllOn := false, locked := false, edge := 0 },
    power := { s.power with spill := [], wasBusy := [], carried := [] },
    pins := { s.pins with alertN := !s.thermal.latch && decide (s.power.overCap < 10) },
    entropy := { s.entropy with buffers := [], retests := 0, words := 0 },
    boot := { s.boot with keepersOk := false } }

/-- The effects of an L2: the warden runs on, DEV_STATE leaves ACCEPTING (R392). -/
def effectsL2 (s : State) : State :=
  let s := keepDict (clearPlanes s) survivesL2
  { s with boot := { s.boot with devState := min s.boot.devState 1 } }

/-- The effects of an L1 beyond those of an L2: the memory's contents, the stored dictionary, principals, sessions and
semaphores go; the event log, watermarks, energy, and the global counter's count stay (R313, R345, R383). -/
def effectsL1 (s : State) : State :=
  let s := keepDict (clearPlanes s) survivesL1
  { s with
    objects := [], plots := [], frames := [], qps := [], sems := [], mirror := [], mirrorGt := 0, refillL := 0,
    mgmt := State.reset.mgmt,
    power := { State.reset.power with aonFault := s.power.aonFault },
    thermal := { s.thermal with ceiling := 16, excluded := [], runs := [], coolRun := some false, coolEval := false,
                                throttled := [] },
    clocks := { s.clocks with pace := 16, govPace := 16, alert := !s.pins.pmbAlertN },
    counter := { State.reset.counter with gt := s.counter.gt },
    boot := { s.boot with running := [], memFw := none, buffer := Mem.zero, waiting := false, result := 0, wsel := 0, devState := 0 } }

/-- The effects of an L0: everything but OTP, the trip record, flash, the pins and what the block has sent (R347, R383). -/
def effectsL0 (s : State) : State :=
  lostFabric { State.reset with
    pending := s.pending, outputs := s.outputs, free := s.free,
    pins := { s.pins with alertN := true, thermtripN := true },
    thermal := { State.reset.thermal with record := s.thermal.record },
    clocks := { State.reset.clocks with alert := !s.pins.pmbAlertN },
    boot := { State.reset.boot with
              otp := s.boot.otp, exhausted := s.boot.exhausted, assembly := s.boot.assembly, flash := s.boot.flash,
              flashSize := s.boot.flashSize },
    episodes := [] }

/-- The effects of a level of the whole package. -/
def effectsWide (level : Nat) (s : State) : State :=
  match level with
  | 0 => effectsL0 s
  | 1 => effectsL1 s
  | _ => effectsL2 s

/-! ### L3 and function-level resets (R265) -/

/-- A job record's copy through function `f` is suppressed. -/
def Job.suppress (j : Job) (f : Nat) : Job := { j with noCopy := j.noCopy || j.owner == f }

/-- The submission queues of partition `p` that function `f` owns are unbound; jobs that have not launched complete with
JB-0x08, and no record's copy passes through `f`. -/
def unbind (f : Nat) (s : State) (p : Nat) : State :=
  let s := s.updPart p (fun x =>
    { x with job := x.job.map (fun j => j.suppress f), drained := x.drained.map (fun d => { d with job := d.job.suppress f }),
             late := x.late.map (fun l => { l with noCopy := l.noCopy || l.owner == f }) })
  (List.range 4).foldl (fun s q =>
    if queueOwner (s.part p) q == f && !keeperQueue s p q then
      (cancelQueue s p q true).updPart p (fun x => x.updSq q (fun k => { k with cfg := 0 }))
    else s) s

/-- The effects of a function's reset (R265). -/
def fnReset (s : State) (f : Nat) : State := (List.range 8).foldl (unbind f) (semFree s (· == f))

/-- The effects of an L3A or L3B: every function of the port is reset, and the port's configuration cleared (R265, R383). -/
def effectsL3 (port : Nat) (s : State) : State :=
  let fs := (List.range 9).map (fnId port)
  let s := fs.foldl fnReset s
  let s := { s with fns := s.fns.filter (fun e => !fs.contains e.1) }
  odSet s 0x1800 0x02 port 0

/-! ### L4 (R167, R294, R393) -/

/-- The effects of an L4: the running, the queued and the drained jobs get their records, the partition is OFF, and its cells,
engines and sync objects are in reset (log 49). -/
def effectsL4 (s : State) (p : Nat) : State :=
  let s := finishJob s p stStop (reasonCode .jb 0x0A) true
  let s := (List.range 4).foldl (fun s q => cancelQueue s p q false) s
  let s := finishDrained s p stCancelled (reasonCode .jb 0x09)
  let s := clearSync ((partEngines s p).foldl (fun s e => s.updEngine e (fun _ => Engine.init)) s) p
  let s := (partCells s p).foldl lostCell s
  let s := s.updPart p (fun x =>
    { x with enable := false, stopped := false, freezing := none, refilling := false, preempt := none,
             fault := none, hold := none })
  becomeOff s p

/-! ### L5 (R394) -/

/-- The block exists in this assembly. -/
def blockExists (s : State) (b : Nat) : Bool :=
  match b / 4096 with
  | 1 => isEngine (b % 4096)
  | 2 => decide (b % 4096 < 256) && stackFitted s.boot.assembly (b % 4096 / 32)
  | 3 => decide (b % 4096 < numChannels s.boot.assembly)
  | 4 => linkFitted s (b % 4096)
  | 5 => isPort (b % 4096)
  | _ => false

/-- The owning partition is at rest and holds no drained job. -/
def ownerIdle (s : State) (p : Option Nat) (mem : Bool) : Bool :=
  match p with
  | none => true
  | some p => stepBoundary (s.part p) && (s.part p).drained.isNone && (!mem || (s.part p).mcRuns.isEmpty)

/-- The idle indicator of a block, BLOCK_IDLE (R394). -/
def blockIdle (s : State) (b : Nat) : Bool :=
  match b / 4096 with
  | 1 => isEngine (b % 4096) && ownerIdle s (blockPart s b) false
  | 2 | 3 => blockExists s b && ownerIdle s (blockPart s b) true
  | 4 => blockExists s b && !linkInUse s (b % 4096)
  | 5 => blockExists s b && (s.qps.map (·.1)).all (fun q => qpPort (qpCtx s q) != b % 4096 || (s.qp q).runs.isEmpty)
  | _ => false

/-- A link is told to retrain by an L5: LSEQ and the replay buffer are reset; keys, epochs and frame counter stay. -/
def resetLink (s : State) (l : Nat) : State :=
  (odSet s (0x3000 + 0x20 * l) 0x01 0 2).updLink l (fun x =>
    { x with txSeq := 0, rxSeq := 0, replay := [], resend := 0, owed := 0, since := s.counter.gt, reach := od s 0x1C00 0x04 l })

/-- The effect of an L5 of a block. -/
def effectsL5 (s : State) (b : Nat) : State :=
  match b / 4096 with
  | 1 => s.updEngine (b % 4096) (fun _ => Engine.init)
  | 3 => if od s (0x5000 + b % 4096) 0x01 = 3 then odSet s (0x5000 + b % 4096) 0x01 0 1 else s
  | 4 => resetLink s (b % 4096)
  | 5 => odSet ((portQps s (b % 4096)).foldl qpError s) 0x1700 0x01 (b % 4096) 1
  | _ => s

/-! ### Episodes (R388, R389) -/

/-- The episode of the whole package, if one is in progress. -/
def wideEpisode (s : State) : Option Episode := s.episodes.find? (fun e => decide (e.level ≤ 2))

/-- A source's bit. -/
def srcBit (i : Nat) : BitVec 16 := BitVec.ofNat 16 (2 ^ i)

/-- A source added to those that hold an episode; its release sequence stops and starts again (R388). -/
def Episode.join (e : Episode) (source : Nat) : Episode :=
  { e with sources := if e.sources.contains source then e.sources else e.sources ++ [source],
           seen := e.seen ||| srcBit source, running := false, step := 0 }

/-- An episode of L2 or wider is shown in LAST_LEVEL and LAST_SOURCES (R404). -/
def showEpisode (s : State) : State :=
  match wideEpisode s with
  | some e => odSet (odSet s 0x1200 0x01 0 e.level) 0x1200 0x02 0 e.seen.toNat
  | none => s

/-- The assertion of L0, L1 or L2: it absorbs every episode in progress; together they are one episode of the widest level,
whose effects follow (R388; log 41). -/
def assertWide (level source : Nat) (s : State) : State :=
  let all := s.episodes
  let widest := all.foldl (fun a e => if e.level ≤ 2 then min a e.level else a) level
  let keep := match wideEpisode s with
    | some e => e.keep
    | none => od s 0x1200 0x08 == 1
  let e : Episode :=
    { level := widest, target := 0, sources := ((all.flatMap (·.sources)) ++ [source]).eraseDups,
      seen := all.foldl (fun a e => a ||| e.seen) (srcBit source), running := false, step := 0, keep := keep }
  let s := effectsWide widest { s with episodes := [] }
  let s := if all = [] then odSet s 0x1200 0x0B 0 (satAdd 64 (od s 0x1200 0x0B) 1) else s
  showEpisode { s with episodes := [e] }

/-- The assertion of L3A, L3B, L4 or L5: it joins the episode of its target, or that of the package (log 42), or an L5 that of
its block's partition, or starts one, with its effects; those of an L5 come at its release. -/
def assertNarrow (level target source : Nat) (s : State) : State :=
  let mine := fun (e : Episode) => decide (e.level ≤ 2) || (e.level == level && e.target == target) ||
    (level == 6 && e.level == 5 && some e.target == blockPart s target)
  if s.episodes.any mine then
    showEpisode { s with episodes := s.episodes.map (fun e => if mine e then e.join source else e) }
  else
    let e : Episode := { level := level, target := target, sources := [source], seen := srcBit source, running := false,
                         step := 0, keep := false }
    let s := odSet { s with episodes := s.episodes ++ [e] } 0x1200 0x0B 0 (satAdd 64 (od s 0x1200 0x0B) 1)
    match level with
    | 3 => effectsL3 0 s
    | 4 => effectsL3 1 s
    | 5 => effectsL4 s target
    | _ => s

/-- VDD_AON rises: what it kept, the trip record, is gone (R347; log 89). -/
def aonLost (s : State) : State := { s with thermal := { s.thermal with record := List.replicate 16 0 } }

/-- The assertion of a level for a target by a source; POR is VDD_AON rising (R385). -/
def assertLevel (source level target : Nat) (s : State) : State :=
  if level ≤ 2 then assertWide level source (if source = 0 then aonLost s else s) else assertNarrow level target source s

/-- An assertion that arrives during an OTP write pulse takes effect when the pulse ends (R389). -/
def assertReset (source level target : Nat) (s : State) : State :=
  if s.boot.writing.isSome then
    { s with boot := { s.boot with deferred := s.boot.deferred ++
        [{ source := source, level := level, target := target, released := false }] } }
  else assertLevel source level target s

/-- An assertion is counted, ignored ones too (R386, R404). -/
def countSource (s : State) (i : Nat) : State := odCount s 0x1200 0x03 i 32

/-- The pin of a level source (R385). -/
def setSourcePin (s : State) (source : Nat) (high : Bool) : State :=
  match source with
  | 1 => { s with pins := { s.pins with pwrGood := high } }
  | 2 => { s with pins := { s.pins with coldRstN := high } }
  | 3 => { s with pins := { s.pins with warmRstN := high } }
  | 4 => { s with pins := { s.pins with perstAN := high } }
  | 5 => { s with pins := { s.pins with perstBN := high } }
  | _ => s

/-- A reset source asserts, mapped through the source map (R385, R386). A function-level reset has the effects of R265, and a
map to L4 adds that level for a VF's partition. -/
def sourceAssert (source fn : Nat) (s : State) : State :=
  let s := setSourcePin s source false
  let s := if source = 10 then fnReset s fn else s
  let level := srcMap s source
  let s := if level = srcIgnore then s
    else if source = 10 then (if fn % 0x1000 = 0 then s else assertReset source level (fn % 0x1000 - 1) s)
    else assertReset source level 0 s
  countSource s source

/-- RESET_SOURCE_ASSERT. Source 8 asserts through EXEC RESET only. -/
def execResetSourceAssert (source fn : Nat) (s : State) : Host.Outcome State Fault Refusal :=
  if isSource source then
    if source = 10 then onFn fn s (sourceAssert source fn) else .next (if source = 8 then s else sourceAssert source fn s)
  else .refused (.noSuchUnit "reset source" source)

/-- FUNCTION_LEVEL_RESET (R265, R385). -/
def execFunctionLevelReset (fn : Nat) (s : State) : Host.Outcome State Fault Refusal := onFn fn s (sourceAssert 10 fn)

/-- The sequence's first step, less one: L0 and L1 run from step 1, L2 from step 3, L3A and L3B run step 10 (R390). -/
def firstStep (level : Nat) : Nat := match level with | 0 | 1 => 0 | 2 => 2 | _ => 9

/-- A source deasserts in an episode; the last one starts its release sequence (R388). -/
def Episode.deassert (e : Episode) (source : Nat) : Episode :=
  let left := e.sources.filter (· != source)
  if e.sources.contains source && left.isEmpty then
    { e with sources := [], running := true, step := firstStep e.level }
  else { e with sources := left }

/-- The release of one source in the episodes that `mine` picks. An episode whose sequence begins goes behind those whose began
before it, so that the first listed is released first (R388, R390). -/
def releaseSource (source : Nat) (mine : Episode → Bool) (s : State) : State :=
  let begins := fun (e : Episode) => mine e && !e.running && (e.deassert source).running
  let starts := s.episodes.any (fun e => decide (e.level ≤ 2) && begins e)
  let gt := if starts then s.counter.gt else s.boot.releaseGt
  let step := fun (e : Episode) => if mine e then e.deassert source else e
  { s with episodes := ((s.episodes.filter (fun e => !begins e)) ++ s.episodes.filter begins).map step,
           boot := { s.boot with releaseGt := gt } }

/-- The episodes that a source's release concerns: a function's reset only that of its partition. -/
def concerns (source fn : Nat) (e : Episode) : Bool :=
  source != 10 || decide (e.level ≤ 2) || some e.target == some (fn % 0x1000 - 1)

/-- A host port whose PERST rises trains where step 10 found it low and no episode holds the port (R390; log 44). -/
def lateHostPort (source : Nat) (s : State) : State :=
  let port := source - 4
  if (source = 4 ∨ source = 5) ∧ od s 0x1800 0x02 port = 0 ∧
      s.episodes.all (fun e => decide (e.level ≠ source - 1) && (decide (2 < e.level) || decide (10 ≤ e.step))) then
    odSet s 0x1800 0x02 port 1
  else s

/-- RESET_SOURCE_DEASSERT: the source no longer holds an episode, nor will it once an assertion that waits for an OTP pulse takes
effect (R388, R389). -/
def sourceDeassert (source fn : Nat) (s : State) : State :=
  let s := lateHostPort source (setSourcePin s source true)
  let wait := fun (d : Deferred) => d.source == source && (source != 10 || d.target == fn % 0x1000 - 1)
  releaseSource source (concerns source fn)
    { s with boot := { s.boot with
        deferred := s.boot.deferred.map (fun d => if wait d then { d with released := true } else d) } }

def execResetSourceDeassert (source fn : Nat) (s : State) : Host.Outcome State Fault Refusal :=
  if isSource source then .next (sourceDeassert source fn s) else .refused (.noSuchUnit "reset source" source)

/-- WARDEN_WATCHDOG_EXPIRE and KEEPER_WATCHDOG_EXPIRE (R385). -/
def execWardenWatchdogExpire (s : State) : Host.Outcome State Fault Refusal := .next (sourceAssert 6 0 s)
def execKeeperWatchdogExpire (s : State) : Host.Outcome State Fault Refusal := .next (sourceAssert 7 0 s)

/-! ### Release of L4 and L5 -/

/-- The episode of a level and target has no source left and ends. -/
def endEpisode (s : State) (level target : Nat) : State :=
  { s with episodes := s.episodes.filter (fun e => !(e.level == level && e.target == target)) }

/-- An episode that may be released. -/
def releasable (s : State) (level target : Nat) : Bool :=
  s.episodes.any (fun e => e.level == level && e.target == target && e.sources.isEmpty)

/-- L4_RELEASE: the partition is released OFF (R393). -/
def l4Release (p : Nat) (s : State) : State :=
  if releasable s 5 p then endEpisode s 5 p else s

def execL4Release (p : Nat) (s : State) : Host.Outcome State Fault Refusal := onPart p s (l4Release p)

/-- L5_RELEASE: the block is released with the effect of its reset (R393, R394). -/
def l5Release (b : Nat) (s : State) : State := if releasable s 6 b then effectsL5 (endEpisode s 6 b) b else s

def execL5Release (b : Nat) (s : State) : Host.Outcome State Fault Refusal :=
  if blockExists s b then .next (l5Release b s) else .refused (.noSuchUnit "block" b)

end Sys2Proof.Machine
end

