-- ==== Sys2Proof/Machine/Boot.lean ====
section
/-! DEFINITION. The release sequence, straps, secure boot, training and DEV_STATE (R389 to R403). -/
namespace Sys2Proof.Machine

/-! ### Firmware bundles (R396, R397) -/

/-- One image of a bundle as the ROM judges it: its TYPE, VERSION, IMAGE_RESULT (R405), and where it lies. -/
structure FwImage where
  type    : Nat
  version : Nat
  result  : Nat
  ofs     : Nat
  len     : Nat
  deriving DecidableEq, Repr, Inhabited

/-- MAGIC of an image header. -/
def fwMagic : Nat := 0x474D4957464C4443

/-- No firmware key is fused and the life cycle waives the key and SVN conditions. -/
def keysWaived (s : State) : Bool := decide (lcState s ≤ 1) && !fwKeyFused s 0 && !fwKeyFused s 1

/-- The header's fields that must be zero are. -/
def fwReservedZero (h : List Byte) : Bool :=
  leAt h 10 2 == 0 && leAt h 24 8 == 0 && leAt h 176 240 == 0

/-- A header that is one: MAGIC, TYPE, reserved fields, and a body that ends within the 16 MiB of a bundle. -/
def fwHeaderOk (h : List Byte) (ofs : Nat) : Bool :=
  leAt h 0 8 == fwMagic && decide (1 ≤ leAt h 8 1) && decide (leAt h 8 1 ≤ 3) && fwReservedZero h &&
    decide (ofs + 512 + leAt h 16 4 ≤ 16777216)

/-- The key condition: the hash of PUBKEY is that of the fused slot KEYIDX, and the slot is not revoked. -/
def fwKeyOk (s : State) (h : List Byte) : Bool :=
  let k := leAt h 9 1
  decide (k < 2) && fwKeyFused s k && !fwKeyRevoked s k && Crypto.sha384 (slice h 80 96) == fwKeyHash s k

/-- IMAGE_RESULT of an image (R405): 1 accepted, else the first condition of R397 that fails. -/
def fwResult (s : State) (ofs : Nat) (h body : List Byte) : Nat :=
  if !fwHeaderOk h ofs then 2
  else if !keysWaived s && !fwKeyOk s h then 3
  else if !Crypto.ecdsaVerify (slice h 80 96) (h.take 416) (slice h 416 96) then 4
  else if Crypto.sha384 body != slice h 32 48 then 5
  else if !keysWaived s && decide (leAt h 20 4 < svnMin s) then 6
  else 1

/-- The images of a bundle that `rd` reads, from offset `ofs` on: they end at a 4 KiB block of zeros or at 16 MiB, and no
image is sought behind a header that is none (log 52). -/
def fwImages (s : State) (rd : Nat → Nat → List Byte) : Nat → Nat → List FwImage
  | 0, _ => []
  | fuel + 1, ofs =>
    if 16777216 ≤ ofs ∨ (rd ofs 4096).all (· == 0) then []
    else
      let h := rd ofs 512
      let len := if fwHeaderOk h ofs then leAt h 16 4 else 0
      let m : FwImage := { type := leAt h 8 1, version := leAt h 12 4, result := fwResult s ofs h (rd (ofs + 512) len),
                           ofs := ofs, len := len }
      m :: (if fwHeaderOk h ofs then fwImages s rd fuel (4096 * ceilDiv (ofs + 512 + len) 4096) else [])

/-- The first image of a type. -/
def fwOf (ms : List FwImage) (t : Nat) : Option FwImage := ms.find? (fun m => m.type == t)

/-- An image of the type is accepted. -/
def fwAccepted (ms : List FwImage) (t : Nat) : Bool :=
  match fwOf ms t with
  | some m => m.result == 1
  | none => false

/-- A bundle is accepted only if its warden and keeper images are. -/
def bundleOk (ms : List FwImage) : Bool := fwAccepted ms 1 && fwAccepted ms 2

/-- Bytes of a bundle, to the end of its last image. -/
def bundleLen (ms : List FwImage) : Nat := ms.foldl (fun a m => max a (m.ofs + 512 + m.len)) 0

/-! ### Where a bundle comes from (R395, R397, R398) -/

/-- BOOT_SEL's host port, in the push modes. -/
def pushPort (s : State) : Option Nat :=
  if s.clocks.bootSel = 1 then some 0 else if s.clocks.bootSel = 2 then some 1 else none

/-- The network form serves the boot commands: BOOT_SEL 0b11, or both flash slots refused. -/
def networkForm (s : State) : Bool :=
  s.boot.devState == 0 && s.boot.waiting && (pushPort s).isNone

/-- The flash offset of slot A (0) or B (1). -/
def slotOfs (s : State) (slot : Nat) : Nat := if slot = 0 then 0x1000 else s.boot.flashSize / 2 + 0x1000

/-- Flash bytes of a slot; none past the end of the flash. -/
def readSlot (s : State) (slot ofs n : Nat) : List Byte :=
  fit n (s.boot.flash.readN 0 (slotOfs s slot + ofs) (min n (s.boot.flashSize - (slotOfs s slot + ofs))))

/-- Bytes of the boot buffer. -/
def readBuffer (s : State) (ofs n : Nat) : List Byte := s.boot.buffer.readN 0 ofs n

/-- The highest step released (R403): of an L0, L1 or L2 episode in its release sequence, or 12. -/
def highestStep (s : State) : Nat :=
  match wideEpisode s with
  | some e => e.step
  | none => 12

/-- Keepers start once step 9 has released them and their image is verified (R390); their version and digest show (R27). -/
def startKeepers (s : State) : State :=
  let rd := fun (o n : Nat) => slice s.boot.running o n
  match fwOf (fwImages s rd 4096 0) 2 with
  | some m =>
    if s.boot.running = [] ∨ highestStep s < 9 then s
    else
      let s := odSet s 0x1000 0x12 0 m.version
      let s := odSet s 0x1000 0x14 0 (leNat (Crypto.sha256 (rd m.ofs (512 + m.len))))
      { s with boot := { s.boot with keepersOk := true } }
  | none => s

/-- IMAGE_RESULT shows a bundle's results (R405). -/
def showResults (s : State) (ms : List FwImage) : State :=
  [1, 2, 3].foldl (fun s t =>
    odSet s 0x1300 0x04 t (match fwOf ms t with | some m => m.result | none => 0)) s

/-- The event that each acceptance logs while the key conditions are waived (R397). -/
def logWaived (s : State) (ms : List FwImage) : State :=
  if keysWaived s then
    (ms.filter (fun m => m.result == 1)).foldl (fun s m => logEvent s evKeyWaived 0 0 2 none m.type) s
  else s

/-- The trip record that the next start finds is logged (R347, R348). -/
def logTrip (s : State) : State :=
  let r := s.thermal.record
  if s.thermal.logged || r.all (· == 0) then s
  else logReason { s with thermal := { s.thermal with logged := true } } .pw 0x05 5 2 none (powerDetail (leAt r 6 1) (leAt r 5 1) (leAt r 7 1))

/-- A bundle accepted from a source: the warden firmware runs, DEV_STATE is NOT_READY (R392, R397, R398). -/
def acceptBundle (s : State) (ms : List FwImage) (bytes : List Byte) (source : Nat) : State :=
  let version := fun t => match fwOf ms t with | some m => m.version | none => 0
  let s := logWaived (showResults s ms) ms
  let s := odSet (odSet s 0x1300 0x01 0 source) 0x1000 0x11 0 (version 1)
  let mem := if fwAccepted ms 3 then some (version 3) else none
  startKeepers (logTrip { s with boot := { s.boot with running := bytes, memFw := mem, waiting := false, devState := 1 } })

/-- The ROM judges the bundle that `rd` reads: accepted from a source, or `refused` follows. -/
def judge (s : State) (rd : Nat → Nat → List Byte) (source : Nat) (refused : State → State) : State :=
  let ms := fwImages s rd 4096 0
  if bundleOk ms then acceptBundle s ms (rd 0 (bundleLen ms)) source else refused (logWaived (showResults s ms) ms)

/-- The bundle in the boot buffer is verified: RESULT is 2 or 3 (R398). -/
def verifyBuffer (s : State) : State :=
  let source := match pushPort s with | some k => 2 + k | none => 4
  let s := judge s (readBuffer s) source id
  { s with boot := { s.boot with result := if s.boot.devState = 0 then 3 else 2 } }

/-- The ROM can verify: it runs, straps are sampled, no firmware runs yet, and CLK_MODE is not reserved (R26, R390). -/
def romReady (s : State) : Bool :=
  s.boot.devState == 0 && s.clocks.clkMode != 3 &&
    (match wideEpisode s with
     | some e => e.level == 2 || (e.running && decide (2 ≤ e.step))
     | none => true)

/-- FIRMWARE_VERIFY: a bundle in the buffer for which GO was written, or slot A and then slot B; with both refused the ROM
waits for a written bundle (R397, R398). -/
def firmwareVerify (s : State) : State :=
  if !romReady s then s
  else if s.boot.result = 1 then verifyBuffer s
  else if s.clocks.bootSel = 0 ∧ s.boot.waiting = false then
    judge s (readSlot s 0) 0 (fun s => judge s (readSlot s 1) 1 (fun s => { s with boot := { s.boot with waiting := true } }))
  else s

def execFirmwareVerify (s : State) : Host.Outcome State Fault Refusal := .next (onWarden firmwareVerify s)

/-! ### The release sequence (R390) -/

/-- The last step that a sequence may release: 2 with a reserved CLK_MODE (R26), 3 in RETIRED (R402). -/
def lastStep (s : State) : Nat := if s.clocks.clkMode = 3 then 2 else if lcState s = 4 then 3 else 12

/-- PERST is high for a port that an episode of the level releases at step 10: for its own port, or in a wide sequence for
either (log 44). -/
def perstHigh (s : State) (level : Nat) : Bool :=
  if level = 3 then s.pins.perstAN else if level = 4 then s.pins.perstBN else s.pins.perstAN || s.pins.perstBN

/-- The condition of a step. -/
def stepCondition (s : State) (level n : Nat) : Bool :=
  if n = 4 then s.clocks.locked || s.clocks.clkMode == 1
  else if n = 10 then perstHigh s level
  else true

/-- The next step of an episode may be released. -/
def stepReady (s : State) (e : Episode) : Bool :=
  e.running && decide (e.level ≤ 4) && (decide (e.step + 1 ≤ 2) || decide (e.step + 1 ≤ lastStep s)) &&
    stepCondition s e.level (e.step + 1)

/-- Straps sampled, fuse shadow loaded, roll-forward (R395, R399, R401); a reserved CLK_MODE is logged (R26). -/
def releaseFuses (s : State) : State :=
  let c := { s.clocks with clkMode := s.pins.clkMode, bootSel := s.pins.bootSel }
  let s := { s with clocks := c, boot := { s.boot with map := otpRead s 0x02, waiting := s.pins.bootSel != 0 } }
  let s := odSet s 0x1200 0x04 0 (4 * c.clkMode.toNat + c.bootSel.toNat)
  let s := odSet s 0x1100 0x02 0 c.clkMode.toNat
  let s := odSet s 0x1100 0x01 0 (if c.clkMode = 1 then 100 else 6400)
  let s := rollForward s
  if c.clkMode = 3 then logEvent s evClkMode 0 0 2 none 0 else s

/-- The fate of a plot when tier 1 is lost under TIER1_KEEP = 0: it becomes a polder plot, or its object is freed (R384). -/
def loseTier1 (s : State) (p v : Nat) : State :=
  match s.plot p v with
  | some x =>
    if x.cur ≠ 1 then (if x.has1 then (giveFrame s p v 1).updPlot p v Plot.settled else s)
    else if x.has2 && x.dirty == 0 then
      (giveFrame s p v 1).updPlot p v (fun x => { x.settled with cur := 2 })
    else logEvent (dropObj s p x.obj) evFreed 0 0 1 (some p) x.obj
  | none => s

/-- Tier 1 is lost: its plots, its frames and the standby slots (R384). -/
def tier1Lost (s : State) : State :=
  let s := (List.range 8).foldl (fun s p => (partPlots s p).foldl (fun s e => loseTier1 s p e.1) s) s
  let s := { s with frames := s.frames.filter (fun e => e.1 / 2 ^ 20 % 4 != 1) }
  (List.range 64).foldl (fun s k => odSet s 0x1900 0x22 k 0) s

/-- HBM initialisation, or self-refresh exit, begins (R384); the training firmware that starts shows its version: the accepted
image's, or the one in ROM (R28, R397). -/
def releaseHbm (s : State) (e : Episode) : State :=
  let s := (List.range 8).foldl (fun s k =>
    if stackFitted s.boot.assembly k then odSet s (0x5010 + k) 0x01 0 1 else s) s
  let s := if e.level = 2 ∧ e.keep = false then tier1Lost s else s
  odSet s 0x1000 0x13 0 (s.boot.memFw.getD (od s 0x1000 0x10))

/-- DDR5 training begins; on L2 the channels that were in service are already leaving self-refresh (R384). -/
def releaseDdr (s : State) (level : Nat) : State :=
  if level = 2 then s
  else (List.range (numChannels s.boot.assembly)).foldl (fun s c => odSet s (0x5000 + c) 0x01 0 1) s

/-- Tier 0: every bank is written to zero. -/
def releaseTier0 (s : State) : State :=
  { s with cells := s.cells.map (fun (e : Nat × Cell) => (e.1, { e.2 with tier0 := Mem.zero })) }

/-- Host ports train: those of the sequence whose PERST is high (R390). -/
def releasePorts (s : State) (level : Nat) : State :=
  let s := if level = 4 ∨ s.pins.perstAN = false then s else odSet s 0x1800 0x02 0 1
  if level = 3 ∨ s.pins.perstBN = false then s else odSet s 0x1800 0x02 1 1

/-- Torus and switch ports listen, and the wait for the first acquisition begins (R313). -/
def releaseLinks (s : State) : State :=
  let s := (List.range 14).foldl (fun s l => if linkFitted s l then odSet s (0x3000 + 0x20 * l) 0x01 0 1 else s) s
  { s with counter := { s.counter with waitFrom := some s.counter.gt } }

/-- The effect of releasing a step for an episode. -/
def releaseEffect (s : State) (e : Episode) (n : Nat) : State :=
  match n with
  | 2 => releaseFuses s
  | 3 => { s with clocks := { s.clocks with pllOn := s.clocks.clkMode != 1 } }
  | 5 => releaseHbm s e
  | 6 => releaseDdr s e.level
  | 7 => releaseTier0 s
  | 9 => startKeepers s
  | 10 => releasePorts s e.level
  | 11 => releaseLinks s
  | 12 => [0, 1].foldl (fun s k => odSet s 0x1700 0x01 k 1) s
  | _ => s

/-- The sequence's last step: 10 for a port, else 12. -/
def finalStep (level : Nat) : Nat := if level = 3 ∨ level = 4 then 10 else 12

/-- RELEASE_STEP: the first episode whose next step may be released releases it; after its last step the episode ends. -/
def releaseStep (s : State) : State :=
  match s.episodes.find? (stepReady s) with
  | none => s
  | some e =>
    let n := e.step + 1
    let e' := { e with step := n }
    let s := releaseEffect { s with episodes := s.episodes.map (fun x => if x = e then e' else x) } e n
    if n = finalStep e.level then { s with episodes := s.episodes.filter (fun x => x != e') } else s

def execReleaseStep (s : State) : Host.Outcome State Fault Refusal := .next (onWarden releaseStep s)

/-! ### The drive of outputs (R391) -/

/-- The step that owns an output group: 0 warden, 1 flash, 2 DDR5, 3 PCIe, 4 torus and switch, 5 ingest. -/
def groupStep (group : Nat) : Nat := nth 12 [1, 2, 6, 10, 11, 12] group

/-- An output group is driven: high-impedance only while an L0 or L1 episode has not released the step that owns it. -/
def groupDriven (s : State) (group : Nat) : Bool :=
  match wideEpisode s with
  | some e => decide (2 ≤ e.level) || (e.running && decide (groupStep group ≤ e.step) &&
      !(group == 1 && s.clocks.bootSel != 0))
  | none => true

/-! ### OTP pulses (R389, R399, R400) -/

/-- The assertions that waited for a pulse take effect, and the rest of the write is abandoned. -/
def takeDeferred (s : State) : State :=
  let ds := s.boot.deferred
  if ds = [] then s
  else
    let s := ds.foldl (fun s d => assertLevel d.source d.level d.target s)
      { s with boot := { s.boot with writing := none, deferred := [] } }
    (ds.filter (·.released)).foldl (fun s d => releaseSource d.source (concerns d.source (d.target + 1)) s) s

/-- OTP_PULSE_END: the data and check bits, then the marker; a life-cycle state record follows its intent record, unless VDD_AON
has had a fault (R330, R401). -/
def otpPulseEnd (s : State) : State :=
  match s.boot.writing with
  | none => s
  | some w =>
    let g := otpGen s w.record w.gen
    let s := if w.pulses = 2 then setOtpGen s w.record w.gen { g with data := w.data }
             else setOtpGen s w.record w.gen { g with data := w.data, marker := 0xFF }
    let s := if w.pulses = 2 then
        let w' : OtpWrite := { w with pulses := 1 }
        { s with boot := { s.boot with writing := some w' } }
      else
        let s := { s with boot := { s.boot with writing := none } }
        match w.then_ with
        | some r => if s.power.aonFault then s else (otpBegin s r (lcData r) none).getD (setExhausted s r)
        | none => s
    takeDeferred s

def execOtpPulseEnd (s : State) : Host.Outcome State Fault Refusal := .next (otpPulseEnd s)

/-! ### Training (R180, R384, R390) -/

/-- Capacity of a DDR5 module and of a stack, in bytes (R180, R181, R216). -/
def moduleBytes (ch : Nat) : Nat := if Config.module128 ch then 128000000000 else 64000000000
def stackBytes (assembly : Nat) : Nat := if assembly = 5 then 16000000000 else 24000000000

/-- DDR5_TRAINING_DONE: a channel that trains goes in service, or out of it; with it out the plots' polder copies are lost (R180). -/
def ddr5TrainingDone (ch : Nat) (ok : Bool) (s : State) : State :=
  if od s (0x5000 + ch) 0x01 ≠ 1 then s
  else if ok then odSet (odSet s (0x5000 + ch) 0x01 0 2) (0x5000 + ch) 0x02 0 (moduleBytes ch)
  else
    let s := channelOut ch s
    match partOfChannel s ch with
    | some p => polderPlotsLost s p
    | none => s

def execDdr5TrainingDone (ch : Nat) (ok : Bool) (s : State) : Host.Outcome State Fault Refusal :=
  onUnit (decide (ch < numChannels s.boot.assembly)) "channel" ch s (onDerived (ddr5TrainingDone ch ok))

/-- HBM_INITIALISATION_DONE; the HBM3 interfaces do not train with an external root (R26). -/
def hbmInitialisationDone (k : Nat) (s : State) : State :=
  if od s (0x5010 + k) 0x01 = 1 ∧ s.clocks.clkMode ≠ 1 then
    odSet (odSet s (0x5010 + k) 0x01 0 2) (0x5010 + k) 0x02 0 (stackBytes s.boot.assembly)
  else s

def execHbmInitialisationDone (k : Nat) (s : State) : Host.Outcome State Fault Refusal :=
  onUnit (decide (k < 8) && stackFitted s.boot.assembly k) "stack" k s (onDerived (hbmInitialisationDone k))

/-- PCIE_TRAINING_DONE: the port is up; PORT_LINK holds the generation and log2 of the width (R296). -/
def execPcieTrainingDone (port gen width : Nat) (s : State) : Host.Outcome State Fault Refusal :=
  onUnit (isPort port) "port" port s (onDerived fun s =>
    if od s 0x1800 0x02 port = 1 then
      odSet (odSet s 0x1800 0x02 port 2) 0x1800 0x03 port (gen % 16 * 16 + Nat.log2 width)
    else s)

/-! ### DEV_STATE (R392) -/

/-- Every fitted channel's training or exit is complete. -/
def trained (s : State) : Bool :=
  (List.range (numChannels s.boot.assembly)).all (fun c => od s (0x5000 + c) 0x01 != 1)

/-- The wait for the first acquisition is over: done, ended, or free-run mode (R313). -/
def acquisitionOver (s : State) : Bool := s.counter.acquired || s.counter.waitOver || od s 0x1C00 0x21 == 0

/-- The conditions of ACCEPTING. -/
def mayAccept (s : State) : Bool :=
  s.boot.devState == 1 && (wideEpisode s).isNone && trained s && s.boot.keepersOk && acquisitionOver s

/-- DEV_STATE_ACCEPTING: START_MS is recorded, the boot buffer released, and the rings begin to give (R392, R398, R405). -/
def devStateAccepting (s : State) : State :=
  if mayAccept s then
    let s := odSet s 0x1300 0x05 0 ((s.counter.gt - s.boot.releaseGt) / 100000)
    let s := { s with boot := { s.boot with devState := 2, buffer := Mem.zero } }
    (List.range 8).foldl (fun s p => srSkip 1024 p (mcSkip 256 p s)) s
  else s

def execDevStateAccepting (s : State) : Host.Outcome State Fault Refusal := .next (onWarden devStateAccepting s)

/-- What STARTING carries (R403). -/
def startingStage (s : State) : Nat :=
  if s.clocks.clkMode = 3 ∧ highestStep s = 2 then 15
  else if s.boot.result = 1 then 14
  else if s.boot.waiting then 13
  else highestStep s

end Sys2Proof.Machine
end

