-- ==== Sys2Proof/Machine/Control.lean ====
section
/-! DEFINITION. The control class (R43, R44, R53 to R55): NOP to NRGREAD. -/
namespace Sys2Proof.Machine

/-- NOP: issue only (R53). -/
def execNop (c : Nat) (s : State) : Host.Outcome State Fault Refusal := issue 0x00 c (fun _ s => s) s

/-- END ends the firing and releases its slot, which is free for matching from the next fc (R39). -/
def endEffect (k : Issue) (s : State) : State :=
  s.updCell k.cell (fun x =>
    { x with firing := none, lastEnd := some k.fc, freed := k.slot,
             slots := match k.slot with | some n => x.slots.erase n | none => x.slots })

def execEndFiring (c : Nat) (s : State) : Host.Outcome State Fault Refusal := issue 0x01 c endEffect s

/-- A token's LEN; larger values are treated as 64 (R35). -/
def tokenLen (n : Nat) : Nat := min 64 n

/-- Bytes of `n` scalars from `S[a]` on, little-endian (R53). -/
def scalarBytes (f : Fold) (a : Nat) : Nat → List Byte
  | 0 => []
  | n + 1 => leBytes 8 (f.reg a).toNat ++ scalarBytes f (a + 1) n

/-- The payload that an EMIT sends; none when it names scratch past its end (R53, R55). R35 and R53 do not say what the bytes are of
a token without a payload source (SUB 0) and LEN above 0, nor those past a forwarded operand's LEN: zeros (log 100). -/
def emitPayload (k : Issue) (x : Cell) (len : Nat) : Option (List Byte) :=
  match fSub k.insn with
  | 1 => some (fit len (match operand x k.slot (fPort k.insn) with | some t => t.payload | none => []))
  | 2 => some ((scalarBytes (x.fold k.fold) (fA k.insn) (ceilDiv len 8)).take len)
  | 3 =>
    let a := nbits (fImm k.insn) 21 8 / 8 * 8
    if a + len ≤ 0x3000 then some (x.scratch.readN 0 a len) else none
  | _ => some (List.replicate len 0)

/-- A token leaves an EMIT or SELECT: a loopback route delivers it at e + 2, another waits for its injection (R32). -/
def sendToken (k : Issue) (t : Token) (s : State) : State :=
  s.updCell k.cell (fun x =>
    let r := nth 0 (x.fold k.fold).routes (fRoute k.insn)
    let t := { t with tag := tagx x k.fold k.tag k.insn, dfold := BitVec.ofNat 3 (routeFold r),
                      dport := BitVec.ofNat 2 (routePort r), src := k.cell }
    if routeOut r = 4 then { x with loopback := x.loopback ++ [(k.fc + 2, t)] }
    else { x with outbox := x.outbox ++ [{ fold := k.fold, route := r, issued := k.fc, tok := t }] })

/-- The token an EMIT sends: PRED its predicate, LAST and HALF those of a forwarded operand (R35, R43). -/
def emitToken (k : Issue) (x : Cell) (len : Nat) (payload : List Byte) : Token :=
  let o := if fSub k.insn = 1 then operand x k.slot (fPort k.insn) else none
  { tag := 0, pred := k.pred, last := (match o with | some t => t.last | none => false), len := len,
    half := (match o with | some t => t.half | none => 0), dfold := 0, dport := 0, kind := 0, src := k.cell, flow := 0,
    aux := (x.fold k.fold).reg (fB k.insn), payload := payload }

/-- EMIT: a token with PRED 0 under a false predicate, or nothing with SINKF (R43, R53). -/
def emitEffect (k : Issue) (s : State) : State :=
  if !k.pred && fSinkf k.insn then s
  else
    let x := s.cell k.cell
    let len := tokenLen (nbits (fImm k.insn) 6 0)
    match emitPayload k x len with
    | none => issueAbort k .ov 0x0A s
    | some bs => sendToken k (emitToken k x len bs) s

def execEmit (c : Nat) (s : State) : Host.Outcome State Fault Refusal := issue 0x02 c emitEffect s

/-- SELECT: the operand on PORT, or on port B[1:0] under a false predicate, sent on unchanged (R53). -/
def selectEffect (k : Issue) (s : State) : State :=
  if !k.pred && fSinkf k.insn then s
  else
    match operand (s.cell k.cell) k.slot (if k.pred then fPort k.insn else fB k.insn % 4) with
    | some t => sendToken k t s
    | none => s

def execSelect (c : Nat) (s : State) : Host.Outcome State Fault Refusal := issue 0x03 c selectEffect s

/-- SMOVI: S[D] = IMM (R53). -/
def smoviEffect (k : Issue) (s : State) : State := setS k (fD k.insn) (BitVec.ofNat 64 (fImm k.insn)) s

def execSmovi (c : Nat) (s : State) : Host.Outcome State Fault Refusal := issue 0x04 c smoviEffect s

/-- Scalar arithmetic modulo 2^64; shift counts are bits [7:0] of the count (R53, R55). -/
def alu (sub : Nat) (a b : Word) : Word :=
  let n := bits b 7 0
  match sub with
  | 0 => a + b
  | 1 => a - b
  | 2 => a * b
  | 3 => a &&& b
  | 4 => a ||| b
  | 5 => a ^^^ b
  | 6 => a <<< n
  | 7 => a >>> n
  | 8 => a.sshiftRight n
  | 9 => if a.slt b then a else b
  | 10 => if a.slt b then b else a
  | _ => 0

/-- SALU: S[D] = S[A] op S[B] (R53). -/
def saluEffect (k : Issue) (s : State) : State :=
  setS k (fD k.insn) (alu (fSub k.insn) (k.reg s (fA k.insn)) (k.src2 s)) s

def execSalu (c : Nat) (s : State) : Host.Outcome State Fault Refusal := issue 0x05 c saluEffect s

/-- Scalar comparison (R41, R53). -/
def compare (sub : Nat) (a b : Word) : Bool :=
  match sub with
  | 0 => a == b
  | 1 => a != b
  | 2 => a.slt b
  | 3 => a.ult b
  | 4 => a.sle b
  | 5 => a.ule b
  | 6 => tagPrecedes (a.setWidth 16) (b.setWidth 16)
  | _ => false

/-- SCMP: PR[D] = S[A] compared with S[B] (R53). -/
def scmpEffect (k : Issue) (s : State) : State :=
  setP k (fD k.insn) (compare (fSub k.insn) (k.reg s (fA k.insn)) (k.src2 s)) s

def execScmp (c : Nat) (s : State) : Host.Outcome State Fault Refusal := issue 0x06 c scmpEffect s

/-- Predicate operations (R53). -/
def predOp (sub : Nat) (a b : Bool) : Bool :=
  match sub with
  | 0 => a && b
  | 1 => a || b
  | 2 => a != b
  | _ => !a

/-- PMOV: PR[D] = PR[A] op PR[B] (R53). -/
def pmovEffect (k : Issue) (s : State) : State :=
  let f := (s.cell k.cell).fold k.fold
  setP k (fD k.insn) (predOp (fSub k.insn) (f.pred (fA k.insn % 8)) (f.pred (fB k.insn % 8))) s

def execPmov (c : Nat) (s : State) : Host.Outcome State Fault Refusal := issue 0x07 c pmovEffect s

/-- Bits [127:96] of a token's header (R35). -/
def headerTop (t : Token) : Nat :=
  t.dport.toNat + 4 * t.dfold.toNat + 32 * t.half.toNat + 128 * (t.len % 128) + 2 ^ 14 * ofBool t.last +
    2 ^ 15 * ofBool t.pred + 2 ^ 16 * t.tag.toNat

/-- What OPLD reads of an operand (R53); of a payload word past the operand's LEN, zeros (log 100). -/
def opldValue (k : Issue) (t : Token) : Nat :=
  match fSub k.insn with
  | 0 => leNat (slice t.payload (8 * (fImm k.insn % 8)) 8)
  | 1 => t.aux.toNat
  | _ => headerTop t

/-- OPLD: S[D] = a part of the operand on PORT (R53). -/
def opldEffect (k : Issue) (s : State) : State :=
  match operand (s.cell k.cell) k.slot (fPort k.insn) with
  | some t => setS k (fD k.insn) (BitVec.ofNat 64 (opldValue k t)) s
  | none => setS k (fD k.insn) 0 s

def execOpld (c : Nat) (s : State) : Host.Outcome State Fault Refusal := issue 0x08 c opldEffect s

/-- TAGRD: S[D] = the firing's tag (R53). -/
def tagrdEffect (k : Issue) (s : State) : State := setS k (fD k.insn) (k.tag.setWidth 64) s

def execTagrd (c : Nat) (s : State) : Host.Outcome State Fault Refusal := issue 0x09 c tagrdEffect s

/-- The scratch address S[A] + IMM[13:0] modulo 2^64, before its low three bits are ignored (R53, R55). -/
def scratchAddr (k : Issue) (s : State) : Nat :=
  (k.reg s (fA k.insn) + BitVec.ofNat 64 (nbits (fImm k.insn) 13 0)).toNat

/-- SPLD: S[D] = a scratch word; OV-0x0A past the scratch (R53, R55). -/
def spldEffect (k : Issue) (s : State) : State :=
  let a := scratchAddr k s
  if !k.pred then s
  else if 0x3000 ≤ a then issueAbort k .ov 0x0A s
  else setS k (fD k.insn) (BitVec.ofNat 64 (leNat ((s.cell k.cell).scratch.readN 0 (a / 8 * 8) 8))) s

def execSpld (c : Nat) (s : State) : Host.Outcome State Fault Refusal := issue 0x0A c spldEffect s

/-- SPST: a scratch word = S[B]; OV-0x0A past the scratch (R53, R55). -/
def spstEffect (k : Issue) (s : State) : State :=
  let a := scratchAddr k s
  if !k.pred then s
  else if 0x3000 ≤ a then issueAbort k .ov 0x0A s
  else
    let v := leBytes 8 (k.reg s (fB k.insn)).toNat
    s.updCell k.cell (fun x => x.wr k.fc rankSpst 3 (a / 8 * 8) v)

def execSpst (c : Nat) (s : State) : Host.Outcome State Fault Refusal := issue 0x0B c spstEffect s

/-- The generator's input state (R226). -/
def drawState (seed : List Byte) (step stream index : Nat) : List (BitVec 32) :=
  [0x61707865, 0x3320646E, 0x79622D32, 0x6B206574] ++
    (List.range 8).map (fun i => BitVec.ofNat 32 (leAt seed (4 * i) 4)) ++
    [BitVec.ofNat 32 (nbits index 34 3), BitVec.ofNat 32 step, BitVec.ofNat 32 (nbits step 63 32), BitVec.ofNat 32 stream]

/-- The word that a draw returns (R227). -/
def drawWord (seed : List Byte) (step stream index : Nat) : Nat :=
  leAt (Crypto.chachaBlock (drawState seed step stream index)) (8 * (index % 8)) 8

/-- CHADRAW: 64 bits of the job's generator, which is then busy for 8 fc, also under a false predicate (R226, R227). -/
def chadrawEffect (k : Issue) (s : State) : State :=
  let s := s.updCell k.cell (fun x => { x with genFree := k.fc + 8, genBusy := true })
  match (s.part k.part).job with
  | none => s
  | some j =>
    setS k (fD k.insn) (BitVec.ofNat 64 (drawWord (descSeed j.desc) (descStep j.desc)
      (bits (k.reg s (fA k.insn)) 31 0) (k.reg s (fB k.insn)).toNat)) s

def execChadraw (c : Nat) (s : State) : Host.Outcome State Fault Refusal :=
  issueFrom (fun s => (s.cell c).genFree) 0x0C (fun _ => true) c chadrawEffect s

/-- EY_STATE reads in service (R417, R418). -/
def entropyUp (s : State) : Bool := decide (od s 0x1E00 0x20 = 1)

/-- ENTDRAW: the next word of the die's buffer; EY-0x01 when the source has failed or the buffer is empty (R418). -/
def entdrawEffect (k : Issue) (s : State) : State :=
  let d := cellDie k.cell
  if !k.pred then s
  else match (if entropyUp s then Assoc.get (fun _ => []) s.entropy.buffers d else []) with
    | [] => issueAbort k .ey 0x01 s
    | w :: ws =>
      setS k (fD k.insn) w { s with entropy := { s.entropy with buffers := Assoc.set (fun _ => []) s.entropy.buffers d ws } }

def execEntdraw (c : Nat) (s : State) : Host.Outcome State Fault Refusal := issue 0x0D c entdrawEffect s

/-- GTREAD: S[D] = the global counter (R53). -/
def gtreadEffect (k : Issue) (s : State) : State := setS k (fD k.insn) (BitVec.ofNat 64 s.counter.gt) s

def execGtread (c : Nat) (s : State) : Host.Outcome State Fault Refusal := issue 0x0E c gtreadEffect s

/-- The accumulator that NRGREAD selects (R343). -/
def energyValue (s : State) (p n : Nat) : Nat :=
  if n = 0 then od s 0x1400 0x02
  else if n = 1 then partEnergy s p
  else if n = 2 then (match (s.part p).job with | some j => partEnergy s p - j.energy0 | none => 0)
  else if n = 3 then od s 0x1400 0x03
  else if 0x10 ≤ n ∧ n ≤ 0x1B then od s 0x1400 0x06 (n - 0x10)
  else 0

/-- NRGREAD: S[D] = an energy accumulator as of the last poll (R343). -/
def nrgreadEffect (k : Issue) (s : State) : State :=
  setS k (fD k.insn) (BitVec.ofNat 64 (energyValue s k.part (nbits (fImm k.insn) 7 0))) s

def execNrgread (c : Nat) (s : State) : Host.Outcome State Fault Refusal := issue 0x0F c nrgreadEffect s

/-- GENERATOR_FREE: the last of the generator's 8 fc ends (R227). -/
def execGeneratorFree (c : Nat) (s : State) : Host.Outcome State Fault Refusal :=
  onCell c s (fun s =>
    match partOfCell s c with
    | some p =>
      if (s.cell c).genBusy then
        atFc s p ((s.cell c).genFree - 1) (fun s => s.updCell c (fun x => { x with genBusy := false }))
      else s
    | none => s)

end Sys2Proof.Machine
end

