-- ==== Sys2Proof/Machine/Preempt.lean ====
section
/-! DEFINITION. Pre-emption (R288 to R294): requests, the freeze, the drain and the refill. -/
namespace Sys2Proof.Machine

/-! ### PREEMPT_REQUEST -/

/-- PREEMPT_REQUEST: PREEMPT written by a holder of SEM(8 + p), which keeps GO and MODE and with GO requests a pre-emption
(R268, R289). -/
def preemptRequest (src p : Nat) (v : Word) (s : State) : State :=
  if mayGuard s src p then
    let s := s.updPart p (fun x => { x with preReg := v.setWidth 2 })
    if bit v 0 then requestPreempt s p (bit v 1) else s
  else s

def execPreemptRequest (src p : Nat) (v : Word) (s : State) : Host.Outcome State Fault Refusal :=
  onSrcPart src p s (onDerived (preemptRequest src p v))

/-- PREEMPT_STAT (R289). -/
def preemptStat (x : Part) : Nat :=
  x.preCode.toNat * 2 ^ 56 + ofBool x.preVoid * 2 ^ 55 + ofBool x.fellBack * 2 ^ 54 + x.freezeFc % 2 ^ 54

/-! ### FREEZE -/

/-- Every cell of the partition is at a cheap point: a cell without a record always is (R290). -/
def allCheap (s : State) (p : Nat) : Bool :=
  (partListed s p).all (fun c => let x := s.cell c; !x.record || x.cheap)

/-- The hold's time so far when a freeze interrupts it (R322). -/
def pauseHold (s : State) (h : Hold) : Hold := { since := s.counter.gt, spent := h.spent + (s.counter.gt - h.since) }

/-- The partition is frozen at its present fc, and DRAINING (R288, R291, R334). -/
def freezeNow (s : State) (p : Nat) (cheap fellBack : Bool) : State :=
  let s := spillAdjust s p true
  let s := s.updPart p (fun x =>
    { x with preempt := none, freezing := some { fc := x.fc, cheap := cheap }, freezeFc := x.fc, fellBack := fellBack,
             hold := x.hold.map (pauseHold s) })
  setPState s p .draining

/-- FREEZE: a pending request freezes the job: at any fabric cycle in MODE 0 or after the cheap-point wait, otherwise where
every cell is at a cheap point (R290). A job that a fault has stopped, or that is quiescent, is not frozen (R294). -/
def freeze (p : Nat) (s : State) : State :=
  let x := s.part p
  match x.preempt with
  | some r =>
    if jobRuns x ∧ x.fault.isNone ∧ ¬(x.hold.isNone ∧ quiescent s p) then
      if !r.cheap || r.expired then freezeNow s p false r.expired
      else if allCheap s p then freezeNow s p true false
      else s
    else s
  | none => s

def execFreeze (p : Nat) (s : State) : Host.Outcome State Fault Refusal := onPart p s (onDerived (freeze p))

/-- CHEAP_POINT_TIMEOUT: CHEAP_FC fabric cycles have passed since the request; the freeze takes place in the next, as under
MODE 0 (R290). -/
def cheapPointTimeout (p : Nat) (s : State) : State :=
  match (s.part p).preempt with
  | some r =>
    if r.cheap ∧ r.expired = false then
      atFc s p (r.since + odForce s (0x2000 + 0x100 * p) 0x04 0 + 1) (fun s =>
        s.updPart p (fun x => { x with preempt := some { r with expired := true }, fellBack := true }))
    else s
  | none => s

def execCheapPointTimeout (p : Nat) (s : State) : Host.Outcome State Fault Refusal := onPart p s (cheapPointTimeout p)

/-! ### DRAIN_DONE -/

/-- What the drain saves of a partition (R154, R291): its cells with every read up to the last fc delivered made. -/
def drainRecord (s : State) (p : Nat) (j : Job) (f : Freeze) : Drained :=
  let x := s.part p
  { job := { j with preempts := j.preempts + 1 }, fc := f.fc, cheap := f.cheap,
    cells := (partListed s p).map (fun c => (c, (s.cell c).matrixTo f.fc)), engines := (partEngines s p).map (fun e => (e, s.engine e)),
    sync := s.sync.filter (fun e => syncInPart s p (e.1 / 4096) (e.1 % 4096)), flits := x.flits, syncOps := x.syncOps,
    transfers := x.transfers, hold := x.hold, overtaken := false, discard := false }

/-- DRAIN_DONE: once the egress accepted is written, the drain stands in the drain area and the job is held as drained; the
launch state is restored, and READY follows (R287, R288, R291, R292, R297). -/
def drainDone (p : Nat) (s : State) : State :=
  let x := s.part p
  match x.job, x.freezing with
  | some j, some f =>
    if x.state = .draining ∧ x.fault.isNone ∧ outfallEmpty s p then
      let d := drainRecord s p j f
      let s := s.updPart p (fun x =>
        { x with job := none, freezing := none, first := false, flits := [], syncOps := [], transfers := [], hold := none,
                 drained := some d })
      let b := 0x2000 + 0x100 * p
      let s := odSet s b 0x07 0 (satAdd 64 (od s b 0x07) 1)
      let s := odSet s b 0x09 0 f.fc
      let k := 3 * descClient j.desc + 2
      startRestore (odSet s 0x1800 0x10 k (satAdd 64 (od s 0x1800 0x10 k) 1)) p
    else s
  | _, _ => s

def execDrainDone (p : Nat) (s : State) : Host.Outcome State Fault Refusal := onPart p s (onDerived (drainDone p))

/-! ### The refill (R293) -/

/-- The ranges of a bank that a cheap-point drain saves: the live map in the scratch word at 0x2FF8 (R291). -/
def liveRanges (x : Cell) : List (Nat × Nat) :=
  let w := leNat (x.scratch.readN 0 0x2FF8 8)
  ([(nbits w 63 50, nbits w 49 36), (nbits w 35 22, nbits w 21 8)].map (fun r => (64 * r.1, 64 * r.2))).filterMap (fun r =>
    if r.1 < bankBytes ∧ r.2 ≠ 0 then some (r.1, min r.2 (bankBytes - r.1)) else none)

/-- The written pages of a bank (R291). -/
def pageRanges (x : Cell) : List (Nat × Nat) := ((List.range 168).filter (bit x.pages)).map (fun i => (4096 * i, 4096))

/-- The tier-0 ranges of a cell that a drain saves (R291). -/
def savedRanges (cheap : Bool) (x : Cell) : List (Nat × Nat) := if cheap then liveRanges x else pageRanges x

/-- Ranges of one memory copied into another at the same addresses. -/
def copyRanges (src : Mem) (rs : List (Nat × Nat)) (dst : Mem) : Mem :=
  rs.foldl (fun m r => m.writeN 0 r.1 (src.readN 0 r.1 r.2)) dst

/-- A cell scanned in: its saved bytes over what the load list has placed in its bank; other bytes of the bank are undefined
(R293). -/
def refillCell (d : Drained) (loads : List (BitVec 128)) (s : State) (e : Nat × Cell) : State :=
  let (n, s) := s.fresh
  let placed := (loads.filter (fun l => leCell l == e.1)).map (fun l => (leAddr l, leLen l))
  let base := copyRanges (s.cell e.1).tier0 placed (Mem.undef n)
  s.setCell e.1 { e.2 with tier0 := copyRanges e.2.tier0 (savedRanges d.cheap e.2) base }

/-- The drained job's state scanned in (R154, R291, R293). -/
def scanIn (s : State) (p : Nat) (d : Drained) (loads : List (BitVec 128)) : State :=
  let s := (partListed s p).foldl (fun s c => s.updCell c (fun x => x.launch none)) s
  let s := d.cells.foldl (refillCell d loads) s
  let s := (partEngines s p).foldl (fun s e => s.updEngine e (fun _ => Engine.init)) s
  let s := d.engines.foldl (fun s e => s.updEngine e.1 (fun _ => e.2)) s
  let s := clearSync s p
  d.sync.foldl (fun s e => s.setSync (e.1 / 4096) (e.1 % 4096) e.2) s

/-- The partition BUSY with the drained job, its fabric still frozen; the spillway falls for its refill (R288, R334). -/
def resumeJob (s : State) (p : Nat) (d : Drained) : State :=
  let s := s.updPart p (fun x =>
    { x with job := some d.job, drained := none, fc := d.fc, first := true, flits := d.flits, syncOps := d.syncOps,
             transfers := d.transfers, hold := d.hold, fault := none, refilling := true })
  setPState (spillAdjust s p false) p .busy

/-- The partition may refill its drained job (R170, R191, R281, R288, R393). -/
def mayRefill (s : State) (p : Nat) : Bool :=
  let x := s.part p
  decide (x.state = .ready) && !x.restoring && !x.recheck && !x.disabling && x.prepared.isNone && !bit s.breach 7 && !partBlocked s p &&
    (awaitedQueue s p).isNone && ((headQueues x).filter (aboveDrained x)).isEmpty && !commitDue s p

/-- REFILL_START: the load list is executed again where another job has launched since, and the saved records are scanned in.
Lost data of the load list refuses the image as in FILLING and discards the job (log 31); uncorrectable data of the drain
area aborts it with JB-0x0C (R293). -/
def refillStart (p : Nat) (ecc : EccResult) (s : State) : State :=
  let x := s.part p
  match x.drained, x.image with
  | some d, some im =>
    if mayRefill s p ∧ d.discard = false then
      let loads := (readImage s p im.handle).loads
      match if d.overtaken then fillTier0 p none loads s else (s, none) with
      | (s, some c) =>
        refuseImage (finishDrained s p stCancelled (reasonCode .jb 0x09)) p 16
          { kind := 1, unit := c, fold := 0, sub := 0, code := 0x18 }
      | (s, none) =>
        let s := resumeJob (scanIn s p d loads) p d
        if ecc = .uncorrectable then abortJob s p .jb 0x0C (descCtx d.job.desc) false true else s
    else s
  | _, _ => s

def execRefillStart (p : Nat) (ecc : EccResult) (s : State) : Host.Outcome State Fault Refusal := onPart p s (onDerived (refillStart p ecc))

/-- The words that an engine's release buffer held are fetched again, and marked where they may no longer be released
(R154). -/
def refetch (s : State) (p e : Nat) : State :=
  s.updEngine e (fun x => { x with buffer := x.buffer.map (fun b =>
    if b.data.isSome then
      let m := wordFetch s p (nth 0 x.ingress b.entry) b.index .good
      b.fill m.1 m.2
    else b) })

/-- REFILL_RESUME: the release buffers are refetched, a hold resumes, and otherwise fabric cycle F + 1 is delivered (R293,
R322). -/
def refillResume (p : Nat) (s : State) : State :=
  let x := s.part p
  if x.state = .busy ∧ x.refilling ∧ x.fault.isNone ∧ clocksRun s ∧ !bit s.breach 7 then
    let s := (partEngines s p).foldl (fun s e => refetch s p e) s
    let s := s.updPart p (fun x => { x with refilling := false, hold := x.hold.map (fun h => { h with since := s.counter.gt }) })
    if (s.part p).hold.isSome then s else deliver 1 s
  else s

def execRefillResume (p : Nat) (s : State) : Host.Outcome State Fault Refusal := onPart p s (refillResume p)

end Sys2Proof.Machine
end

