-- ==== Sys2Proof/Machine/Torus.lean ====
section
/-! DEFINITION. Moving data between packages: transfers, arrivals, holds and notices (R304, R306, R307, R317 to R325). -/
namespace Sys2Proof.Machine

/-! ### The jobs that a frame or a message may be for -/

/-- A partition's jobs with a torus plan: the running one (true) and the drained one (false). -/
def planJobs (s : State) (p : Nat) : List (Bool × Job × Plan) :=
  let x := s.part p
  let one := fun (live : Bool) (j : Job) => (jobPlan s p j).toList.map (fun pl => (live, j, pl))
  (match x.job with | some j => one true j | none => []) ++
    (match x.drained with | some d => one false d.job | none => [])

/-- Those that still take data: no fault has stopped the running one. -/
def liveJobs (s : State) (p : Nat) : List (Bool × Job × Plan) :=
  (planJobs s p).filter (fun j => !j.1 || (s.part p).fault.isNone)

/-- The progress of an entry of the running or the drained job. -/
def transferAt (s : State) (p : Nat) (live : Bool) (chan : Nat) : Transfer :=
  let x := s.part p
  if live then x.transfer chan
  else match x.drained with
    | some d => { x with transfers := d.transfers }.transfer chan
    | none => x.transfer chan

/-- The progress of an entry changed. -/
def updTransferAt (s : State) (p : Nat) (live : Bool) (chan : Nat) (f : Transfer → Transfer) : State :=
  let t := f (transferAt s p live chan)
  s.updPart p (fun x =>
    if live then { x with transfers := x.transfers.insert chan t }
    else { x with drained := x.drained.map (fun d => { d with transfers := d.transfers.insert chan t }) })

/-- The sync object of an arrival: the partition's, or the drained job's saved one (log 47). -/
def arrivalAt (s : State) (p : Nat) (live : Bool) (die obj : Nat) : Word :=
  if live then s.syncObj die obj
  else match (s.part p).drained with
    | some d => Assoc.get (fun _ => 0) d.sync (4096 * die + obj)
    | none => 0

/-- Entries of a drained job that a saved object's COUNT triggers (R318). -/
def triggerSaved (s : State) (p : Nat) (pl : Plan) (die obj : Nat) (v : Word) : State :=
  pl.entries.foldl (fun s e =>
    if peOp e ≠ opRecv ∧ peTdie e = die ∧ peTobj e = obj ∧ peTcount e ≤ bits v 31 0 ∧
        (transferAt s p false (peChan e)).trigger.isNone then
      updTransferAt s p false (peChan e) (fun t => { t with trigger := some (s.part p).fc, value := BitVec.ofNat 32 (bits v 63 32) })
    else s) s

/-- The arrival object written. -/
def writeArrival (s : State) (p : Nat) (live : Bool) (pl : Plan) (die obj : Nat) (v : Word) : State :=
  if live then syncWrite s p die obj v
  else
    let s := s.updPart p (fun x => { x with drained := x.drained.map (fun d =>
      { d with sync := Assoc.set (fun _ => 0) d.sync (4096 * die + obj) v }) })
    triggerSaved s p pl die obj v

/-- COUNT of an arrival object increased by 1, and VALUE written for ALLMAX (R319). A COUNT that would pass 0xFFFF_FFFF
is a free value (log 54). -/
def countArrival (s : State) (p : Nat) (live : Bool) (pl : Plan) (e : BitVec 512) (value : Option (BitVec 32)) : State :=
  let old := arrivalAt s p live (peAdie e) (peAobj e)
  let (n, s) := s.fresh
  let count := if bits old 31 0 + 1 < 2 ^ 32 then bits old 31 0 + 1
    else leNat ((List.range 4).map (Config.freeByte n))
  let v := match value with | some v => v.toNat | none => bits old 63 32
  writeArrival s p live pl (peAdie e) (peAobj e) (BitVec.ofNat 64 (v * 2 ^ 32 + count))

/-! ### Ends of jobs by the torus (R322, R323, R325) -/

/-- The drained job of a partition ends by a task abort; a READY partition is HALTED (log 55). -/
def abortDrained (s : State) (p n detail : Nat) (notify : Bool) : State :=
  match (s.part p).drained with
  | none => s
  | some d =>
    let s := logReason s .lk n 3 0 (some p) detail
    let s := if notify then sendNotice s msgAbort p d.job else s
    let s := finishDrained (dropFrames s p) p stAbort (reasonCode .lk n)
    if (s.part p).state = .ready then setPState (s.updPart p (fun x => { x with stopped := false })) p .halted else s

/-- The running or the drained job aborted with an LK code. -/
def abortTorus (s : State) (p : Nat) (live : Bool) (n link plan : Nat) (notify : Bool) : State :=
  if live then abortJob s p .lk n (linkDetail link 0 plan) false notify
  else abortDrained s p n (linkDetail link 0 plan) notify

/-! ### Frames on their way (R300, R306, R307) -/

/-- The next hop of a frame crosses the dateline of its axis. -/
def crosses (s : State) (axis sign : Nat) : Bool :=
  let c := nodeCoord (ownNode s) axis
  if sign = 0 then c + 1 == ringSize s axis else c == 0

/-- The VC on which a frame leaves: 1 from the dateline of its axis on, 0 where it enters an axis (log 53). -/
def nextVc (s : State) (dst : Nat) (arrived : Option (Nat × BitVec 2)) : BitVec 2 :=
  match nextAxis s (ownNode s) dst with
  | none => 0
  | some (a, g) =>
    if crosses s a g then 1
    else match arrived with
      | some (axis, vc) => if axis = a then vc else 0
      | none => 0

/-- A frame queued on the link that serves its way; dropped and counted, with answer false, where both halves are down (R306;
log 93). -/
def queueFrame (s : State) (f : LinkFrame) (half : Nat) (arrived : Option (Nat × BitVec 2)) : State × Bool :=
  match wayOut s f.dest.toNat half with
  | none => ({ s with pathDrops := s.pathDrops + 1 }, false)
  | some l =>
    let f := { f with vc := nextVc s f.dest.toNat arrived }
    (s.updLink l (fun x => { x with waiting := x.waiting ++ [f] }), true)

/-- A data frame of a transfer (R300). -/
def dataFrame (p chan src dest ofs : Nat) (bs : List Byte) : LinkFrame :=
  { typ := 1, vc := 0, dest := BitVec.ofNat 18 dest, src := BitVec.ofNat 18 src, chan := BitVec.ofNat 8 chan,
    len := BitVec.ofNat 10 bs.length, ofs := BitVec.ofNat 28 ofs, lseq := 0, payload := bs, resent := 0, part := some p,
    held := none }

/-! ### Arrivals (R319, R320) -/

/-- Bytes that each member sends for an entry: a VALUE for ALLMAX, nothing for BARRIER. -/
def memberBytes (e : BitVec 512) : Nat := if peOp e = opAllmax then 4 else if peOp e = opBarrier then 0 else peLen e

/-- The operation is a collective that moves data. -/
def collective (e : BitVec 512) : Bool := peOp e == opAllsum || peOp e == opAllmax || peOp e == opAllgather

/-- Bytes of a member that have arrived. -/
def memberLanded (t : Transfer) (m : Nat) : Nat :=
  ((t.landed.filter (fun l => l.1 / 2 ^ 28 == m)).map (·.2)).sum

/-- All that an entry waits for has arrived. -/
def entryComplete (pl : Plan) (e : BitVec 512) (t : Transfer) : Bool :=
  if peOp e = opSend then false
  else if peOp e = opRecv then memberLanded t (pePeer e) == peLen e
  else if peOp e = opBarrier then (pl.members e).all (fun m => t.contrib.any (fun c => c.1 == m))
  else (pl.members e).all (fun m => memberLanded t m == memberBytes e)

/-- The contributions to one 512-byte unit of a collective. -/
def unitContribs (t : Transfer) (ofs : Nat) : List (List Byte) :=
  (t.contrib.filter (fun c => c.2.1 == ofs)).map (·.2.2)

/-- The element-wise sum of RAW contributions, 16 bytes an element, and its saturations (R92, R319). -/
def sumRaw (cs : List (List Byte)) (n : Nat) : List Byte × Nat :=
  (List.range n).foldl (fun (a : List Byte × Nat) i =>
    let zero : Sum := { sum := 0, nan := false, pinf := false, ninf := false, st := 0 }
    let z := (cs.map (fun c => leAt c (16 * i) 16)).foldl addRaw zero
    let y := clampInt z.sum (-(2 ^ 125)) (2 ^ 125 - 1)
    let spec := if z.nan || (z.pinf && z.ninf) then 1 else if z.pinf then 2 else if z.ninf then 3 else 0
    (a.1 ++ leBytes 16 (spec * 2 ^ 126 + toCode 126 y), a.2 + ofBool (decide (y ≠ z.sum)))) ([], 0)

/-- The sums of an ALLSUM written to its landing range, saturations counted (R319). -/
def landSum (s : State) (p : Nat) (e : BitVec 512) (t : Transfer) : State :=
  (List.range (ceilDiv (peLen e) 512)).foldl (fun s u =>
    let r := sumRaw (unitContribs t u) (min 512 (peLen e - 512 * u) / 16)
    odCount (objWrite s p (peDobj e) (peDofs e + 512 * u) r.1) 0x1C00 0x31 0 32 r.2) s

/-- The signed maximum of the contributions of an ALLMAX. -/
def maxValue (t : Transfer) : Option (BitVec 32) :=
  (t.contrib.map (fun c => (BitVec.ofNat 32 (leAt c.2.2 0 4) : BitVec 32))).foldl (fun a v =>
    match a with
    | none => some v
    | some b => some (if b.slt v then v else b)) none

/-- An entry whose bytes have all been written is counted once (R319). -/
def finishEntry (s : State) (p : Nat) (live : Bool) (pl : Plan) (e : BitVec 512) : State :=
  let t := transferAt s p live (peChan e)
  if t.counted || !entryComplete pl e t then s
  else
    let s := updTransferAt s p live (peChan e) (fun t => { t with counted := true })
    let s := if peOp e = opAllsum then landSum s p e t else s
    countArrival s p live pl e (if peOp e = opAllmax then maxValue t else none)

/-- A member's index in its group. -/
def memberIndex (pl : Plan) (e : BitVec 512) (m : Nat) : Nat := ((pl.members e).findIdx? (· == m)).getD 0

/-- A unit of a member's data written: into the landing range, or kept as a contribution. -/
def landUnit (s : State) (p : Nat) (live : Bool) (pl : Plan) (e : BitVec 512) (m ofs : Nat) (bs : List Byte) : State :=
  let s := updTransferAt s p live (peChan e) (fun t =>
    { t with landed := t.landed ++ [(m * 2 ^ 28 + ofs, bs.length)],
             contrib := if peOp e = opAllsum ∨ peOp e = opAllmax then t.contrib ++ [(m, ofs, bs)] else t.contrib })
  let s := if peOp e = opRecv then objWrite s p (peDobj e) (peDofs e + 512 * ofs) bs
    else if peOp e = opAllgather then
      objWrite s p (peDobj e) (peDofs e + memberIndex pl e m * peLen e + 512 * ofs) bs
    else s
  finishEntry s p live pl e

/-- The unit does not fit the entry: beyond LEN for a RECV, of another LEN for a collective (R325). -/
def unitMismatch (e : BitVec 512) (ofs n : Nat) : Bool :=
  if peOp e = opRecv then decide (peLen e < 512 * ofs + n) || n == 0
  else n != min 512 (memberBytes e - 512 * ofs) || n == 0

/-- A unit of a collective passed on along the ring, until it would return to its member (R319). -/
def passOn (s : State) (p : Nat) (pl : Plan) (e : BitVec 512) (m ofs : Nat) (bs : List Byte) : State × Bool :=
  let next := nextMember (pl.members e) (ownNode s)
  if collective e && next != m && next != ownNode s then
    queueFrame s (dataFrame p (peChan e) m next ofs bs) (ofs % 2) none
  else (s, true)

/-- A unit of a member's data arrives for an entry. -/
def landEntry (s : State) (p : Nat) (live : Bool) (pl : Plan) (e : BitVec 512) (m ofs : Nat) (bs : List Byte) : State :=
  let t := transferAt s p live (peChan e)
  if t.landed.any (fun l => l.1 == m * 2 ^ 28 + ofs) then s
  else if unitMismatch e ofs bs.length then abortTorus s p live 0x0D 0 pl.planId true
  else
    let (s, ok) := passOn s p pl e m ofs bs
    let s := landUnit s p live pl e m ofs bs
    if ok then s else abortTorus s p live 0x01 0 pl.planId true

/-- The entry that takes data of a channel from a node: a RECV from it, or a collective of which it is a member. -/
def takes (pl : Plan) (chan m : Nat) (e : BitVec 512) : Bool :=
  peChan e == chan && ((peOp e == opRecv && pePeer e == m) || (collective e && (pl.members e).contains m))

/-- The job of a partition and its entry that take data of a channel from a node. -/
def taker (s : State) (p chan m : Nat) : Option (Bool × Plan × BitVec 512) :=
  (liveJobs s p).findSome? (fun j => (j.2.2.entries.find? (takes j.2.2 chan m)).map (fun e => (j.1, j.2.2, e)))

/-- Data of a channel arrives at a partition; data that no entry takes is discarded. -/
def landData (s : State) (p chan m ofs : Nat) (bs : List Byte) : State :=
  match taker s p chan m with
  | some (live, pl, e) => landEntry s p live pl e m ofs bs
  | none => s

/-- TRANSFER_ARRIVAL: data lands for an entry; with the last of it the arrival is counted (R319, R320). -/
def execTransferArrival (p chan m ofs : Nat) (bs : List Byte) (s : State) : Host.Outcome State Fault Refusal :=
  onPart p s (onDerived fun s => landData s p chan m ofs bs)

/-- A data frame that has reached its node: it lands in the first partition whose plan takes it. -/
def landFrame (s : State) (f : LinkFrame) : State :=
  match (List.range 8).find? (fun p => (taker s p f.chan.toNat f.src.toNat).isSome) with
  | some p => landData s p f.chan.toNat f.src.toNat f.ofs.toNat (f.payload.take f.len.toNat)
  | none => s

/-! ### TRANSFER_START (R318, R319) -/

/-- The first entry that has triggered and not been sent. -/
def dueEntry (s : State) (p : Nat) (pl : Plan) : Option (BitVec 512) :=
  pl.entries.find? (fun e =>
    let t := (s.part p).transfer (peChan e)
    peOp e != opRecv && t.trigger.isSome && !t.sending)

/-- The bytes that this node sends for an entry: its source range, or the VALUE of ALLMAX as it stood at the trigger. -/
def sourceBytes (s : State) (p : Nat) (e : BitVec 512) : List Byte :=
  if peOp e = opAllmax then leBytes 4 ((s.part p).transfer (peChan e)).value.toNat
  else objRead s p (peSobj e) (peSofs e) (peLen e)

/-- The source range holds data that is lost: poisoned, or found uncorrectable by the reads (R199, R223; log 94). -/
def sourceLost (s : State) (p : Nat) (e : BitVec 512) (ecc : EccResult) : Bool :=
  peOp e != opAllmax && peOp e != opBarrier && (ecc == .uncorrectable ||
    (match s.obj p (peSobj e) with | some x => poisoned s p (objAddr x (peSofs e)) (peLen e) | none => false))

/-- A SEND finds that no RECV of its peer's plan takes its channel: on the own node no partition's plan does; of another node
`lacks` says so (R325; log 84). -/
def recvLacking (s : State) (e : BitVec 512) (lacks : Bool) : Bool :=
  peOp e == opSend &&
    (if pePeer e = ownNode s then (List.range 8).all (fun q => (taker s q (peChan e) (ownNode s)).isNone) else lacks)

/-- One unit sent to a node; where the node is the own one, a SEND's lands in the partition whose plan takes it (R319). -/
def sendUnit (p : Nat) (e : BitVec 512) (dest : Nat) (a : State × Bool) (u : Nat × List Byte) : State × Bool :=
  let (s, ok) := a
  if dest = ownNode s then
    (if peOp e = opSend then landFrame s (dataFrame p (peChan e) (ownNode s) dest u.1 u.2) else s, ok)
  else
    let r := queueFrame s (dataFrame p (peChan e) (ownNode s) dest u.1 u.2) (u.1 % 2) none
    (r.1, ok && r.2)

/-- The 512-byte units of a byte string. -/
def unitsOf : Nat → Nat → List Byte → List (Nat × List Byte)
  | 0, _, _ => []
  | n + 1, i, bs => if bs = [] then [] else (i, bs.take 512) :: unitsOf n (i + 1) (bs.drop 512)

/-- The bodies of the BARRIER messages of an entry, to every other member; its own contribution is at hand. -/
def sendBarrier (s : State) (p : Nat) (pl : Plan) (e : BitVec 512) : State :=
  let others := (pl.members e).filter (fun m => m != ownNode s)
  let s := others.foldl (fun s m => sendMsg s msgBarrier m (leBytes 8 pl.planId ++ leBytes 1 (peChan e))) s
  let s := updTransferAt s p true (peChan e) (fun t => { t with contrib := t.contrib ++ [(ownNode s, 0, [])] })
  finishEntry s p true pl e

/-- An entry's transfer: its units in order of OFS; a collective's own units land here too. Lost source data ends the job with
MM-0x09, a peer without a RECV with LK-0x0D, a way that is down in both halves with LK-0x01 (R223, R306, R325). -/
def startEntry (s : State) (p addr : Nat) (ecc : EccResult) (lacks : Bool) (pl : Plan) (e : BitVec 512) : State :=
  let s := updTransferAt s p true (peChan e) (fun t => { t with sending := true })
  if peOp e = opBarrier then sendBarrier s p pl e
  else if recvLacking s e lacks then abortTorus s p true 0x0D 0 pl.planId true
  else if sourceLost s p e ecc then
    abortJob (countPlotEcc s p (addr / plotBytes) (addr % plotBytes) ecc) p .mm 0x09 (memDetail addr (peSobj e)) false true
  else
    let s := if peOp e = opAllmax then s else countPlotEcc s p (addr / plotBytes) (addr % plotBytes) ecc
    let bs := sourceBytes s p e
    let us := unitsOf (bs.length / 512 + 1) 0 bs
    let (s, ok) := us.foldl (sendUnit p e ((entryTo s pl e).getD (ownNode s))) (s, true)
    let s := updTransferAt s p true (peChan e) (fun t => { t with sent := us.length })
    let s := if collective e then us.foldl (fun s u => landUnit s p true pl e (ownNode s) u.1 u.2) s else s
    if ok then s else abortTorus s p true 0x01 0 pl.planId true

/-- TRANSFER_START: once the egress that the engines have accepted is written (R318); `addr` is where the reads of the source
range found an error. -/
def transferStart (p addr : Nat) (ecc : EccResult) (lacks : Bool) (s : State) : State :=
  match s.plan p with
  | none => s
  | some pl =>
    match dueEntry s p pl with
    | some e => if (s.part p).fault.isNone ∧ outfallEmpty s p then startEntry s p addr ecc lacks pl e else s
    | none => s

def execTransferStart (r : TransferRead) (s : State) : Host.Outcome State Fault Refusal :=
  onPart r.part s (onDerived (transferStart r.part r.addr r.ecc r.peerLacks))

/-! ### Holds (R320, R322) -/

/-- HOLD_RELEASE: at the first pace step at which both conditions hold, fabric cycle t + 9 is delivered (R320). -/
def holdRelease (p : Nat) (s : State) : State :=
  let x := s.part p
  if jobRuns x ∧ x.hold.isSome ∧ x.fault.isNone ∧ clocksRun s ∧ s.clocks.edge = 0 ∧ arrivalsMet s p then
    deliver 1 ((closeArrivals s p).updPart p (fun x => { x with hold := none }))
  else s

def execHoldRelease (p : Nat) (s : State) : Host.Outcome State Fault Refusal := onPart p s (holdRelease p)

/-- HOLD_LIMIT_EXPIRE: a hold that has lasted HOLD_LIMIT_GT aborts the job with LK-0x05. -/
def holdLimitExpire (p : Nat) (s : State) : State :=
  let x := s.part p
  match x.hold with
  | some h =>
    if jobRuns x ∧ od s 0x1C00 0x11 p ≤ h.spent + (s.counter.gt - h.since) then
      abortTorus s p true 0x05 0 (match s.plan p with | some pl => pl.planId | none => 0) true
    else s
  | none => s

def execHoldLimitExpire (p : Nat) (s : State) : Host.Outcome State Fault Refusal := onPart p s (holdLimitExpire p)

/-! ### Messages (R312, R319, R323) -/

/-- A privileged frame on a torus link is dropped, counted, and logged once per second with LK-0x0B. -/
def privDrop (s : State) (l : Nat) : State :=
  let s := odCount s 0x1C00 0x30 0 32
  let quiet := match s.privLogged with | some g => decide (s.counter.gt < g + 100000000) | none => false
  if quiet then s else { logReason s .lk 0x0B 0 0 none (linkDetail l 0 0) with privLogged := some s.counter.gt }

/-- A message on a link: only on a switch link that is up, and the first of its two copies only. -/
def onMessage (l src msg : Nat) (f : State → State) (s : State) : State :=
  if l < 12 then privDrop s l
  else if linkState s l ≠ 4 ∧ linkState s l ≠ 5 then s
  else if s.seenMsgs.contains (src, msg) then { s with seenMsgs := s.seenMsgs.erase (src, msg) }
  else f { s with seenMsgs := s.seenMsgs ++ [(src, msg)] }

/-- LAUNCH_MSG_RECV: to the keepers' launch mailbox, which stands behind the 64 mailboxes of a package. -/
def execLaunchMsgRecv (l src msg : Nat) (body : List Byte) (s : State) : Host.Outcome State Fault Refusal :=
  onLink l s (onMessage l src msg (fun s => { s with mailbox := s.mailbox ++ [(64, body)] }))

/-- KEEPER_MSG_RECV: 512 bytes to a keeper mailbox. -/
def execKeeperMsgRecv (l src msg mailbox : Nat) (body : List Byte) (s : State) : Host.Outcome State Fault Refusal :=
  if mailbox < 64 then
    onLink l s (onMessage l src msg (fun s => { s with mailbox := s.mailbox ++ [(mailbox, fit 512 body)] }))
  else .refused (.noSuchUnit "mailbox" mailbox)

/-- A member's BARRIER contribution for a partition's job (R319). -/
def barrierIn (src plan chan : Nat) (s : State) (p : Nat) : State :=
  (liveJobs s p).foldl (fun s j =>
    match j.2.2.entries.find? (fun e => peChan e == chan && peOp e == opBarrier && (j.2.2.members e).contains src) with
    | some e =>
      if j.2.2.planId = plan ∧ ¬ (transferAt s p j.1 chan).contrib.any (fun c => c.1 == src) then
        finishEntry (updTransferAt s p j.1 chan (fun t => { t with contrib := t.contrib ++ [(src, 0, [])] })) p j.1 j.2.2 e
      else s
    | none => s) s

/-- BARRIER_MSG_RECV. -/
def execBarrierMsgRecv (l src msg : Nat) (plan : Word) (chan : Nat) (s : State) : Host.Outcome State Fault Refusal :=
  onLink l s (onMessage l src msg (fun s => (List.range 8).foldl (barrierIn src plan.toNat chan) s))

/-- The jobs that a notice names: partition and whether it runs (R323). -/
def noticeJobs (s : State) (plan step : Nat) : List (Nat × Bool) :=
  (List.range 8).flatMap (fun p =>
    ((planJobs s p).filter (fun j => j.2.2.planId == plan && descStep j.2.1.desc == step)).map (fun j => (p, j.1)))

/-- A notice aborts the matching jobs without a notice of their own; one that matches none is counted. -/
def takeNotice (l n plan step : Nat) (s : State) : State :=
  match noticeJobs s plan step with
  | [] => odCount s 0x1C00 0x32 0 32
  | js => js.foldl (fun s j => abortTorus s j.1 j.2 n l plan false) s

/-- ABORT_MSG_RECV. -/
def execAbortMsgRecv (l src msg : Nat) (plan step : Word) (s : State) : Host.Outcome State Fault Refusal :=
  onLink l s (onMessage l src msg (takeNotice l 0x06 plan.toNat step.toNat))

/-- BREACH_MSG_RECV. -/
def execBreachMsgRecv (l src msg : Nat) (plan step : Word) (s : State) : Host.Outcome State Fault Refusal :=
  onLink l s (onMessage l src msg (takeNotice l 0x07 plan.toNat step.toNat))

end Sys2Proof.Machine
end

