-- ==== Sys2Proof/Machine/Links.lean ====
section
/-! DEFINITION. Links: frames and their protection, replay, credits, training (R300 to R311, R325, R385). -/
namespace Sys2Proof.Machine

/-! ### Frames (R300, R308) -/

/-- The 16 bytes of a frame header with the frame counter it is sent under. -/
def frameHeader (f : LinkFrame) (counter : Nat) : List Byte :=
  leBytes 16 (f.typ.toNat * 2 ^ 124 + f.vc.toNat * 2 ^ 122 + f.dest.toNat * 2 ^ 104 + f.src.toNat * 2 ^ 86 +
    f.chan.toNat * 2 ^ 78 + f.len.toNat * 2 ^ 68 + f.ofs.toNat * 2 ^ 40 + f.lseq.toNat * 2 ^ 16 + counter % 65536)

/-- The header's fields. -/
def parseFrame (h payload : List Byte) : LinkFrame :=
  let v := leNat (h.take 16)
  { typ := BitVec.ofNat 4 (nbits v 127 124), vc := BitVec.ofNat 2 (nbits v 123 122), dest := BitVec.ofNat 18 (nbits v 121 104),
    src := BitVec.ofNat 18 (nbits v 103 86), chan := BitVec.ofNat 8 (nbits v 85 78), len := BitVec.ofNat 10 (nbits v 77 68),
    ofs := BitVec.ofNat 28 (nbits v 67 40), lseq := BitVec.ofNat 24 (nbits v 39 16), payload := payload, resent := 0,
    part := none, held := none }

/-- The IV of a frame: epoch and frame counter, both big-endian. -/
def frameIv (k : Key) (counter : Nat) : List Byte := beBytes 4 k.epoch.toNat ++ beBytes 8 counter

/-- The 544 bytes of a frame. -/
def sealFrame (k : Key) (f : LinkFrame) (counter : Nat) : List Byte :=
  let h := frameHeader f counter
  h ++ Crypto.gcmSeal k.key (frameIv k counter) h (fit 512 f.payload)

/-- An idle frame, and a link-control frame of a kind (log 46). -/
def idleFrame : LinkFrame :=
  { typ := 0, vc := 0, dest := 0, src := 0, chan := 0, len := 1, ofs := 0, lseq := 0, payload := [], resent := 0, part := none,
    held := none }
def controlFrame (kind a b : Nat) : LinkFrame := { idleFrame with typ := 2, payload := Config.controlPayload kind a b }

/-! ### Sending (R302, R304, R308 to R310) -/

/-- The most frames sent under one key, and frames of a replay buffer. -/
def keyLimit : Nat := 2 ^ 40
def replayDepth : Nat := 2048

/-- At a frame whose counter is at or above SWITCH_AT, NEXT becomes CUR (R309). -/
def Link.switchTx (x : Link) : Link :=
  match x.txNext with
  | some k => if k.switchAt ≤ x.txFrames then { x with txCur := some k, txNext := none, txUnder := 0 } else x
  | none => x

/-- The credit that a frame needs: none for link control. -/
def Link.mayGo (x : Link) (f : LinkFrame) : Bool :=
  f.typ == 2 || (decide (x.replay.length < replayDepth) && decide (0 < nth 0 x.credits f.vc.toNat))

/-- What a waiting frame comes from, as the round robin of an output link goes through them: the virtual channel, and in it the
partitions that send locally, then forwarded and privileged frames (R304; log 95). -/
def LinkFrame.source (f : LinkFrame) : Nat := 9 * f.vc.toNat + (if f.held.isSome then 8 else f.part.getD 8)

/-- How many sources come before a frame's, after the one that was served last. -/
def Link.turnsTo (x : Link) (f : LinkFrame) : Nat := (f.source + 53 - x.turn) % 27

/-- The waiting frame that goes next: link control first, else the oldest of the source whose turn it is (R304). -/
def Link.pick (x : Link) : Option LinkFrame :=
  match x.waiting.find? (fun f => f.typ == 2) with
  | some f => some f
  | none =>
    match x.waiting.filter x.mayGo with
    | [] => none
    | f :: fs => some (fs.foldl (fun a b => if x.turnsTo b < x.turnsTo a then b else a) f)

/-- What goes next: an unacknowledged frame to be sent again, a waiting frame that has a credit, or an idle one; with the link
after it. -/
def Link.next (x : Link) : LinkFrame × Link :=
  if x.resend ≠ 0 then
    let i := x.replay.length - x.resend
    let f := nth idleFrame x.replay i
    (f, { x with replay := setNth x.replay i { f with resent := f.resent + 1 }, resend := x.resend - 1 })
  else
    match x.pick with
    | none => (idleFrame, x)
    | some f =>
      let x := { x with waiting := x.waiting.erase f }
      if f.typ = 2 then (f, x)
      else
        let f := { f with lseq := x.txSeq }
        (f, { x with txSeq := x.txSeq + 1, replay := x.replay ++ [{ f with held := none }], turn := f.source,
                     credits := setNth x.credits f.vc.toNat (nth 0 x.credits f.vc.toNat - 1) })

/-- The transmitter halts when 2^40 frames have gone under its key and it cannot switch (R310). -/
def haltTx (s : State) (l : Nat) : State :=
  let x := (s.link l).switchTx
  if keyLimit ≤ x.txUnder ∧ linkState s l = 4 then
    logReason (odSet s (0x3000 + 0x20 * l) 0x01 0 5) .lk 0x03 0 0 none (linkDetail l x.txFrames 0)
  else s

/-- A receive buffer of a link's virtual channel is free again: its credit is to be returned (R304). -/
def freeBuffer (s : State) (l : Nat) (vc : BitVec 2) : State :=
  s.updLink l (fun x => { x with returned := setNth x.returned vc.toNat (nth 0 x.returned vc.toNat + 1) })

/-- LINK_FRAME_SEND: the next frame goes out encrypted under the key in use, numbered, and sampled for the key mark; a forwarded
one leaves its receive buffer. -/
def linkFrameSend (l : Nat) (s : State) : State :=
  let x := (s.link l).switchTx
  match x.txCur with
  | none => s
  | some k =>
    if linkState s l ≠ 4 ∨ keyLimit ≤ x.txUnder then s
    else
      let (f, y) := x.next
      let s := if x.resend = 0 then s else odCount s (0x3000 + 0x20 * l) 0x0E 0 32
      let s := s.updLink l (fun _ => { y with txFrames := x.txFrames + 1, txUnder := x.txUnder + 1 })
      let s := match f.held with | some (l', vc) => freeBuffer s l' vc | none => s
      let s := s.send (.frame l (sealFrame k f x.txFrames))
      haltTx (markSample s (32 + l) (x.txUnder + 1)) l

def execLinkFrameSend (l : Nat) (s : State) : Host.Outcome State Fault Refusal := onLink l s (linkFrameSend l)

/-- LINK_ACK_SEND, after 64 frames or each 1 µs: a cumulative acknowledgement, also where no frame has come since the last, and
the credits of the buffers freed wait in link-control frames (R302, R304). -/
def linkAckSend (l : Nat) (s : State) : State :=
  let x := s.link l
  let cr := (List.range 3).filterMap (fun v =>
    if nth 0 x.returned v = 0 then none else some (controlFrame 3 v (nth 0 x.returned v)))
  s.updLink l (fun x =>
    { x with waiting := controlFrame 1 (x.rxSeq - 1).toNat 0 :: cr ++ x.waiting, owed := 0, returned := [0, 0, 0] })

def execLinkAckSend (l : Nat) (s : State) : Host.Outcome State Fault Refusal := onLink l s (linkAckSend l)

/-- LINK_REPLAY_TIMEOUT: every unacknowledged frame is sent again, the oldest first. -/
def linkReplayTimeout (l : Nat) (s : State) : State := s.updLink l (fun x => { x with resend := x.replay.length })

def execLinkReplayTimeout (l : Nat) (s : State) : Host.Outcome State Fault Refusal := onLink l s (linkReplayTimeout l)

/-! ### Receiving (R302, R303, R308, R309) -/

/-- The key under which a frame of a counter is checked, and whether it is NEXT. -/
def Link.rxKey (x : Link) (counter : Nat) : Option (Key × Bool) :=
  match x.rxNext with
  | some k => if k.switchAt ≤ counter then some (k, true) else x.rxCur.map (fun k => (k, false))
  | none => x.rxCur.map (fun k => (k, false))

/-- Consecutive rejected frames after which the full counter is exchanged (R308). -/
def resyncAfter : Nat := 32768

/-- The counter of a frame: the least from `rxFrom` on whose low bits are FCLOW; while the full counter is awaited, the one that a
link-control frame carries, if the direction has not passed it (R308; log 46). -/
def Link.rxCounter (x : Link) (bs : List Byte) : Nat :=
  if resyncAfter ≤ x.rejected ∧ leAt bs 15 1 / 16 = 2 ∧ x.rxFrom ≤ Config.fullCounter bs then Config.fullCounter bs
  else nextMod 65536 (leAt bs 0 2) x.rxFrom

/-- A frame opened: its counter, whether its key is NEXT, and its payload; none where its tag fails. -/
def Link.open_ (x : Link) (bs : List Byte) : Option (Nat × Bool × List Byte) :=
  if bs.length ≠ 544 then none
  else
    let c := x.rxCounter bs
    match x.rxKey c with
    | none => none
    | some (k, next) => (Crypto.gcmOpen k.key (frameIv k c) (bs.take 16) (bs.drop 16)).map (fun p => (c, next, p))

/-- Tag failures within 1 s from which on a link retrains (R303). -/
def tagLimit : Nat := 1001

/-- A frame that fails its tag; after 32,768 in a row the full counter is requested (R303, R308, R328). -/
def tagFail (s : State) (l : Nat) : State :=
  (odCount s (0x3000 + 0x20 * l) 0x0D 0 32).updLink l (fun x =>
    { x with tagRun := x.tagRun + 1, rejected := x.rejected + 1,
             tagTimes := (x.tagTimes ++ [s.counter.gt]).drop (x.tagTimes.length + 1 - tagLimit),
             waiting := if x.rejected + 1 = resyncAfter then controlFrame 6 0 0 :: x.waiting else x.waiting })

/-- A frame whose tag verifies. -/
def Link.authentic (x : Link) (c : Nat) (next : Bool) : Link :=
  let x := { x with rxFrom := c + 1, tagRun := 0, rejected := 0 }
  if next then { x with rxCur := x.rxNext, rxNext := none } else x

/-- Frames up to an LSEQ acknowledged. -/
def Link.acked (x : Link) (a : Nat) : Link :=
  match x.replay.findIdx? (fun f => f.lseq.toNat == a) with
  | some i => { x with replay := x.replay.drop (i + 1), resend := min x.resend (x.replay.length - (i + 1)) }
  | none => x

/-- What a link-control payload does (log 46): an acknowledgement, a negative one, credits, the full counter, a request for
it. -/
def Link.control (x : Link) (payload : List Byte) : Link :=
  match Config.readControl payload with
  | (1, a, _) => x.acked a
  | (2, a, _) =>
    let y := x.acked ((a + 2 ^ 24 - 1) % 2 ^ 24)
    { y with resend := y.replay.length }
  | (3, a, b) => { x with credits := setNth x.credits a (nth 0 x.credits a + b) }
  | (4, a, _) => { x with rxFrom := max x.rxFrom a }
  | (6, _, _) => { x with waiting := controlFrame 4 x.txFrames 0 :: x.waiting }
  | _ => x

/-- A data frame in order: it lands at its node, or goes on by the same half, standing in its receive buffer until it is sent;
and whether it stands there (R304, R306, R307). One whose way is down in both halves is dropped and counted; the jobs whose
transfers use the link here have ended as it went down (R325). -/
def routeFrame (s : State) (l : Nat) (f : LinkFrame) : State × Bool :=
  if 12 ≤ l then (s, false)
  else if f.dest.toNat = ownNode s then (landFrame s f, false)
  else queueFrame s { f with held := some (l, f.vc) } (linkHalf l) (some (axisRole s l / 2 % 4, f.vc))

/-- A frame out of order is dropped; one beyond the next expected is answered, once, with a negative acknowledgement (R302;
log 95). -/
def outOfOrder (s : State) (l : Nat) (f : LinkFrame) : State :=
  s.updLink l (fun x =>
    if (f.lseq - x.rxSeq).toNat < 2 ^ 23 ∧ x.nakFor ≠ some x.rxSeq then
      { x with waiting := controlFrame 2 x.rxSeq.toNat 0 :: x.waiting, nakFor := some x.rxSeq }
    else x)

/-- A numbered frame in order is passed on exactly once; any other is dropped (R302, R303, R312). -/
def numbered (s : State) (l : Nat) (f : LinkFrame) : State :=
  if f.lseq ≠ (s.link l).rxSeq then outOfOrder s l f
  else
    let s := s.updLink l (fun x => { x with rxSeq := x.rxSeq + 1, owed := x.owed + 1, nakFor := none })
    let r := if f.typ = 3 then (if l < 12 then privDrop s l else s, false) else routeFrame s l f
    if r.2 then r.1 else freeBuffer r.1 l f.vc

/-- LINK_FRAME_RECV, with the corrected and the uncorrectable codewords that its FEC has counted since the last: a frame that
touches an uncorrectable one fails its tag (R301). -/
def linkFrameRecv (l corrected uncorrectable : Nat) (bs : List Byte) (s : State) : State :=
  if linkState s l ≠ 4 ∧ linkState s l ≠ 5 then s
  else
    let s := odCount (odCount s (0x3000 + 0x20 * l) 0x0B 0 32 corrected) (0x3000 + 0x20 * l) 0x0C 0 32 uncorrectable
    match if uncorrectable = 0 then (s.link l).open_ bs else none with
    | none => tagFail s l
    | some (c, next, payload) =>
      let f := parseFrame bs payload
      let s := s.updLink l (fun x => x.authentic c next)
      if f.typ = 2 then s.updLink l (fun x => x.control payload)
      else if f.typ = 1 ∨ f.typ = 3 then numbered s l f
      else s

def execLinkFrameRecv (l : Nat) (a : LinkArrival) (s : State) : Host.Outcome State Fault Refusal :=
  onLink l s (linkFrameRecv l a.corrected a.uncorrectable a.bytes)

/-- SWITCH_PORT_RESET: a RESET link-control frame on link 12 or 13 that is authentic under the link's CUR key (R385). -/
def switchPortReset (l : Nat) (bs : List Byte) (s : State) : State :=
  if l < 12 ∨ (linkState s l ≠ 4 ∧ linkState s l ≠ 5) then s
  else
    match (s.link l).open_ bs with
    | none => tagFail s l
    | some (c, next, payload) =>
      let f := parseFrame bs payload
      let s := s.updLink l (fun x => x.authentic c next)
      if f.typ = 2 ∧ (Config.readControl payload).1 = 5 then sourceAssert 9 0 s else s

def execSwitchPortReset (l : Nat) (bs : List Byte) (s : State) : Host.Outcome State Fault Refusal :=
  onLink l s (switchPortReset l bs)

/-! ### Training (R303, R311, R325) -/

/-- A cause of R303 is present. -/
def causePresent (s : State) (l : Nat) (cause : RetrainCause) : Bool :=
  let x := s.link l
  match cause with
  | .lockLoss => true
  | .tagRun => decide (16 ≤ x.tagRun)
  | .tagRate => decide (tagLimit ≤ x.tagTimes.length) && x.tagTimes.all (fun t => decide (s.counter.gt < t + 100000000))
  | .replayOverflow => x.replay.any (fun f => decide (64 ≤ f.resent))

/-- LINK_RETRAIN: LSEQ, the replay buffer, the counters and the keys are kept; the training takes the reach class that stands
now. A link in self-test retrains as it loses bit lock (R299, R303). -/
def linkRetrain (l : Nat) (cause : RetrainCause) (s : State) : State :=
  let st := linkState s l
  if (st = 3 ∨ st = 4 ∨ st = 5 ∨ (st = 7 ∧ cause = .lockLoss)) ∧ causePresent s l cause then
    let s := odCount (odSet s (0x3000 + 0x20 * l) 0x01 0 2) (0x3000 + 0x20 * l) 0x0A 0 32
    let s := match cause with
      | .tagRun | .tagRate => logReason s .lk 0x02 0 0 none (linkDetail l (s.link l).txFrames 0)
      | .replayOverflow => logReason s .lk 0x0C 0 0 none (linkDetail l (s.link l).txFrames 0)
      | .lockLoss => s
    s.updLink l (fun x =>
      { x with since := s.counter.gt, reach := od s 0x1C00 0x04 l, tagRun := 0, tagTimes := [], rejected := 0, resend := x.replay.length,
               replay := x.replay.map (fun f => { f with resent := 0 }) })
  else s

def execLinkRetrain (l : Nat) (cause : RetrainCause) (s : State) : Host.Outcome State Fault Refusal :=
  onLink l s (linkRetrain l cause)

/-- A link with valid CUR keys in both directions is up, or HALTED where its transmitter has used up its key; without them it
shows KEYWAIT (R310, R311). -/
def keyWait (s : State) (l : Nat) : State :=
  let x := s.link l
  odSet s (0x3000 + 0x20 * l) 0x01 0
    (if !(x.txCur.isSome && x.rxCur.isSome) then 3 else if keyLimit ≤ x.switchTx.txUnder then 5 else 4)

/-- No frame stands any longer in the receive buffers of a link that starts anew. -/
def dropHeld (s : State) (l : Nat) : State :=
  { s with links := s.links.map (fun (e : Nat × Link) => (e.1, { e.2 with
      waiting := e.2.waiting.map (fun f => match f.held with
        | some (l', _) => if l' = l then { f with held := none } else f
        | none => f) })) }

/-- LINK_TRAIN_DONE, which no link reaches in the fabric-bypass mode (R26): self-test in class LOOP; a link that was down starts LSEQ again with an empty replay buffer; the full
counter is exchanged (R299, R303, R308, R311). -/
def linkTrainDone (l : Nat) (s : State) : State :=
  let st := linkState s l
  let reach := if st = 2 then (s.link l).reach else od s 0x1C00 0x04 l
  if st = 1 ∨ st = 2 ∨ st = 6 then
    let s := if st = 6 then
        (dropHeld s l).updLink l (fun x =>
          { x with txSeq := 0, rxSeq := 0, replay := [], resend := 0, owed := 0, returned := [0, 0, 0], nakFor := none,
                   credits := Link.init.credits })
      else s
    if reach = 0 then odSet s (0x3000 + 0x20 * l) 0x01 0 7
    else keyWait (s.updLink l (fun x => { x with waiting := controlFrame 4 x.txFrames 0 :: x.waiting, rejected := resyncAfter })) l
  else s

def execLinkTrainDone (l : Nat) (s : State) : Host.Outcome State Fault Refusal :=
  onLink l s (fun s => if linkFitted s l ∧ s.clocks.clkMode ≠ 1 then linkTrainDone l s else s)

/-- An entry's transfer by way of a link has not finished: an arrival is not counted, or frames of a SEND have not gone or are
not acknowledged (R325; log 56). -/
def entryOpen (s : State) (p : Nat) (live : Bool) (l : Nat) (e : BitVec 512) : Bool :=
  let t := transferAt s p live (peChan e)
  if peOp e = opSend then
    !t.sending || ((s.link l).waiting ++ (s.link l).replay).any (fun f => f.part == some p && f.chan.toNat == peChan e)
  else !t.counted

/-- LINK_DOWN_TIMEOUT: the link is down, and the jobs whose transfers are routed over it end with LK-0x01. -/
def linkDownTimeout (l : Nat) (s : State) : State :=
  if linkState s l = 2 ∧ (s.link l).since + od s 0x1C00 0x06 ≤ s.counter.gt then
    let jobs := (List.range 8).flatMap (fun p => ((liveJobs s p).filter (fun j =>
      j.2.2.entries.any (fun e => entryUses s j.2.2 l e && entryOpen s p j.1 l e))).map (fun j => (p, j.1, j.2.2.planId)))
    let s := odSet s (0x3000 + 0x20 * l) 0x01 0 6
    jobs.foldl (fun s j => abortTorus s j.1 j.2.1 0x01 l j.2.2 true) s
  else s

def execLinkDownTimeout (l : Nat) (s : State) : Host.Outcome State Fault Refusal := onLink l s (linkDownTimeout l)

/-! ### Keys (R309 to R311) -/

/-- A key entry's bytes: key, epoch, and SWITCH_AT of a NEXT slot (R328). -/
def readKey (bs : List Byte) : Key :=
  { key := slice bs 0 32, epoch := BitVec.ofNat 32 (leAt bs 32 4), switchAt := leAt bs 36 8 }

/-- A NEXT slot refuses a key: its epoch is not above CUR's, or the slot holds one that has not been switched to (R309). -/
def nextRefused (cur next : Option Key) (k : Key) : Bool :=
  next.isSome || (match cur with | some c => decide (k.epoch.toNat ≤ c.epoch.toNat) | none => false)

/-- Whether the write of a link's key entry is refused; LK-0x04 is then logged. -/
def keyRefused (s : State) (l sub : Nat) (bs : List Byte) : Bool :=
  let x := s.link l
  if sub = 4 then nextRefused x.txCur x.txNext (readKey bs)
  else if sub = 6 then nextRefused x.rxCur x.rxNext (readKey bs)
  else false

/-- A key installed. KEYWAIT ends with valid CUR keys in both directions; a halted transmitter that can switch resumes. -/
def installKey (s : State) (l sub : Nat) (bs : List Byte) : State :=
  let k := readKey bs
  let s := s.updLink l (fun x =>
    match sub with
    | 3 => { x with txCur := some { k with switchAt := 0 }, txUnder := 0 }
    | 4 => { x with txNext := some k }
    | 5 => { x with rxCur := some { k with switchAt := 0 } }
    | _ => { x with rxNext := some k })
  let s := if linkState s l = 3 then keyWait s l else s
  if linkState s l = 5 ∧ (s.link l).switchTx.txUnder < keyLimit then odSet s (0x3000 + 0x20 * l) 0x01 0 4 else s

end Sys2Proof.Machine
end

