-- ==== Sys2Proof/Machine/Counter.lean ====
section
/-! DEFINITION. The global counter (R313 to R315) and the seconds that watermarks count in (R416). -/
namespace Sys2Proof.Machine

/-! ### States (R315) -/

/-- GC_STATE: 0 FREE, 1 ACQUIRING, 2 LOCKED, 3 HOLDOVER; GC_MODE: 0 free-run, 1 switch, 2 CTR_SYNC (R327). -/
def gcState (s : State) : Nat := od s 0x1C00 0x20
def gcMode (s : State) : Nat := od s 0x1C00 0x21

/-- The event of a change of the counter's state (R315; log 15). -/
def evGcState : Nat := 0x0B02

/-- A change of state is logged; a drop from LOCKED also logs LK-0x0E. -/
def setGc (s : State) (st : Nat) : State :=
  let old := gcState s
  if old = st then s
  else
    let s := logEvent (odSet s 0x1C00 0x20 0 st) evGcState 0 0 2 none st
    if old = 2 then logReason s .lk 0x0E 0 2 none 0 else s

/-- Root cycles of a gt, and the exchanges that the servo averages (R313, R314). -/
def rootPerGt : Int := 64
def servoLen : Nat := 16

/-- The state that the last 16 offsets give after the first acquisition: LOCKED while they lie within ±1 gt. -/
def judgeOffsets (s : State) : State :=
  let os := s.counter.offsets
  if s.counter.acquired then
    setGc s (if servoLen ≤ os.length ∧ os.all (fun o => decide (-rootPerGt ≤ o) && decide (o ≤ rootPerGt)) then 2 else 1)
  else s

/-! ### Acquisition and servo (R313, R314) -/

/-- The first acquisition sets the counter directly; what is left below a gt is slewed. -/
def acquire (s : State) (avg : Int) : State :=
  let root := rootPerGt * s.counter.gt - avg
  let gt := (root / rootPerGt).toNat
  let c := { s.counter with
    gt := gt, acquired := true, pending := none, slew := rootPerGt * gt - root, lastSlew := gt, lastSync := gt,
    offsets := s.counter.offsets.map (· - avg) }
  judgeOffsets { s with counter := c }

/-- No partition is BUSY or DRAINING. -/
def noneBusy (s : State) : Bool := s.parts.all (fun e => e.2.state != .busy && e.2.state != .draining)

/-- A late acquisition is applied at the first moment at which no partition is BUSY or DRAINING. -/
def applyPending (s : State) : State :=
  match s.counter.pending with
  | some avg => if noneBusy s then acquire s avg else s
  | none => s

/-- The average of a list of root cycles. -/
def average (l : List Int) : Int := l.sum / (l.length : Int)

/-- An average of 16 exchanges: the first acquires the counter, every later one is slewed; the frequency estimate is the
change since the last average (log 58). -/
def servo (s : State) (avg : Int) : State :=
  let s := odSet { s with counter := { s.counter with batch := 0, freq := avg - signed 32 (od s 0x1C00 0x22) } } 0x1C00 0x22 0
    (toCode 32 (clampInt avg (-(2 ^ 31)) (2 ^ 31 - 1)))
  if s.counter.acquired then
    { s with counter := { s.counter with
        slew := avg, lastSlew := if s.counter.slew = 0 then s.counter.gt else s.counter.lastSlew } }
  else if s.counter.waitOver then applyPending { s with counter := { s.counter with pending := some avg } }
  else acquire s avg

/-- An offset measured (R314, R315). -/
def takeOffset (s : State) (offset : Int) : State :=
  let os := (s.counter.offsets ++ [offset])
  let c := { s.counter with offsets := os.drop (os.length - servoLen), batch := s.counter.batch + 1 }
  let s := judgeOffsets { s with counter := c }
  if s.counter.batch = servoLen then servo s (average s.counter.offsets) else s

/-- ASYM of a switch link in root cycles (R327). -/
def asym (s : State) (l : Nat) : Int := signed 32 (od s 0x1C00 0x24 (l - 12))

/-- A message of the counter master on a link: only on a switch link that is up. -/
def fromMaster (l : Nat) (f : State → State) (s : State) : State :=
  if l < 12 then privDrop s l else if linkState s l ≠ 4 ∧ linkState s l ≠ 5 then s else f s

/-- SYNC_MSG_RECV: t1 of the master, and t2 and t3 of this package, in root cycles. The first copy of a SYNC counts; in switch
mode the package answers with DELAY_REQ (R312, R314). -/
def syncMsg (l : Nat) (t1 t2 t3 : Int) (s : State) : State :=
  if gcMode s = 0 ∨ s.counter.lastT1 = some t1 then s
  else
    let s := { s with counter := { s.counter with lastSync := s.counter.gt, lastT1 := some t1 } }
    if gcMode s = 1 then
      sendMsg { s with counter := { s.counter with exchange := some (l, t1, t2, t3) } } msgDelayReq Config.masterNode []
    else s

def execSyncMsgRecv (l : Nat) (t1 t2 t3 : Int) (s : State) : Host.Outcome State Fault Refusal :=
  onLink l s (fromMaster l (syncMsg l t1 t2 t3))

/-- DELAY_RESP_RECV: delay and offset of the exchange (R314). -/
def delayResp (l : Nat) (t4 : Int) (s : State) : State :=
  match s.counter.exchange with
  | some (l', t1, t2, t3) =>
    if l' ≠ l ∨ gcMode s ≠ 1 then s
    else
      let delay := ((t2 - t1) + (t4 - t3)) / 2 - asym s l
      let offset := (t2 - t1) - delay - 2 * asym s l
      let s := { s with counter := { s.counter with exchange := none } }
      takeOffset (odSet s 0x1C00 0x23 0 (toCode 32 delay)) offset
  | none => s

def execDelayRespRecv (l : Nat) (t4 : Int) (s : State) : Host.Outcome State Fault Refusal :=
  onLink l s (fromMaster l (delayResp l t4))

/-- CTR_SYNC_EDGE: the rising edge at a root cycle of this package, taken to occur at the named multiple of 2^20 gt of the
master less CTR_DELAY (R314). -/
def ctrSyncEdge (root : Int) (multiple : Word) (s : State) : State :=
  if gcMode s = 2 then takeOffset s (root - (rootPerGt * 2 ^ 20 * multiple.toNat - signed 32 (od s 0x1C00 0x25))) else s

def execCtrSyncEdge (root : Int) (multiple : Word) (s : State) : Host.Outcome State Fault Refusal :=
  .next (ctrSyncEdge root multiple s)

/-! ### GC_TICK (R313, R416) -/

/-- The count whose difference over a second a watermark samples: event-log entries, or corrected errors of a channel. -/
def secondCount (s : State) (w : Nat) : Nat := if w = 47 then od s 0x1E00 0x01 else od s (0x5000 + (w - 48)) 0x03

/-- One watermark at the end of a second. -/
def sampleSecond (s : State) (w : Nat) : State :=
  let now := secondCount s w
  let was := Assoc.get (fun w => if w = 47 then 1 else 0) s.lastSecond w
  markSample { s with lastSecond := s.lastSecond.insert w now } w ((now - was : Nat) : Int)

/-- The watermarks at the end of a second (R416). -/
def sampleSeconds (s : State) : State := (range 47 25).foldl sampleSecond s

/-- Periods slewed over the last ticks: one root cycle each, at most one in every 16 (R313). -/
def slewPeriods (s : State) : State :=
  let c := s.counter
  let k := min c.slew.natAbs ((c.gt - c.lastSlew) / 16)
  if k = 0 then s
  else
    let left := if c.slew < 0 then c.slew + k else c.slew - k
    odSet { s with counter := { c with slew := left, lastSlew := if left = 0 then c.gt else c.lastSlew + 16 * k } } 0x1C00 0x27 0
      (satAdd 64 (od s 0x1C00 0x27) k)

/-- The slots that the partitions which lend have lent over the ticks up to `gt`, counted (R205, R214; log 88). -/
def countLent (s : State) : State :=
  if (List.range 8).any (fun p => shapeOf s p != 0 && lends s p) then
    odCount s 0x1600 0x31 0 64 (Config.lentSlots s.counter.gt)
  else s

/-- GC_TICK: `n` WCLK edges; none once a trip has stopped the clocks (R22, R313, R346). -/
def gcTick (n : Nat) (s : State) : State :=
  if s.clocks.tripStop then s
  else
    let s := applyPending s
    let was := s.counter.gt
    let now := was + n
    let idle := decide (s.counter.slew = 0)
    let s := { s with counter := { s.counter with gt := now, lastSlew := if idle then now else s.counter.lastSlew } }
    let s := countLent (slewPeriods s)
    let m := now / 100000000 - was / 100000000
    let s := if m = 0 then s else sampleSeconds s
    if m ≤ 1 then s else sampleSeconds s

def execGcTick (n : Nat) (s : State) : Host.Outcome State Fault Refusal := .next (gcTick n s)

/-! ### Losing the master (R313, R315) -/

/-- GC_SYNC_LOSS: four SYNC periods of 16,384 gt with no SYNC. -/
def gcSyncLoss (s : State) : State :=
  if gcMode s ≠ 0 ∧ (gcState s = 1 ∨ gcState s = 2) ∧ s.counter.lastSync + 65536 ≤ s.counter.gt then
    setGc { s with counter := { s.counter with holdFrom := s.counter.gt } } 3
  else s

def execGcSyncLoss (s : State) : Host.Outcome State Fault Refusal := .next (gcSyncLoss s)

/-- GC_HOLDOVER_EXPIRE. -/
def gcHoldoverExpire (s : State) : State :=
  if gcState s = 3 ∧ s.counter.holdFrom + od s 0x1C00 0x26 ≤ s.counter.gt then setGc s 0 else s

def execGcHoldoverExpire (s : State) : Host.Outcome State Fault Refusal := .next (gcHoldoverExpire s)

/-- FIRST_ACQ_TIMEOUT: the wait that began at step 11 ends; the state stays FREE, and LK-0x0E is logged. -/
def firstAcqTimeout (s : State) : State :=
  match s.counter.waitFrom with
  | some w =>
    if gcMode s ≠ 0 ∧ ¬ s.counter.acquired ∧ ¬ s.counter.waitOver ∧ w + od s 0x1C00 0x28 ≤ s.counter.gt then
      logReason { s with counter := { s.counter with waitOver := true } } .lk 0x0E 0 2 none 0
    else s
  | none => s

def execFirstAcqTimeout (s : State) : Host.Outcome State Fault Refusal := .next (firstAcqTimeout s)

end Sys2Proof.Machine
end

