-- ==== Sys2Proof/Machine/Entropy.lean ====
section
/-! DEFINITION. The entropy source and its failure path (R417, R418). EY_STATE is 0x1E00.20: 0 STARTING, 1 in service, 2 retesting,
3 latched (R422). -/
namespace Sys2Proof.Machine

/-- EY_STATE. -/
def eyState (s : State) : Nat := od s 0x1E00 0x20

/-- 10 ms in gt: the wait before a retest. -/
def retestGt : Nat := 1000000

/-- Words that a die's buffer holds. -/
def dieBufferWords : Nat := 256

/-- A test fails: the die buffers and the block in delivery are discarded, EY-0x01 is logged, EY_FAILS counts, and a retest follows
in 10 ms. -/
def entropyFail (s : State) : State :=
  let s := odSet (odCount s 0x1E00 0x21 0 32) 0x1E00 0x20 0 2
  let s := { s with entropy := { s.entropy with buffers := [], words := 0, failGt := s.counter.gt } }
  logReason s .ey 0x01 0 2 none 0

/-- A retest has failed: the third in a row latches the source, with EY-0x03. -/
def retestFail (s : State) : State :=
  let s := entropyFail { s with entropy := { s.entropy with retests := s.entropy.retests + 1 } }
  if 3 ≤ s.entropy.retests then logReason (odSet s 0x1E00 0x20 0 3) .ey 0x03 0 2 none 0 else s

/-- ENTROPY_STARTUP_TEST: at a release of L0, L1 or L2, before any output. -/
def entropyStartupTest (pass : Bool) (s : State) : State :=
  if eyState s ≠ 0 then s
  else if pass then odSet s 0x1E00 0x20 0 1
  else entropyFail s

def execEntropyStartupTest (pass : Bool) (s : State) : Host.Outcome State Fault Refusal := .next (entropyStartupTest pass s)

/-- The 10 ms since the last failure are over. -/
def retestDue (s : State) : Bool := eyState s == 2 && decide (s.entropy.failGt + retestGt ≤ s.counter.gt)

/-- ENTROPY_HEALTH_FAIL: a continuous test fails; during a start-up test or a retest that test has failed. -/
def entropyHealthFail (s : State) : State :=
  match eyState s with
  | 0 | 1 => entropyFail s
  | 2 => if retestDue s then retestFail s else s
  | _ => s

def execEntropyHealthFail (s : State) : Host.Outcome State Fault Refusal := .next (entropyHealthFail s)

/-- ENTROPY_RETEST: 10 ms after a failure the start-up test runs again; passed, the source is in service and EY-0x02 is logged. -/
def entropyRetest (pass : Bool) (s : State) : State :=
  if !retestDue s then s
  else if pass then
    logReason (odSet { s with entropy := { s.entropy with retests := 0 } } 0x1E00 0x20 0 1) .ey 0x02 0 2 none 0
  else retestFail s

def execEntropyRetest (pass : Bool) (s : State) : Host.Outcome State Fault Refusal := .next (entropyRetest pass s)

/-- ENTROPY_BUFFER_FILL: a conditioned word into a die's buffer of 256; four words are a block of 256 bits, and EY_DRAWS counts the
blocks (R14, R422). -/
def entropyBufferFill (die : Nat) (w : Word) (s : State) : State :=
  let buf := Assoc.get (fun _ => []) s.entropy.buffers die
  if eyState s ≠ 1 ∨ dieBufferWords ≤ buf.length then s
  else
    let s := if s.entropy.words = 0 then odSet s 0x1E00 0x22 0 (od s 0x1E00 0x22 + 1) else s
    { s with entropy := { s.entropy with buffers := Assoc.set (fun _ => []) s.entropy.buffers die (buf ++ [w]),
                                         words := (s.entropy.words + 1) % 4 } }

def execEntropyBufferFill (die : Nat) (w : Word) (s : State) : Host.Outcome State Fault Refusal :=
  onUnit (decide (die < 4)) "die" die s (entropyBufferFill die w)

end Sys2Proof.Machine
end

