-- ==== Sys2Proof/Machine/Views.lean ====
section
/-! DEFINITION. What a read shows: principals (R360, R361), the object dictionary (R355 and the tables of every chapter),
the mirror's header and directory (R376, R377), and BAR0 (R267, R268). -/
namespace Sys2Proof.Machine

/-! ### Principals (R360, R361) -/

/-- The key of a principal that may open a session; none where R361 disables the principal or no key is installed. -/
def principalKey (s : State) (i : Nat) : Option (List Byte) :=
  if i < 2 then
    if lcState s ≤ 1 then (if i = 0 then some (List.replicate 32 0) else none)
    else if otpFused s (0x03 + i) then some (leBytes 32 (otpRead s (0x03 + i)).toNat) else none
  else if lcState s = 4 then none
  else s.mgmt.keys.find? i

/-- The role in force of a principal: 0 disabled, 1 observe, 2 operate, 3 custody (R381). -/
def principalRole (s : State) (i : Nat) : Nat :=
  if i < 2 then (if (principalKey s i).isNone then 0 else if lcState s = 4 then 1 else 3)
  else if lcState s = 4 then 0 else od s 0x1F00 0x10 i

/-- Sessions open of a principal. -/
def principalSessions (s : State) (i : Nat) : Nat := (s.mgmt.sessions.filter (fun e => e.2.principal == i)).length

/-- PRINCIPAL_STATE (R381). -/
def principalState (s : State) (i : Nat) : Nat :=
  ofBool (principalKey s i).isSome + 2 * ofBool (decide (i < 2)) +
    4 * ofBool (decide (i < 2) && otpFused s (0x03 + i)) + 8 * min 31 (principalSessions s i)

/-- Owner id of a session (R272, R367). -/
def sessionOwner (x : Session) : Nat := 0x4000 + bits x.sid 11 0

/-- The session that owns a semaphore. -/
def semSession (s : State) (n : Nat) : Option Session :=
  match semNow s n with
  | some k => (Assoc.values s.mgmt.sessions).find? (fun x => sessionOwner x == k.owner)
  | none => none

/-- MOR_PRINCIPAL (R374). -/
def morPrincipal (s : State) : Nat :=
  match semSession s 0 with
  | some x => x.principal
  | none => 0xFF

/-- A session slot as SESSIONS shows it (R381). -/
def sessionBytes (s : State) (slot : Nat) : Nat :=
  match s.mgmt.sessions.find? slot with
  | some x =>
    leNat (leBytes 4 x.sid.toNat ++ leBytes 1 x.principal ++ leBytes 1 x.role ++ leBytes 1 (ofBool x.enc) ++
      leBytes 1 x.port ++ leBytes 4 x.seq ++ leBytes 4 x.nseq ++ leBytes 8 x.opened ++ leBytes 8 x.last)
  | none => 0

/-! ### Events and watermarks (R410, R413, R414) -/

/-- The 256 bits of an event-log entry. -/
def eventWord (e : Event) : Nat :=
  e.seq * 2 ^ 192 + e.gt * 2 ^ 136 + e.code.toNat * 2 ^ 120 + e.reason.toNat * 2 ^ 104 + e.eclass.toNat * 2 ^ 101 +
    e.plane.toNat * 2 ^ 99 + ofBool e.part.isSome * 2 ^ 98 + e.part.getD 0 % 8 * 2 ^ 95 + e.detail.toNat

/-- Sequence number of the oldest entry held. -/
def oldestEvent (s : State) : Nat := max 1 (od s 0x1E00 0x01 - 4096)

/-- The 128 bits of a watermark record. -/
def markWord (m : Mark) : Nat :=
  toCode 64 m.extreme * 2 ^ 64 + m.count % 65536 * 2 ^ 48 + ofBool m.crossed * 2 ^ 47 + ofBool m.above * 2 ^ 45

/-- A read of a watermark's element by GET or TABLE_GET resets its record (R415). -/
def resetMark (s : State) (w : Nat) : State :=
  let m := s.mark w
  let m' : Mark := { m with crossed := false, count := 0, extreme := m.latest, noted := false }
  { s with marks := Assoc.set (fun _ => Mark.init) s.marks w m' }

/-! ### The dictionary as read -/

/-- A sluice table as a number; the default table where none is stored (R203). -/
def sluiceTable (s : State) (tier sub e : Nat) : Nat :=
  (List.range 256).foldl (fun a i => a + tableCode tier (od s 0x1600 sub e) i * 16 ^ i) 0

/-- The value of an entry that the part computes, where it does; otherwise the stored one. `index` is the family's first
index and `k` the member. -/
def viewComputed (s : State) (base k sub elem : Nat) : Option Nat :=
  match base, sub with
  | 0x1100, 0x03 => some (ofBool s.clocks.locked)
  | 0x1100, 0x05 => some s.clocks.pace
  | 0x1100, 0x27 => some (((List.range 4).map (spillOf s)).sum / 1000)
  | 0x1200, 0x05 => some (srcMap s elem)
  | 0x1200, 0x06 => some (lcState s)
  | 0x1200, 0x09 => some (otpState s elem)
  | 0x1200, 0x0A => some (if elem = 3 ∨ elem = 4 then 0 else (otpRead s elem).toNat)
  | 0x1200, 0x0C => some (ofBool (blockIdle s elem))
  | 0x1300, 0x02 => some (svnMin s)
  | 0x1300, 0x03 => some (ofBool (fwKeyFused s 0) + 2 * ofBool (fwKeyFused s 1) + 4 * ofBool (fwKeyRevoked s 0) +
      8 * ofBool (fwKeyRevoked s 1))
  | 0x1400, 0x14 => some s.thermal.ceiling
  | 0x1400, 0x16 => some (leNat s.thermal.record)
  | 0x1600, 0x02 => some (if shapeOf s elem = 0 then 0 else sliceSize s elem)
  | 0x1600, 0x03 => some (channelFrames s elem)
  | 0x1600, 0x10 =>
    some (match od s 0x1600 0x10 elem with
          | 0 => if shapeOf s (elem / 16) = 0 then 0 else tierFrames s (elem / 16) (elem % 2 + 1)
          | v + 1 => v)
  | 0x1600, 0x11 => some (usedFrames s (elem / 16) (elem / 2 % 8) (elem % 2 + 1))
  | 0x1600, 0x12 => some (match od s 0x1600 0x12 elem with | 0 => waysOn s (elem / 4) (elem % 4) | v + 1 => v)
  | 0x1600, 0x13 => some (match od s 0x1600 0x13 elem with | 0 => numWays s elem / 2 | v + 1 => v)
  | 0x1600, 0x20 => some (sluiceTable s 1 0x20 elem)
  | 0x1600, 0x21 => some (sluiceTable s 2 0x21 elem)
  | 0x1700, 0x11 => some (s.qp elem).state
  | 0x1800, 0x05 => some (semWord s elem 0).toNat
  | 0x1E00, 0x03 => some (match s.events.find? elem with | some e => eventWord e | none => 0)
  | 0x1E00, 0x04 => some (oldestEvent s)
  | 0x1E00, 0x10 => some (markWord (s.mark elem))
  | 0x1F00, 0x08 => some (morPrincipal s)
  | 0x1F00, 0x10 => some (principalRole s elem)
  | 0x1F00, 0x12 => some (principalState s elem)
  | 0x1F00, 0x20 => some (sessionBytes s elem)
  | 0x2000, 0x01 => some (partCtl (s.part k))
  | 0x2000, 0x02 => some (partStat (s.part k))
  | 0x3000, 0x07 =>
    let ep := fun (x : Option Key) => match x with | some c => c.epoch.toNat | none => 0
    some (ep (s.link k).txCur * 2 ^ 32 + ep (s.link k).rxCur)
  | 0x3000, 0x08 => some (s.link k).txFrames
  | 0x3000, 0x09 => some (s.link k).txUnder
  | 0x4000, 0x07 => some (spillOf s k / 1000)
  | _, _ => none

/-- What a read of an element shows: WO entries read as zero (R354). -/
def odView (s : State) (index sub elem : Nat) : Nat :=
  match findEntry index sub with
  | some e =>
    if e.acc = .wo then 0
    else (viewComputed s (family index).1 (family index).2 sub elem).getD (od s index sub elem)
  | none => 0

/-- The element counts of an entry. -/
def entryCount (e : Entry) : Nat := if e.table then e.count else 1

/-- Bytes of a value as MDP carries it: of a STRING the bytes it has (R353). -/
def valueBytes (e : Entry) (v : Nat) : List Byte :=
  if e.ty = .string then (leBytes 64 v).takeWhile (· != 0) else leBytes e.size v

/-- The 16-byte descriptor of an entry (R367, R377), with its offset and SEQ. -/
def descriptor (index sub : Nat) (e : Entry) (ofs seq : Nat) : List Byte :=
  leBytes 16 (index * 2 ^ 112 + sub * 2 ^ 104 + ofBool e.table * 2 ^ 103 + e.ty.code * 2 ^ 99 + e.acc.code * 2 ^ 96 +
    ofs % 2 ^ 32 * 2 ^ 64 + entryCount e * 2 ^ 32 + e.size % 2 ^ 16 * 2 ^ 16 + seq % 2 ^ 16)

/-! ### The mirror (R15, R376 to R378) -/

/-- The entry is mirrored: every one but the WO entries (R376). -/
def mirrored (e : Entry) : Bool := e.acc != .wo

/-- Bytes of a mirror slot (R353, R377). -/
def slotBytes (e : Entry) : Nat := 8 * ceilDiv e.size 8

/-- The mirror offset of an element: its entry's offset is the firmware's choice (R376; log 48). -/
def mirrorOfs (index sub elem : Nat) (e : Entry) : Nat := 8 * Config.mirrorSlot index sub + slotBytes e * elem

/-- The mirrored value and SEQ of an element, as last written by the warden. -/
def mirrorAt (s : State) (index sub elem : Nat) : Nat × Nat :=
  Assoc.get (fun k => (odDflt s.boot.assembly k, 0)) s.mirror (odKey index sub elem)

/-- The value of a mirror slot as a function reads it: a VF reads 0 in another partition's range (R266, R377). -/
def mirrorRead (s : State) (f index sub elem : Nat) : Nat :=
  let fam := family index
  if fam.1 = 0x2000 ∧ f % 0x1000 ≠ 0 ∧ fam.2 + 1 ≠ f % 0x1000 then 0 else (mirrorAt s index sub elem).1

/-- The SEQ of a mirror directory record: that of the entry, which counts the writes of every element of it. -/
def mirrorSeq (s : State) (index sub : Nat) : Nat := Assoc.get (fun _ => (0, 0)) s.mirror (odKey index sub (2 ^ 32 - 1)) |>.2

/-- The indexes that entries are documented under, ascending, each member of a family by itself (R352, R356). -/
def mirrorIndexes : List Nat :=
  [0x1000, 0x1100, 0x1200, 0x1300, 0x1400, 0x1500, 0x1600, 0x1700, 0x1800, 0x1900, 0x1A00, 0x1A10, 0x1A20, 0x1A30, 0x1A40,
   0x1C00, 0x1E00, 0x1F00] ++ (List.range 8).map (fun p => 0x2000 + 0x100 * p) ++
    (List.range 14).map (fun l => 0x3000 + 0x20 * l) ++ (List.range 4).map (fun d => 0x4000 + 0x100 * d) ++
    (List.range 24).map (fun c => 0x5000 + c)

/-- The mirrored entries in ascending order of index and subindex: the directory (R377; log 48). -/
def mirrorDirectory : List (Nat × Nat × Entry) :=
  mirrorIndexes.flatMap (fun i => (List.range 256).filterMap (fun sub =>
    ((findEntry i sub).filter mirrored).map (fun e => (i, sub, e))))

/-- DIR_OFS (R376). -/
def mirrorDirOfs : Nat := 0x40

/-- DATA_OFS: the offset of the first value. -/
def mirrorDataOfs : Nat := ((mirrorDirectory.map (fun r => mirrorOfs r.1 r.2.1 0 r.2.2)).min?).getD 0

/-- The 512 bits of the mirror's header (R376). -/
def mirrorHeader (s : State) : Nat :=
  s.mirrorGt * 2 ^ 256 + Config.mirrorLayout % 2 ^ 64 * 2 ^ 192 + mirrorDataOfs % 2 ^ 32 * 2 ^ 160 + mirrorDirOfs * 2 ^ 128 +
    mirrorDirectory.length * 2 ^ 96 + 2 ^ 64 + 0x315252494D4C4443

/-- The number of a directory record (R377). -/
def mirrorRecord (s : State) (r : Nat × Nat × Entry) : Nat :=
  leNat (descriptor r.1 r.2.1 r.2.2 (mirrorOfs r.1 r.2.1 0 r.2.2) (mirrorSeq s r.1 r.2.1))

/-- The slots of an entry hold a BAR2 offset. -/
def inSlots (ofs : Nat) (r : Nat × Nat × Entry) : Bool :=
  let b := mirrorOfs r.1 r.2.1 0 r.2.2
  decide (b ≤ ofs) && decide (ofs < b + slotBytes r.2.2 * entryCount r.2.2)

/-- An aligned 8-byte read of BAR2 by a function: the header, the directory, a word of a slot, and 0 at an address that is not
assigned (R15, R376, R377). -/
def bar2Read (s : State) (f ofs : Nat) : Nat :=
  let n := mirrorDirectory.length
  if ofs < mirrorDirOfs then mirrorHeader s / 2 ^ (8 * ofs) % 2 ^ 64
  else if ofs < mirrorDirOfs + 16 * n then
    match mirrorDirectory[(ofs - mirrorDirOfs) / 16]? with
    | some r => mirrorRecord s r / 2 ^ (8 * (ofs % 16)) % 2 ^ 64
    | none => 0
  else match mirrorDirectory.find? (inSlots ofs) with
    | some r =>
      let b := mirrorOfs r.1 r.2.1 0 r.2.2
      mirrorRead s f r.1 r.2.1 ((ofs - b) / slotBytes r.2.2) / 2 ^ (8 * ((ofs - b) % slotBytes r.2.2)) % 2 ^ 64
    | none => 0

/-! ### BAR0 (R267, R268) -/

/-- JOB_STAT. -/
def jobStat (x : Part) : Nat :=
  (match x.job with | some j => 2 ^ 63 + j.queue % 4 * 2 ^ 60 | none => 0) +
    (match x.drained with | some d => 2 ^ 62 + d.job.queue % 4 * 2 ^ 58 | none => 0)

/-- FC_COUNT. -/
def fcCount (x : Part) : Nat :=
  match x.job, x.drained with
  | some _, _ => x.fc
  | none, some d => d.fc
  | none, none => 0

/-- A word of a partition's block. -/
def blockRead (x : Part) (ofs : Nat) : Nat :=
  if 0x100 ≤ ofs ∧ ofs < 0x120 then (x.sq ((ofs - 0x100) / 8)).cfg.toNat
  else if 0x220 ≤ ofs ∧ ofs < 0x240 then (x.sq ((ofs - 0x220) / 8)).head
  else if 0x10000 ≤ ofs then (ringWord x ofs).toNat
  else
    match ofs with
    | 0x0 => partCtl x
    | 0x8 => partStat x
    | 0x10 => x.preReg.toNat
    | 0x18 => preemptStat x
    | 0x28 => jobStat x
    | 0x30 => fcCount x
    | 0x300 => x.cq.head
    | 0x308 => x.cq.tail
    | 0x408 => x.mc.head
    | 0x410 => x.mcc.head
    | 0x418 => x.mcc.tail
    | 0x508 => x.sr.head
    | 0x510 => x.sc.head
    | 0x518 => x.sc.tail
    | _ => 0

/-- A function reads a partition's block: PF0 every one, a VF its own, if the partition is formed (R264, R267). -/
def seesBlock (s : State) (f p : Nat) : Bool :=
  decide (p < 8) && shapeOf s p != 0 && (f % 0x1000 == 0 || f % 0x1000 == p + 1)

/-- BOOT_CTL and the boot window show on PF0 of the port that BOOT_SEL names, until the warden firmware runs (R398). -/
def showsBoot (s : State) (f : Nat) : Bool :=
  s.boot.devState == 0 && (match pushPort s with | some k => f == fnId k 0 | none => false)

/-- MSI-X vectors of a function (R263). -/
def numVectors (f : Nat) : Nat := if f % 0x1000 = 0 then 41 else 6

/-- An aligned 8-byte read of BAR0 that has no effect: the semaphores are read by SEM_READ_ACQUIRE. -/
def bar0Read (s : State) (f ofs : Nat) : Nat :=
  if 0x100000 ≤ ofs ∧ ofs < 0x900000 then
    if seesBlock s f (ofs / 0x100000 - 1) then blockRead (s.part (ofs / 0x100000 - 1)) (ofs % 0x100000) else 0
  else if 0x1000 ≤ ofs ∧ ofs < 0x1000 + 16 * numVectors f then
    (Assoc.get (fun k => if k % 2 = 1 then (0x100000000 : Word) else 0) (s.fn f).msix ((ofs - 0x1000) / 8)).toNat
  else if ofs = 0x2000 then (s.fn f).pba
  else if 0xA00000 ≤ ofs ∧ ofs < 0xE00000 ∧ showsBoot s f then
    leNat (readBuffer s (s.boot.wsel * 0x400000 + (ofs - 0xA00000)) 8)
  else
    match ofs with
    | 0x0 => f
    | 0x8 => if f % 0x1000 = 0 then (s.fn f).bar4.toNat
             else (s.fn f).bar4.toNat % 2 ^ 61 + bar4Part s f * 2 ^ 61
    | 0x10 => s.boot.devState
    | 0x18 => s.breach.toNat
    | 0x20 => s.counter.gt
    | 0x40 => if showsBoot s f then s.boot.result * 2 ^ 60 + s.boot.wsel * 64 else 0
    | _ => 0

end Sys2Proof.Machine
end

