-- ==== Sys2Proof/Machine/HostRegs.lean ====
section
/-! DEFINITION. What a host does to registers: semaphores (R270, R271), BAR0 writes (R267 to R269), BOOT_CTL (R398), and the
mirror and HW writes of BAR2 (R15, R376 to R379). -/
namespace Sys2Proof.Machine

/-! ### Semaphores (R270, R271) -/

/-- SEM_READ_ACQUIRE: an acquire and renewal, whose word is answered. -/
def semReadAcquire (src n : Nat) (s : State) : State :=
  let s := semAcquire s n src
  s.send (.readData src (leBytes 8 (semWord s n src).toNat))

def execSemReadAcquire (src n : Nat) (s : State) : Host.Outcome State Fault Refusal :=
  if isRequester src then onUnit (isSem n) "semaphore" n s (onDerived (semReadAcquire src n)) else .refused (.noSuchUnit "requester" src)

/-- SEM_WRITE_RELEASE: bit 0 is REL. -/
def semWriteRelease (src n : Nat) (v : Word) (s : State) : State := semRelease s n src (bit v 0)

def execSemWriteRelease (src n : Nat) (v : Word) (s : State) : Host.Outcome State Fault Refusal :=
  if isRequester src then onUnit (isSem n) "semaphore" n s (onDerived (semWriteRelease src n v))
  else .refused (.noSuchUnit "requester" src)

/-- SEM_LEASE_EXPIRE: a lease ends at the first gt at or after its end value. -/
def semLeaseExpire (n : Nat) (s : State) : State := if (semNow s n).isNone then { s with sems := s.sems.erase n } else s

def execSemLeaseExpire (n : Nat) (s : State) : Host.Outcome State Fault Refusal :=
  onUnit (isSem n) "semaphore" n s (semLeaseExpire n)

/-! ### BOOT_CTL (R398) -/

/-- BOOT_CTL_GO: verification of the pushed bundle starts. -/
def bootCtlGo (f : Nat) (s : State) : State := if showsBoot s f then { s with boot := { s.boot with result := 1 } } else s

def execBootCtlGo (f : Nat) (s : State) : Host.Outcome State Fault Refusal := onFn f s (onDerived (bootCtlGo f))

/-- BOOT_CTL written: WSEL is stored, and GO acts. -/
def bootCtlWrite (f : Nat) (v : Word) (s : State) : State :=
  if showsBoot s f then
    let s := { s with boot := { s.boot with wsel := bits v 7 6 } }
    if bit v 0 then bootCtlGo f s else s
  else s

/-- A word written through the boot window. -/
def bootWindowWrite (f ofs : Nat) (v : Word) (s : State) : State :=
  if showsBoot s f then
    { s with boot := { s.boot with buffer := s.boot.buffer.writeN 0 (s.boot.wsel * 0x400000 + ofs) (leBytes 8 v.toNat) } }
  else s

/-! ### REGISTER_WRITE (R267 to R269) -/

/-- BAR4_CTL's bits that hold a value; a VF's PART is not written (R269). -/
def bar4Mask (f : Nat) : Word := if f % 0x1000 = 0 then 0xF00FFFF000000000 else 0x100FFFF000000000

/-- A word of a function's MSI-X table: unmasking a vector that is pending sends its message (R267). -/
def msixWrite (f w : Nat) (v : Word) (s : State) : State :=
  let vec := w / 2
  let s := s.updFn f (fun x =>
    { x with msix := Assoc.set (fun k => if k % 2 = 1 then (0x100000000 : Word) else 0) x.msix w v })
  if w % 2 = 1 ∧ ¬ bit v 32 ∧ (s.fn f).pba.testBit vec then
    raiseMsix (s.updFn f (fun x => { x with pba := x.pba - 2 ^ vec })) f vec
  else s

/-- PART_CTL written (R166, R167). -/
def partCtlWrite (src p : Nat) (v : Word) (s : State) : State :=
  if bit v 0 then partCtlEnable src p (BitVec.ofNat 16 (bits v 63 48)) s else partCtlDisable src p s

/-- Ring memory written: a submission queue's by its owner only, JB-0x0E otherwise; the completion rings are read-only (R268,
R277). -/
def ringWrite (f p ofs : Nat) (v : Word) (s : State) : State :=
  let put := fun (s : State) => s.updPart p (fun x => setRingWord x ofs v)
  if ofs < 0x30000 then
    if ownsQueue s f p ((ofs - 0x10000) / 0x8000) then put s else doorbellError s p 0x0E
  else if (0x50000 ≤ ofs ∧ ofs < 0x54000) ∨ (0x60000 ≤ ofs ∧ ofs < 0x70000) then put s
  else s

/-- A word of a partition's block written (R268). A head index counts modulo its ring's depth. -/
def blockWrite (f p ofs : Nat) (v : Word) (s : State) : State :=
  if 0x100 ≤ ofs ∧ ofs < 0x120 then (if mayGuard s f p then setSqCfg s p ((ofs - 0x100) / 8) v else s)
  else if 0x200 ≤ ofs ∧ ofs < 0x220 then sqDoorbell f p ((ofs - 0x200) / 8) (v.toNat % 256) s
  else if 0x10000 ≤ ofs then ringWrite f p ofs v s
  else
    match ofs with
    | 0x0 => partCtlWrite f p v s
    | 0x10 => preemptRequest f p v s
    | 0x20 => stopAck f p v s
    | 0x300 => flushLate (s.updPart p (fun x => { x with cq := { x.cq with head := v.toNat % 1024 } })) p
    | 0x400 => mcDoorbell f p (v.toNat % 256) s
    | 0x410 => mcSkip 256 p (s.updPart p (fun x => { x with mcc := { x.mcc with head := v.toNat % 256 } }))
    | 0x500 => srDoorbell f p (v.toNat % 1024) s
    | 0x510 => flushPosts 1024 p (s.updPart p (fun x => { x with sc := { x.sc with head := v.toNat % 1024 } }))
    | _ => s

/-- REGISTER_WRITE: an aligned 8-byte write to BAR0; what is unassigned, read-only or another partition's is discarded
(R267). -/
def registerWrite (f ofs : Nat) (v : Word) (s : State) : State :=
  if ofs % 8 ≠ 0 then s
  else if 0x100000 ≤ ofs ∧ ofs < 0x900000 then
    if seesBlock s f (ofs / 0x100000 - 1) then blockWrite f (ofs / 0x100000 - 1) (ofs % 0x100000) v s else s
  else if 0x1000 ≤ ofs ∧ ofs < 0x1000 + 16 * numVectors f then msixWrite f ((ofs - 0x1000) / 8) v s
  else if 0x8000 ≤ ofs ∧ ofs < 0x8200 then semWriteRelease f ((ofs - 0x8000) / 8) v s
  else if 0xA00000 ≤ ofs ∧ ofs < 0xE00000 then bootWindowWrite f (ofs - 0xA00000) v s
  else
    match ofs with
    | 0x8 => s.updFn f (fun x => { x with bar4 := v &&& bar4Mask f })
    | 0x40 => bootCtlWrite f v s
    | _ => s

def execRegisterWrite (f ofs : Nat) (v : Word) (s : State) : Host.Outcome State Fault Refusal :=
  onFn f s (onDerived fun s => if isBar0 ofs then registerWrite f ofs v s else s)

/-! ### The mirror (R15, R376, R378) -/

/-- MIRROR_UPDATE: the warden writes a changed value into the mirror; a table's, or one longer than 8 bytes, between an odd
and an even SEQ of its entry. -/
def mirrorUpdate (index sub elem : Nat) (s : State) : State :=
  match findEntry index sub with
  | some e =>
    let v := odView s index sub elem
    if s.boot.devState = 0 ∨ ¬ mirrored e ∨ entryCount e ≤ elem ∨ (mirrorAt s index sub elem).1 = v then s
    else
      let m := s.mirror.insert (odKey index sub elem) (v, 0)
      let m := if e.table || decide (8 < e.size) then
          m.insert (odKey index sub (2 ^ 32 - 1)) (0, (mirrorSeq s index sub + 2) % 65536)
        else m
      { s with mirror := m, mirrorGt := s.counter.gt }
  | none => s

def execMirrorUpdate (index sub elem : Nat) (s : State) : Host.Outcome State Fault Refusal :=
  .next (onWarden (mirrorUpdate index sub elem) s)

/-! ### HW writes (R15, R379) -/

/-- The event of a BAR2 write that is discarded (R15; log 15). -/
def evMirrorWrite : Nat := 0x0E01

/-- A write that R15 refuses, or a collection that is discarded, is counted; a refused write is logged (R15, R379). -/
def countDiscard (s : State) : State := odCount s 0x1F00 0x27 0 32
def refuseMirror (s : State) (f : Nat) : State := logEvent (countDiscard s) evMirrorWrite 0 0 3 none f

/-- The HW element and the word of its slot at a BAR2 offset: the subindex of 0x1A10, the element, the word. -/
def hwAt (ofs : Nat) : Option (Nat × Nat × Nat) :=
  let p := 8 * Config.mirrorSlot 0x1A10 0x02
  let b := 8 * Config.mirrorSlot 0x1A10 0x01
  if ofs % 8 ≠ 0 then none
  else if ofs = p then some (2, 0, 0)
  else if b ≤ ofs ∧ ofs < b + 65536 then some (1, (ofs - b) / 16, (ofs - b) / 8 % 2)
  else none

/-- Words of a slot of 0x1A10. -/
def hwWords (sub : Nat) : Nat := if sub = 1 then 2 else 1

/-- A collection discarded, where there is one; that of a function without the semaphore is a write that R15 refuses. -/
def dropCollection (s : State) (f : Nat) : State :=
  match (s.fn f).collect with
  | some c =>
    let s := s.updFn f (fun x => { x with collect := none })
    if c.owned then countDiscard s else refuseMirror s f
  | none => s

/-- BAR2_HW_WRITE: a word collected; the slot's last word completes the element, which the warden then applies (R379). -/
def bar2HwWrite (f ofs : Nat) (v : Word) (s : State) : State :=
  match hwAt ofs with
  | none => refuseMirror s f
  | some (sub, elem, w) =>
    let mine := match (s.fn f).collect with | some c => c.sub == sub && c.elem == elem | none => false
    let s := if mine then s else dropCollection s f
    let words : Assoc Word := (match (s.fn f).collect with | some c => c.words | none => []).insert w v
    let c : Collection := { sub := sub, elem := elem, words := words, owned := owns s 2 f, last := s.counter.gt }
    if w + 1 = hwWords sub then s.updFn f (fun x => { x with collect := none, ready := x.ready ++ [c] })
    else s.updFn f (fun x => { x with collect := some c })

def execBar2HwWrite (f ofs : Nat) (v : Word) (s : State) : Host.Outcome State Fault Refusal := onFn f s (onDerived (bar2HwWrite f ofs v))

/-- BAR2_COLLECTION_TIMEOUT: 1 ms without a write. -/
def collectionTimeout (f : Nat) (s : State) : State :=
  match (s.fn f).collect with
  | some c => if c.last + 100000 ≤ s.counter.gt then dropCollection s f else s
  | none => s

def execBar2CollectionTimeout (f : Nat) (s : State) : Host.Outcome State Fault Refusal := onFn f s (onWarden (collectionTimeout f))

/-- Bits of a budget entry that hold a value: the reserved ones read as 0 (R6, R242). -/
def budgetBits (v : Nat) : Nat := v / 2 ^ 30 * 2 ^ 30 + v % 256

/-- An element of 0x1A10 stored: the refill period restarts L (R243). -/
def storeHw (s : State) (sub elem v : Nat) : State :=
  if sub = 1 then odSet s 0x1A10 0x01 elem (budgetBits v)
  else { odSet s 0x1A10 0x02 0 v with refillL := s.counter.gt }

/-- The value of a collection: its words, and the present ones of those not written. -/
def collected (s : State) (c : Collection) : Nat :=
  (List.range (hwWords c.sub)).foldl (fun a i =>
    a + (match c.words.find? i with
         | some w => w.toNat
         | none => nbits (od s 0x1A10 c.sub c.elem) (64 * i + 63) (64 * i)) * 2 ^ (64 * i)) 0

/-- HW_WRITE_APPLY: the oldest whole collection of a function is applied whole, or refused (R15, R379). -/
def hwWriteApply (f : Nat) (s : State) : State :=
  match (s.fn f).ready with
  | [] => s
  | c :: cs =>
    let s := s.updFn f (fun x => { x with ready := cs })
    let v := collected s c
    if c.owned && (c.sub == 1 || decide (v ≠ 0)) then storeHw s c.sub c.elem v else refuseMirror s f

def execHwWriteApply (f : Nat) (s : State) : Host.Outcome State Fault Refusal := onFn f s (onWarden (hwWriteApply f))

end Sys2Proof.Machine
end

