-- ==== Sys2Proof/Machine/Settings.lean ====
section
/-! DEFINITION. What a SET or TABLE_SET checks and stores (R352 to R356, R360, R362, R368), entry by entry, and the effect that an
entry's chapter gives the store at once. -/
namespace Sys2Proof.Machine

/-! ### Sessions that end (R366) -/

/-- A session ends: its subscriptions and bulk reads end, and its semaphores are freed (R273, R366). -/
def endSession (s : State) (slot : Nat) : State :=
  match s.mgmt.sessions.find? slot with
  | some x =>
    let s := semFree s (· == sessionOwner x)
    { s with mgmt := { s.mgmt with sessions := s.mgmt.sessions.erase slot,
                                   bulk := s.mgmt.bulk.filter (fun b => b.slot != slot) } }
  | none => s

/-- Every session of a principal ends (R360, R366). -/
def endPrincipal (s : State) (i : Nat) : State :=
  ((s.mgmt.sessions.filter (fun e => e.2.principal == i)).map (·.1)).foldl endSession s

/-! ### PART_LAYOUT (R275, R443) -/

/-- One element to be written, with the bytes of its value. -/
structure Write where
  index : Nat
  sub   : Nat
  elem  : Nat
  value : List Byte
  deriving DecidableEq, Repr

/-- Element `k` of an entry as a list of writes leaves it, where the entry's elements are numbers. -/
def afterWrites (s : State) (ws : List Write) (index sub k : Nat) : Nat :=
  match (ws.filter (fun w => w.index == index && w.sub == sub && w.elem == k)).getLast? with
  | some w => leNat w.value
  | none => od s index sub k

/-- A layout that a SET may leave (R275): codes match their numbers, no overlap, no eighth without its stack, and every partition
that changes is OFF. -/
def layoutOk (s : State) (f : Nat → Nat) : Bool :=
  (List.range 8).all (fun p =>
      (f p == 0 || shapePart (f p) == some p) &&
      (f p / 16 != 4 || stackFitted s.boot.assembly (f p % 16)) &&
      (f p == shapeOf s p || decide ((s.part p).state = .off))) &&
    decide (((List.range 8).flatMap (fun p => shapeEighths (f p))).Nodup)

/-- Elements of an entry returned to their defaults. -/
def odRestore (s : State) (index sub first n : Nat) : State :=
  (range first n).foldl (fun s k =>
    { s with dict := s.dict.erase (odKey index sub k), inForce := s.inForce.erase (odKey index sub k) }) s

/-- A queue pair's context and an ingest window set invalid, V = 0. -/
def dropQp (s : State) (q : Nat) : State :=
  let c := od s 0x1700 0x10 q
  let s := { s with qps := s.qps.erase q }
  odSet s 0x1700 0x10 q (c - (if c.testBit 436 then 2 ^ 436 else 0))
def dropWindow (s : State) (w : Nat) : State :=
  let c := od s 0x1700 0x20 w
  odSet s 0x1700 0x20 w (c - (if c.testBit 255 then 2 ^ 255 else 0))

/-- The memory state of a partition that is removed or changed is discarded (R443; log 61). -/
def discardMemory (s : State) (p : Nat) : State :=
  let s := { s with
    objects := s.objects.filter (fun e => e.1 / 65536 != p),
    plots := s.plots.filter (fun e => e.1 / 2 ^ 29 != p),
    frames := s.frames.filter (fun e => e.1 / 2 ^ 22 != p) }
  let s := s.updPart p (fun x =>
    { x with mcRuns := [], serving := { x.serving with requests := [], step := none, posts := [], cmds := [] } })
  let s := (List.range 256).foldl (fun s q =>
    if qpValid (qpCtx s q) && qpPart (qpCtx s q) == p then dropQp s q else s) s
  let s := (List.range 64).foldl (fun s w =>
    if winValid (window s w) && winPart (window s w) == p then dropWindow s w else s) s
  let s := odRestore (odRestore (odRestore s 0x1600 0x10 (16 * p) 16) 0x1600 0x12 (4 * p) 4) 0x1600 0x13 p 1
  let s := odRestore (odRestore (odRestore s 0x1900 0x22 (8 * p) 8) 0x1C00 0x10 p 1) 0x1A20 0x01 p 1
  odRestore (odRestore s 0x1A00 0x06 (2 * p) 2) 0x1A00 0x01 p 1

/-- An element of PART_LAYOUT stored (R275, R443). -/
def storeLayout (s : State) (p v : Nat) : State :=
  let old := shapeOf s p
  odSet (if old ≠ 0 ∧ old ≠ v then discardMemory s p else s) 0x1800 0x01 p v

/-! ### Values that an entry's chapter refuses -/

/-- A queue pair's context may be stored: a valid one may only be cleared; one that becomes valid is well formed (R209). -/
def qpMayStore (s : State) (q v : Nat) : Bool :=
  let old := od s 0x1700 0x10 q
  if old.testBit 436 then v == old || v + 2 ^ 436 == old
  else !v.testBit 436 || qpCtxOk (BitVec.ofNat 512 v)

/-- A standby slot may be stored: with V = 1 the object exists, is the partition's, and lies wholly in tier 1 (R176). -/
def standbyMayStore (s : State) (k v : Nat) : Bool :=
  !v.testBit 31 ||
    (match s.obj (k / 8) (v % 65536) with
     | some x => objInTier s (k / 8) x 1
     | none => false)

/-- The staging ways that a partition has on an I/O die by R188. -/
def ownWays (s : State) (p io : Nat) : Nat :=
  ((partEighths s p).flatMap (eighthWays s.boot.assembly)).foldl (fun a w => if w.1 = io then a ||| 2 ^ w.2 else a) 0

/-- The two links of a torus port have the same role (R305). -/
def rolesAgree (s : State) (f : Nat → Nat) : Bool :=
  !isX4 s.boot.assembly || (List.range 6).all (fun l => f l == f (l + 6))

/-- The value lies in the range that its entry's chapter states. -/
def valueOk (s : State) (e : Entry) (index sub elem v : Nat) : Bool :=
  match (family index).1, sub with
  | 0x1100, 0x20 => decide (600 ≤ v ∧ v ≤ od s 0x1100 0x21)
  | 0x1400, 0x16 => v == 0
  | 0x1600, 0x12 => v ||| ownWays s (elem / 4) (elem % 4) == ownWays s (elem / 4) (elem % 4)
  | 0x1600, 0x20 => tableOk 1 v
  | 0x1600, 0x21 => tableOk 2 v
  | 0x1700, 0x10 => qpMayStore s elem v
  | 0x1900, 0x22 => standbyMayStore s elem v
  | 0x1A00, 0x04 => v % 65536 == 0
  | 0x1A00, 0x05 => v % 4096 == 0 && decide (v ≤ 126976)
  | 0x1C00, 0x01 => decide (v < 2 ^ 24) && decide (v % 256 < 64 ∧ v / 256 % 256 < 64 ∧ v / 65536 < 64)
  | 0x1C00, 0x02 => decide (v < 2 ^ 24) && decide (1 ≤ v % 256 ∧ v % 256 ≤ 64) &&
      decide (1 ≤ v / 256 % 256 ∧ v / 256 % 256 ≤ 64) && decide (1 ≤ v / 65536 ∧ v / 65536 ≤ 64)
  | 0x1C00, 0x03 => v / 2 % 4 != 3
  | 0x3000, _ => !keyRefused s (family index).2 sub (leBytes e.size v)
  | _, _ => decide (e.lo ≤ v ∧ v ≤ e.hi)

/-- A power or thermal setting outside its range is logged with PW-0x0A (R337, R344, R348). -/
def pwSetting (index sub : Nat) : Bool :=
  (index == 0x1100 && [0x20, 0x22, 0x23, 0x24].contains sub) || (index == 0x1400 && (sub == 0x10 || sub == 0x11))

/-! ### The check of one element (R368) -/

/-- A reason code of class MG, and the one of a sluice table (R202). -/
def mg (n : Nat) : Nat := reasonCode .mg n
def mmTable : Nat := reasonCode .mm 0x0A

/-- The vendor diagnostic range (R356). -/
def vendorIndex (index : Nat) : Bool := decide (0x7000 ≤ index) && decide (index ≤ 0x70FF)

/-- Why an entry that is not documented is refused (R356). -/
def unknownEntry (role index : Nat) : Nat := if vendorIndex index && decide (role < 3) then mg 0x03 else mg 0x01

/-- The role that a write of an entry needs (R362). -/
def writeRole (e : Entry) : Nat :=
  if e.acc = .wo ∨ e.index = 0x1200 ∨ e.index = 0x1300 ∨ e.index = 0x1F00 then 3 else 2

/-- The access code, and R416's fixed marks, refuse a write. -/
def accessRefused (e : Entry) (role elem : Nat) : Bool :=
  e.acc == .const || e.acc == .ro || (e.acc == .wo && decide (role < 3)) ||
    (e.index == 0x1E00 && (e.sub == 0x11 || e.sub == 0x12) && decide (32 ≤ elem) && decide (elem < 46))

/-- A key or role of a principal (R360). -/
def principalEntry (e : Entry) : Bool := e.index == 0x1F00 && (e.sub == 0x10 || e.sub == 0x11)

/-- The reason code that refuses a write of a session, 0 where it passes: existence, type, range, access, role, and the guarding
semaphore at this moment (R368). -/
def checkWrite (s : State) (x : Session) (w : Write) : Nat :=
  match findEntry w.index w.sub with
  | none => unknownEntry x.role w.index
  | some e =>
    if entryCount e ≤ w.elem then mg 0x0C
    else if w.value.length ≠ e.size then mg 0x05
    else if !valueOk s e w.index w.sub w.elem (leNat w.value) then (if e.index = 0x1600 ∧ 0x20 ≤ e.sub then mmTable else mg 0x05)
    else if accessRefused e x.role w.elem then mg 0x02
    else if x.role < writeRole e then mg 0x03
    else if principalEntry e ∧ w.elem < 2 then mg 0x11
    else if principalEntry e ∧ lcState s = 4 then mg 0x12
    else if (e.acc = .rws ∨ e.acc = .hw) ∧ ¬ owns s (guardOf w.index w.sub w.elem) (sessionOwner x) then mg 0x04
    else 0

/-- The codes of a list of writes: a layout, or axis roles, that as a whole may not stand refuse their writes (R275, R305). -/
def checkWrites (s : State) (x : Session) (ws : List Write) : List Nat :=
  ws.map (fun w =>
    let c := checkWrite s x w
    if c ≠ 0 then c
    else if w.index = 0x1800 ∧ w.sub = 0x01 ∧ ¬ layoutOk s (afterWrites s ws 0x1800 0x01) then mg 0x05
    else if w.index = 0x1C00 ∧ w.sub = 0x03 ∧ ¬ rolesAgree s (afterWrites s ws 0x1C00 0x03) then mg 0x05
    else 0)

/-- A refused write that its chapter logs: PW-0x0A, and LK-0x04 for a NEXT key (R309, R337, R344). -/
def noteRefused (s : State) (w : Write) (code : Nat) : State :=
  match findEntry w.index w.sub with
  | some e =>
    if code = mg 0x05 ∧ w.value.length = e.size ∧ !valueOk s e w.index w.sub w.elem (leNat w.value) then
      if pwSetting w.index w.sub then logReason s .pw 0x0A 0 2 none (powerDetail 0 0 (leNat w.value))
      else if e.index = 0x3000 then logReason s .lk 0x04 0 2 none (linkDetail (family w.index).2 0 0)
      else s
    else s
  | none => s

/-! ### The store (R355, R368) -/

/-- A setting that waits for its partition's step boundary: until then the old one acts (R62, R214). -/
def storeWaiting (s : State) (index sub elem v : Nat) : State :=
  let old := odForce s index sub elem
  let s' := odSet s index sub elem v
  match elemPart index sub elem with
  | some p => if stepBoundary (s.part p) then s' else { s' with inForce := s'.inForce.insert (odKey index sub elem) old }
  | none => s'

/-- An element of SYNC_SHARE stored: a bit that changes waits for the step boundary of the element's partition and of the partition
that it names (R62; log 98). -/
def storeShare (s : State) (q v : Nat) : State :=
  let old := odForce s 0x1900 0x02 q
  let d := BitVec.ofNat 8 old ^^^ BitVec.ofNat 8 v
  let readers := (List.range 8).foldl (fun (m : BitVec 8) r =>
    if bit d r && !stepBoundary (s.part r) then m ||| BitVec.ofNat 8 (2 ^ r) else m) 0
  let w := (if stepBoundary (s.part q) then 0 else d, readers)
  let s := odSet s 0x1900 0x02 q v
  if shareBits w = 0 then { s with shareWait := s.shareWait.erase q, inForce := s.inForce.erase (odKey 0x1900 0x02 q) }
  else
    let s := { s with inForce := s.inForce.insert (odKey 0x1900 0x02 q) old, shareWait := s.shareWait.insert q w }
    { s with inForce := s.inForce.insert (odKey 0x1900 0x02 q) (shareValue s q w) }

/-- A sluice table stored: it takes effect at a period start (R202). -/
def storeTable (s : State) (sub elem v : Nat) : State :=
  let old := odForce s 0x1600 sub elem
  let s := odSet s 0x1600 sub elem v
  { s with inForce := s.inForce.insert (odKey 0x1600 sub elem) old }

/-- Coordinates, sizes and roles: held while a job with a torus plan is in the package (R305). -/
def storeTorus (s : State) (sub elem v : Nat) : State :=
  let old := odForce s 0x1C00 sub elem
  let s := odSet s 0x1C00 sub elem v
  applyTorusSettings { s with inForce := s.inForce.insert (odKey 0x1C00 sub elem) old }

/-- The bits of a queue pair's context that hold a value: the reserved ones read as 0 (R6, R209). -/
def qpBits (v : Nat) : Nat := v / 2 ^ 423 * 2 ^ 423 + nbits v 419 408 * 2 ^ 408 + nbits v 399 224 * 2 ^ 224

/-- A queue pair's context stored: V from 0 to 1 makes it ready with its PSNs, V cleared makes it invalid (R209). -/
def storeQp (s : State) (q v : Nat) : State :=
  let v := qpBits v
  let was := qpValid (qpCtx s q)
  let c := BitVec.ofNat 512 v
  if was && !qpValid c then
    let s := qpError s q
    odSet { s with qps := s.qps.erase q } 0x1700 0x10 q v
  else
    let s := odSet s 0x1700 0x10 q v
    if !was && qpValid c then
      s.updQp q (fun _ => { QueuePair.init with state := 1, sendPsn := BitVec.ofNat 24 (qpSpsn c),
                                                respPsn := BitVec.ofNat 24 (qpSpsn c), recvPsn := BitVec.ofNat 24 (qpRpsn c) })
    else s

/-- PART_CTL by a session that holds its semaphore; discarded while DEV_STATE is not ACCEPTING (R166, R392). -/
def storePartCtl (s : State) (p v : Nat) : State :=
  if s.boot.devState = 2 ∧ shapeOf s p ≠ 0 then
    (if v.testBit 0 then enableImage s p (BitVec.ofNat 16 (v / 2 ^ 48)) else disableImage s p)
  else s

/-- A principal's key installed (R360). -/
def storeKey (s : State) (i : Nat) (k : List Byte) : State :=
  endPrincipal { s with mgmt := { s.mgmt with keys := s.mgmt.keys.insert i k } } i

/-- The serving loop of a partition is switched on or off (R234). -/
def storeServe (s : State) (p v : Nat) : State :=
  let s := odSet s 0x1A00 0x01 p v
  if v = 1 then srSkip 1024 p s else s

/-- The counter's mode: in mode 0 the state is FREE (R313, R315). -/
def storeGcMode (s : State) (v : Nat) : State :=
  let s := odSet s 0x1C00 0x21 0 v
  if v = 0 then setGc s 0 else s

/-- An accepted write is stored at once (R355), with the effect its chapter gives it. `src` is the session's owner id. -/
def storeElem (src : Nat) (s : State) (index sub elem v : Nat) : State :=
  let k := (family index).2
  match (family index).1, sub with
  | 0x1400, 0x16 => { s with thermal := { s.thermal with record := List.replicate 16 0 } }
  | 0x1600, 0x10 => storeWaiting s index sub elem (v + 1)
  | 0x1600, 0x12 => storeWaiting s index sub elem (v + 1)
  | 0x1600, 0x13 => storeWaiting s index sub elem (v + 1)
  | 0x1600, 0x14 => storeWaiting s index sub elem v
  | 0x1600, _ => storeTable s sub elem v
  | 0x1700, 0x10 => storeQp s elem v
  | 0x1700, 0x20 => odSet { s with windowNak := s.windowNak.filter (· != elem) } index sub elem (v / 16 * 16)
  | 0x1800, 0x01 => storeLayout s elem v
  | 0x1900, 0x02 => storeShare s elem v
  | 0x1900, 0x22 => odSet s index sub elem (ofBool (v.testBit 31) * 2 ^ 31 + v % 65536)
  | 0x1A00, 0x01 => storeServe s elem v
  | 0x1A10, _ => storeHw s sub elem v
  | 0x1C00, 0x01 => storeTorus s sub elem v
  | 0x1C00, 0x02 => storeTorus s sub elem v
  | 0x1C00, 0x03 => storeTorus s sub elem v
  | 0x1C00, 0x21 => storeGcMode s v
  | 0x1F00, 0x10 => endPrincipal (odSet s index sub elem v) elem
  | 0x1F00, 0x11 => storeKey s elem (leBytes 32 v)
  | 0x2000, 0x01 => storePartCtl s k v
  | 0x2000, 0x05 => if v = 1 then acknowledge s k src else s
  | 0x3000, _ => installKey s k sub (leBytes (if sub = 4 ∨ sub = 6 then 44 else 36) v)
  | _, _ => odSet s index sub elem v

/-- The two phases of a SET or TABLE_SET (R368): every write passes and all are stored in order, or nothing is stored; the codes,
MG-0x10 for those that did not fail themselves. -/
def applyWrites (s : State) (x : Session) (ws : List Write) : State × List Nat :=
  let codes := checkWrites s x ws
  if codes.all (· == 0) then
    (ws.foldl (fun s w => storeElem (sessionOwner x) s w.index w.sub w.elem (leNat w.value)) s, codes)
  else
    ((List.zip ws codes).foldl (fun s c => noteRefused s c.1 c.2) s, codes.map (fun c => if c = 0 then mg 0x10 else c))

end Sys2Proof.Machine
end

