-- ==== Sys2Proof/Machine/Mdp.lean ====
section
/-! DEFINITION. MDP: framing and authentication (R357 to R359), sessions (R363 to R366), sequence numbers, rates, and what every
request shares (R364, R367, R372, R373). -/
namespace Sys2Proof.Machine

/-! ### Datagrams (R358, R359) -/

/-- The fields of a datagram's header. -/
def mdpKind (d : Dgram) : Nat := leAt d.bytes 5 1
def mdpFlags (d : Dgram) : Nat := leAt d.bytes 6 1
def mdpOp (d : Dgram) : Nat := leAt d.bytes 7 1
def mdpSession (d : Dgram) : Nat := leAt d.bytes 8 4
def mdpSeq (d : Dgram) : Nat := leAt d.bytes 12 4
def mdpLen (d : Dgram) : Nat := leAt d.bytes 18 2

/-- MAGIC, the bytes "MDP1". -/
def mdpMagic : Nat := 0x3150444D

/-- A datagram of MDP's form: MAGIC, VERSION, and a length that its LEN accounts for. -/
def mdpForm (d : Dgram) : Bool :=
  decide (64 ≤ d.bytes.length) && decide (d.bytes.length ≤ 1452) && leAt d.bytes 0 4 == mdpMagic && leAt d.bytes 4 1 == 1 &&
    mdpLen d + 64 == d.bytes.length

/-- A header. -/
def mdpHeader (kind flags op sid seq status len nseq gt : Nat) : List Byte :=
  leBytes 4 mdpMagic ++ leBytes 1 1 ++ leBytes 1 kind ++ leBytes 1 flags ++ leBytes 1 op ++ leBytes 4 sid ++ leBytes 4 seq ++
    leBytes 2 status ++ leBytes 2 len ++ leBytes 4 nseq ++ leBytes 8 gt

/-- The IV of a datagram: SESSION, KIND, and SEQ, or NSEQ of a notification. -/
def mdpIv (sid kind n : Nat) : List Byte := leBytes 4 sid ++ leBytes 4 kind ++ leBytes 4 n

/-- The MAC key and the encryption key of what is sent, where it is encrypted. -/
structure Keys where
  mac : List Byte
  enc : Option (List Byte)
  deriving DecidableEq, Repr

/-- The keys under which a session's datagrams go (R359). -/
def Session.sendKeys (x : Session) : Keys := { mac := x.kmac, enc := if x.enc then some x.kenc else none }

/-- A datagram formed: its payload encrypted where the session has ENC, then its MAC. -/
def mdpSeal (k : Keys) (kind flags op sid seq status nseq gt : Nat) (payload : List Byte) : List Byte :=
  let len := payload.length + (if k.enc.isSome then 16 else 0)
  let h := mdpHeader kind (flags + ofBool k.enc.isSome) op sid seq status len nseq gt
  let body := match k.enc with
    | some key => Crypto.gcmSeal key (mdpIv sid kind (if kind = 2 then nseq else seq)) h payload
    | none => payload
  h ++ body ++ Crypto.hmac k.mac (h ++ body)

/-- The MAC of a datagram holds under a key. -/
def macHolds (key : List Byte) (d : Dgram) : Bool :=
  let n := d.bytes.length - 32
  Crypto.hmac key (d.bytes.take n) == d.bytes.drop n

/-- The payload as sent. -/
def mdpBody (d : Dgram) : List Byte := (d.bytes.drop 32).take (mdpLen d)

/-- The plaintext payload under a session: without ENC the payload, with it the opened ciphertext; none where the tag fails or
ENC is not as granted. -/
def mdpPlain (x : Session) (d : Dgram) : Option (List Byte) :=
  if (mdpFlags d).testBit 0 ≠ x.enc then none
  else if x.enc then
    Crypto.gcmOpen x.kenc (mdpIv (mdpSession d) (mdpKind d) (mdpSeq d)) (d.bytes.take 32) (mdpBody d)
  else some (mdpBody d)

/-- Bytes of a value padded to a multiple of 4 (R367). -/
def pad4 (bs : List Byte) : List Byte := fit (4 * ceilDiv bs.length 4) bs

/-! ### What the ports take (R357) -/

/-- The link-local address of a management port: modified EUI-64 of its MAC. -/
def linkLocal (s : State) (port : Nat) : BitVec 128 :=
  let m := leBytes 6 (od s 0x1F00 0x03 port)
  let b := fun i => nth 0 m i
  BitVec.ofNat 128 (beNat ([0xFE, 0x80, 0, 0, 0, 0, 0, 0, b 0 ^^^ 2, b 1, b 2, 0xFF, 0xFE, b 3, b 4, b 5]))

/-- An address is the port's own: its link-local one, or one of its four elements of MG_ADDR in use. -/
def ownAddress (s : State) (port : Nat) (a : BitVec 128) : Bool :=
  a == linkLocal s port ||
    (List.range 4).any (fun i =>
      let v := leBytes 17 (od s 0x1F00 0x05 (4 * port + i))
      leAt v 16 1 != 0 && beNat (v.take 16) == a.toNat)

/-- A datagram or frame that is dropped and counted (R357). -/
def foreign (s : State) : State := odCount s 0x1F00 0x26 0 32

/-- A frame that the ports do not take: IPv4, to another address, or to another UDP port than MDP's. -/
def foreignFrame (s : State) (d : Dgram) : Bool := d.ipv4 || !ownAddress s d.port d.dest || d.dport != 7439

/-! ### Readiness (R373, R398, R403) -/

/-- A management port is up. -/
def mgUp (s : State) (port : Nat) : Bool := od s 0x1F00 0x04 port == 1

/-- The dictionary is ready: the warden firmware runs, or the network form serves. -/
def dictReady (s : State) : Bool := s.boot.devState != 0 || networkForm s

/-- A datagram out of the port, and to the address, from which one came (R357). -/
def answerTo (s : State) (d : Dgram) (bytes : List Byte) : State := s.send (.datagram d.port d.addr d.udp bytes)

/-- A second of gt. -/
def secondOf (s : State) : Nat := s.counter.gt / 100000000

/-- STARTING: SEQ and OP copied, the stage in byte 0, a MAC of zeros; at most 2,000 a second, and those beyond are dropped and
counted (R373, R403). -/
def startingReply (d : Dgram) (s : State) : State :=
  let n := if s.mgmt.stSecond = secondOf s then s.mgmt.stCount else 0
  if 2000 ≤ n then odCount s 0x1F00 0x25 0 32
  else
    let s := { s with mgmt := { s.mgmt with stSecond := secondOf s, stCount := n + 1 } }
    answerTo s d (mdpHeader 5 0 (mdpOp d) 0 (mdpSeq d) 0 8 0 s.counter.gt ++ leBytes 8 (startingStage s) ++ List.replicate 32 0)

/-- A datagram dropped and counted in AUTH_FAILS (R359). -/
def authFail (s : State) : State := odCount s 0x1F00 0x21 0 32

/-! ### Sessions (R363, R366) -/

/-- Sessions without an accepted request for SESSION_IDLE_GT have ended (R366). -/
def idleOut (s : State) : State :=
  ((s.mgmt.sessions.filter (fun e => decide (e.2.last + od s 0x1F00 0x09 ≤ s.counter.gt))).map (·.1)).foldl endSession s

/-- The slot and session of a SESSION value. -/
def findSession (s : State) (sid : Nat) : Option (Nat × Session) :=
  List.find? (fun (e : Nat × Session) => e.2.sid.toNat == sid) s.mgmt.sessions

/-- The number that the next session takes, and the numbers used then: the lowest not used since the last L0 or L1; once all
are, from 1 again, skipping those in use. -/
def sessionNumber (s : State) : Nat × List Nat :=
  let inUse := (Assoc.values s.mgmt.sessions).map (fun x => bits x.sid 11 0)
  match lowest (fun n => !s.mgmt.used.contains n) 1 4095 with
  | some n => (n, s.mgmt.used ++ [n])
  | none =>
    let n := (lowest (fun n => !inUse.contains n) 1 4095).getD 1
    (n, inUse ++ [n])

/-- A block drawn from the entropy source, and counted (R422). -/
def drawBlock (s : State) : Nat × State :=
  let (n, s) := s.fresh
  (Config.entropy n, odSet s 0x1E00 0x22 0 (od s 0x1E00 0x22 + 1))

/-- The session keys of R363. -/
def sessionKey (label : String) (kp nc nd : List Byte) (sid : BitVec 32) : List Byte :=
  Crypto.hmac kp (ascii label ++ nc ++ nd ++ leBytes 4 sid.toNat)

/-- The payload of OPEN_REPLY. -/
def openPayload (principal role : Nat) (enc : Bool) (nd : List Byte) : List Byte :=
  leBytes 1 principal ++ leBytes 1 role ++ leBytes 1 (ofBool enc) ++ List.replicate 5 0 ++ fit 32 nd

/-- The refusal of an OPEN, keyed by the principal key. -/
def openRefused (s : State) (d : Dgram) (kp : List Byte) (principal status : Nat) : State :=
  answerTo s d (mdpSeal { mac := kp, enc := none } 4 0 0 0 0 status 0 s.counter.gt
    (openPayload principal (principalRole s principal) false (List.replicate 32 0)))

/-- A valid OPEN that is not refused: the session, its keys, and the reply. -/
def openAccept (s : State) (d : Dgram) (kp : List Byte) : State :=
  let pl := mdpBody d
  let principal := leAt pl 0 1
  let enc := (leAt pl 1 1).testBit 0
  let nc := slice pl 8 32
  let (n, used) := sessionNumber s
  let (a, s) := drawBlock s
  let (b, s) := drawBlock s
  let nd := leBytes 32 b
  let sid := BitVec.ofNat 32 (a % 2 ^ 20 * 4096 + n)
  let role := principalRole s principal
  let x : Session :=
    { sid := sid, principal := principal, role := role, enc := enc, kmac := sessionKey "MDPMAC01" kp nc nd sid,
      kenc := sessionKey "MDPENC01" kp nc nd sid, port := d.port, addr := d.addr, udp := d.udp, seq := 0, stored := [],
      nseq := 0, renewals := 0, opened := s.counter.gt, last := s.counter.gt, subs := [] }
  let slot := (lowest (fun i => (s.mgmt.sessions.find? i).isNone) 0 32).getD 0
  let nonces := s.mgmt.nonces ++ [nc]
  let s := { s with mgmt := { s.mgmt with sessions := s.mgmt.sessions.insert slot x, used := used,
                                          nonces := nonces.drop (nonces.length - 64) } }
  let s := odSet s 0x1F00 0x24 0 (satAdd 64 (od s 0x1F00 0x24) 1)
  answerTo s d (mdpSeal { mac := x.kmac, enc := none } 4 0 0 sid.toNat 0 0 0 s.counter.gt (openPayload principal role enc nd))

/-- OPEN of an authentic datagram: refused with MG-0x0A or EY-0x01, dropped when its nonce is one of the last 64, or accepted. -/
def openAuthentic (s : State) (d : Dgram) (kp : List Byte) (principal : Nat) : State :=
  if s.mgmt.nonces.contains (slice (mdpBody d) 8 32) then s
  else if 32 ≤ s.mgmt.sessions.length then openRefused s d kp principal (mg 0x0A)
  else if !entropyUp s then openRefused s d kp principal (reasonCode .ey 0x01)
  else openAccept s d kp

/-- An OPEN once the dictionary is ready: a disabled principal is a MAC failure (R361, R363). -/
def openReady (d : Dgram) (s : State) : State :=
  let s := idleOut s
  let i := leAt (mdpBody d) 0 1
  if mdpKind d != 3 || mdpLen d != 40 || mdpSession d != 0 || mdpSeq d != 0 || !decide (i < 16) then authFail s
  else
    match principalKey s i with
    | some kp => if principalRole s i ≠ 0 ∧ macHolds kp d then openAuthentic s d kp i else authFail s
    | none => authFail s

/-- What every datagram meets first: the port is up, the frame is one that the ports take, it has MDP's form, and the dictionary is
ready, else STARTING answers (R357, R359, R373). -/
def onDatagram (d : Dgram) (f : State → State) (s : State) : State :=
  if !mgUp s d.port then s
  else if foreignFrame s d then foreign s
  else if !mdpForm d then authFail s
  else if !dictReady s then startingReply d s
  else f s

/-- OPEN. -/
def openSession (d : Dgram) (s : State) : State := onDatagram d (openReady d) s

def execOpenSession (d : Dgram) (s : State) : Host.Outcome State Fault Refusal := .next (onWarden (openSession d) s)

/-! ### Requests (R364, R367, R372) -/

/-- What a request gives: its STATUS, its payload, the state after it, a reset to be asserted after the response (level and target;
R387), and whether a response is sent at all (a BULK_READ that starts sends its series instead). -/
structure Answer where
  status : Nat
  payload : List Byte
  state  : State
  reset  : Option (Nat × Nat)
  silent : Bool
  deriving DecidableEq, Repr

/-- A request that changes nothing and answers a STATUS alone. -/
def refuse (s : State) (status : Nat) : Answer := { status := status, payload := [], state := s, reset := none, silent := false }

/-- A request that answers a STATUS and a payload. -/
def reply (s : State) (status : Nat) (payload : List Byte) : Answer :=
  { status := status, payload := payload, state := s, reset := none, silent := false }

/-- A payload that is a status alone. -/
def statusOnly (s : State) (status : Nat) : Answer := reply s status (leBytes 2 status)

/-- The most that a session's payload may hold before encryption (R358, R359). -/
def payloadLimit (x : Session) : Nat := if x.enc then 1372 else 1388

/-- RENEW_DUE, as a flag bit (R365). -/
def renewDue (seq nseq : Nat) : Nat := if 0xF0000000 ≤ seq ∨ 0xF0000000 ≤ nseq then 2 else 0

/-- The responses kept: those of the 16 most recent requests accepted (R364). -/
def keepStored (l : List (Nat × List Byte)) : List (Nat × List Byte) :=
  let seqs := (l.map (·.1)).eraseDups
  let old := seqs.take (seqs.length - 16)
  l.filter (fun e => !old.contains e.1)

/-- A session changed, if it is still open. -/
def updSession (s : State) (slot : Nat) (sid : BitVec 32) (f : Session → Session) : State :=
  match s.mgmt.sessions.find? slot with
  | some y => if y.sid = sid then { s with mgmt := { s.mgmt with sessions := s.mgmt.sessions.insert slot (f y) } } else s
  | none => s

/-- The bytes of a response with its flags. -/
def responseBytes (s : State) (x : Session) (seq op status flags : Nat) (payload : List Byte) : List Byte :=
  mdpSeal x.sendKeys 1 flags op x.sid.toNat seq status 0 s.counter.gt payload

/-- The bytes of the response to a request. -/
def answerBytes (s : State) (x : Session) (d : Dgram) (status : Nat) (payload : List Byte) : List Byte :=
  responseBytes s x (mdpSeq d) (mdpOp d) status (renewDue (mdpSeq d) x.nseq) payload

/-- A stored response sent again: that of a BULK_READ as its series, within the rate (R364, R370, R372). -/
def resend (slot : Nat) (x : Session) (d : Dgram) (s : State) : State :=
  let l := x.stored.filter (fun e => e.1 == mdpSeq d)
  let sent := (l.map (·.2)).filter (fun b => !b.isEmpty)
  if l.any (fun e => e.2.isEmpty) then
    let b : Bulk :=
      { slot := slot, seq := mdpSeq d, gen := x.renewals, port := d.port, addr := d.addr, udp := d.udp, again := some sent,
        key := none, next := 0, left := 0, ofs := 0, sent := 0 }
    if sent.isEmpty then s else { s with mgmt := { s.mgmt with bulk := s.mgmt.bulk ++ [b] } }
  else sent.foldl (fun s b => answerTo s d b) s

/-- The request is counted in this second (R372). -/
def countRequest (s : State) : State :=
  let n := if s.mgmt.reqSecond = secondOf s then s.mgmt.reqCount else 0
  { s with mgmt := { s.mgmt with reqSecond := secondOf s, reqCount := n + 1 } }

/-- The rate of R372 is used up in this second. -/
def rateSpent (s : State) : Bool := s.mgmt.reqSecond == secondOf s && decide (20000 ≤ s.mgmt.reqCount)

/-- A request with a new SEQ is executed: its answer is sent and stored, and the session takes its SEQ, its time, and the port and
address it came from. A RENEW that succeeds has restarted SEQ (R365). -/
def execute (slot : Nat) (x : Session) (d : Dgram) (run : State → Answer) (s : State) : State :=
  let s := countRequest s
  let a0 := run s
  let a := if payloadLimit x < a0.payload.length then refuse s (mg 0x06) else a0
  let bytes := answerBytes a.state x d a.status a.payload
  let renewed := mdpOp d == 0x0A && a.status == 0
  let s := updSession a.state slot x.sid (fun y =>
    { y with
      seq := if renewed then 0 else mdpSeq d,
      stored := if renewed then [] else keepStored (y.stored ++ [(mdpSeq d, if a.silent then [] else bytes)]),
      port := d.port, addr := d.addr, udp := d.udp, last := s.counter.gt })
  let s := if a.silent then s else answerTo s d bytes
  match a.reset with
  | some (level, target) => assertReset 8 level target (countSource s 8)
  | none => s

/-- The order of R364 and R372: a stored response is sent again; after SEQ 0xFFFF_FFFF MG-0x09 closes the session; any other SEQ
that is not above the highest is dropped; beyond the rate MG-0x0B answers. -/
def takeSeq (slot : Nat) (x : Session) (d : Dgram) (run : State → Answer) (s : State) : State :=
  let n := mdpSeq d
  if x.stored.any (fun e => e.1 == n) then resend slot x d s
  else if x.seq = 0xFFFFFFFF then endSession (answerTo s d (answerBytes s x d (mg 0x09) [])) slot
  else if n ≤ x.seq then odCount s 0x1F00 0x22 0 32
  else if rateSpent s then
    answerTo (odCount s 0x1F00 0x23 0 32) d (answerBytes s x d (mg 0x0B) [])
  else execute slot x d run s

/-- A request whose role, or whose service in the network form, is wanting is refused whole (R362, R398). -/
def permitted (role : Nat) (boot : Bool) (slot : Nat) (x : Session) (pl : List Byte) (d : Dgram)
    (run : Nat → Session → List Byte → State → Answer) (s : State) : Answer :=
  if mdpKind d ≠ 0 ∨ 8 ≤ mdpFlags d then refuse s (mg 0x06)
  else if s.boot.devState = 0 ∧ !boot then refuse s (mg 0x01)
  else if x.role < role then refuse s (mg 0x03)
  else run slot x pl s

/-- A request once the dictionary is ready: the datagram is this request (`mine` says so of OP and payload), and it is authentic
(else dropped and counted). -/
def requestReady (mine : Nat → List Byte → Bool) (role : Nat) (boot : Bool) (d : Dgram)
    (run : Nat → Session → List Byte → State → Answer) (s : State) : State :=
  if mdpKind d = 3 then s
  else
    let s := idleOut s
    match findSession s (mdpSession d) with
    | some (slot, x) =>
      if !macHolds x.kmac d then authFail s
      else
        match mdpPlain x d with
        | some pl => if mine (mdpOp d) pl then takeSeq slot x d (permitted role boot slot x pl d run) s else s
        | none => authFail s
    | none => authFail s

/-- What every request shares. -/
def onRequest (mine : Nat → List Byte → Bool) (role : Nat) (boot : Bool) (d : Dgram)
    (run : Nat → Session → List Byte → State → Answer) (s : State) : State :=
  onWarden (onDatagram d (requestReady mine role boot d run)) s

/-- The request is the one of an OP. -/
def isOp (op : Nat) (o : Nat) (_ : List Byte) : Bool := o == op

/-! ### STARTING -/

/-- STARTING: the answer before the dictionary is ready. -/
def execStarting (d : Dgram) (s : State) : Host.Outcome State Fault Refusal := .next (onWarden (onDatagram d id) s)

/-- SESSION_IDLE_TIMEOUT: the session of a slot has been idle for SESSION_IDLE_GT (R366). -/
def sessionIdleTimeout (slot : Nat) (s : State) : State :=
  match s.mgmt.sessions.find? slot with
  | some x => if x.last + od s 0x1F00 0x09 ≤ s.counter.gt then endSession s slot else s
  | none => s

def execSessionIdleTimeout (slot : Nat) (s : State) : Host.Outcome State Fault Refusal :=
  onUnit (isSlot slot) "session slot" slot s (onWarden (sessionIdleTimeout slot))

/-- MG_PORT_UP (R357, R381). -/
def execMgPortUp (port : Nat) (s : State) : Host.Outcome State Fault Refusal :=
  onUnit (isPort port) "port" port s (onWarden fun s => odSet s 0x1F00 0x04 port 1)

/-! ### IPv6 (R357) -/

/-- The sum of big-endian 16-bit words. -/
def wordSum : List Byte → Nat
  | a :: b :: r => a.toNat * 256 + b.toNat + wordSum r
  | [a] => a.toNat * 256
  | [] => 0

/-- The Internet checksum of an ICMPv6 message over its pseudo-header (RFC 4443; log 62). -/
def icmpChecksum (src dst : BitVec 128) (msg : List Byte) : Nat :=
  let n := wordSum (beBytes 16 src.toNat ++ beBytes 16 dst.toNat ++ beBytes 4 msg.length ++ [0, 0, 0, 58] ++ msg)
  let f := fun x => x % 65536 + x / 65536
  65535 - f (f (f n))

/-- An ICMPv6 message of a type, sent from an own address. -/
def icmpSend (s : State) (port : Nat) (src dst : BitVec 128) (type : Nat) (body : List Byte) : State :=
  let m := fun (c : Nat) => leBytes 1 type ++ leBytes 1 0 ++ beBytes 2 c ++ body
  s.send (.datagram port dst 0 (m (icmpChecksum src dst (m 0))))

/-- NEIGHBOR_DISCOVERY: a solicitation of an own address is answered with its MAC (type 136, solicited, override). -/
def neighborDiscovery (port : Nat) (addr target : BitVec 128) (s : State) : State :=
  if !mgUp s port then s
  else if ownAddress s port target then
    icmpSend s port target addr 136
      ([0x60, 0, 0, 0] ++ beBytes 16 target.toNat ++ [2, 1] ++ leBytes 6 (od s 0x1F00 0x03 port))
  else foreign s

def execNeighborDiscovery (port : Nat) (addr target : BitVec 128) (s : State) : Host.Outcome State Fault Refusal :=
  onUnit (isPort port) "port" port s (onWarden (neighborDiscovery port addr target))

/-- ICMPV6_ECHO: an echo request to an own address is answered with its body (type 129). -/
def icmpEcho (port : Nat) (addr target : BitVec 128) (body : List Byte) (s : State) : State :=
  if !mgUp s port then s
  else if ownAddress s port target then icmpSend s port target addr 129 body
  else foreign s

def execIcmpv6Echo (port : Nat) (addr target : BitVec 128) (body : List Byte) (s : State) : Host.Outcome State Fault Refusal :=
  onUnit (isPort port) "port" port s (onWarden (icmpEcho port addr target body))

end Sys2Proof.Machine
end

