-- ==== Sys2Proof/Machine/Requests.lean ====
section
/-! DEFINITION. The MDP requests (R362 to R371): reads, writes, semaphores, subscriptions, bulk reads, sessions. -/
namespace Sys2Proof.Machine

/-! ### Reads (R355, R367, R415) -/

/-- The reason code that refuses a read of an entry, 0 where it may be read: in the network form only three ranges (R356, R398). -/
def checkRead (s : State) (role index sub : Nat) : Nat :=
  if s.boot.devState = 0 ∧ index ≠ 0x1000 ∧ index ≠ 0x1200 ∧ index ≠ 0x1300 then mg 0x01
  else if (findEntry index sub).isNone then unknownEntry role index
  else 0

/-- An element as a response carries it. -/
def readElem (s : State) (e : Entry) (index sub k : Nat) : List Byte := pad4 (valueBytes e (odView s index sub k))

/-- The elements of an entry read by GET or TABLE_GET: a watermark's record is reset by the read (R415). -/
def readElems (index sub : Nat) (e : Entry) (ks : List Nat) (s : State) : List Byte × State :=
  ks.foldl (fun (a : List Byte × State) k =>
    (a.1 ++ readElem a.2 e index sub k, if index = 0x1E00 ∧ sub = 0x10 then resetMark a.2 k else a.2)) ([], s)

/-- The value that a GET of an entry gives: of a TABLE, every element in order (log 63). -/
def getValue (index sub : Nat) (e : Entry) (s : State) : List Byte × State :=
  if e.table then readElems index sub e (List.range e.count) s
  else (valueBytes e (odView s index sub 0), s)

/-- The descriptor of an entry as META gives it (R367). -/
def metaBytes (s : State) (index sub : Nat) (e : Entry) : List Byte :=
  if mirrored e then descriptor index sub e (mirrorOfs index sub 0 e) (mirrorSeq s index sub) else descriptor index sub e 0 0

/-- One item of a GET: its status, its length, its value. -/
def getItem (role : Nat) (a : List Byte × State) (it : List Byte) : List Byte × State :=
  let index := leAt it 0 2
  let sub := leAt it 2 1
  let code := checkRead a.2 role index sub
  match findEntry index sub with
  | some e =>
    if code ≠ 0 then (a.1 ++ leBytes 2 code ++ leBytes 2 0, a.2)
    else
      let (v, s) := if leAt it 3 1 = 1 then (metaBytes a.2 index sub e, a.2) else getValue index sub e a.2
      (a.1 ++ leBytes 2 0 ++ leBytes 2 v.length ++ pad4 v, s)
  | none => (a.1 ++ leBytes 2 code ++ leBytes 2 0, a.2)

/-- A byte string cut into pieces of `n` bytes. -/
def pieces (n : Nat) : Nat → List Byte → List (List Byte)
  | 0, _ => []
  | fuel + 1, bs => if bs.isEmpty then [] else bs.take n :: pieces n fuel (bs.drop n)

/-- GET. -/
def runGet (_ : Nat) (x : Session) (pl : List Byte) (s : State) : Answer :=
  let items := pieces 4 pl.length pl
  if pl.length % 4 ≠ 0 ∨ 64 < items.length ∨ items.any (fun it => decide (1 < leAt it 3 1)) then refuse s (mg 0x06)
  else
    let r := items.foldl (getItem x.role) ([], s)
    reply r.2 0 r.1

def execGet (d : Dgram) (s : State) : Host.Outcome State Fault Refusal := .next (onRequest (isOp 1) 1 true d runGet s)

/-- TABLE_GET: status, count, the elements. -/
def runTableGet (_ : Nat) (x : Session) (pl : List Byte) (s : State) : Answer :=
  let index := leAt pl 0 2
  let sub := leAt pl 2 1
  let first := leAt pl 4 4
  let n := leAt pl 8 2
  if pl.length ≠ 10 ∨ leAt pl 3 1 ≠ 0 then refuse s (mg 0x06)
  else
    let code := checkRead s x.role index sub
    match findEntry index sub with
    | some e =>
      let code := if code ≠ 0 then code else if entryCount e < first + n then mg 0x0C else 0
      if code ≠ 0 then reply s code (leBytes 2 code ++ leBytes 2 0)
      else
        let r := readElems index sub e (range first n) s
        reply r.2 0 (leBytes 2 0 ++ leBytes 2 n ++ r.1)
    | none => reply s code (leBytes 2 code ++ leBytes 2 0)

def execTableGet (d : Dgram) (s : State) : Host.Outcome State Fault Refusal := .next (onRequest (isOp 3) 1 false d runTableGet s)

/-! ### Writes (R367, R368) -/

/-- The items of a SET: index, subindex, a reserved byte, length, value, one after another; none where the payload is malformed. -/
def setItems : Nat → List Byte → Option (List Write)
  | 0, _ => some []
  | fuel + 1, bs =>
    if bs.isEmpty then some []
    else
      let n := leAt bs 4 2
      if bs.length < 6 + n ∨ leAt bs 3 1 ≠ 0 then none
      else
        let w : Write := { index := leAt bs 0 2, sub := leAt bs 2 1, elem := 0, value := (bs.drop 6).take n }
        (setItems fuel (bs.drop (6 + n))).map (w :: ·)

/-- The elements that an item writes: of a TABLE, every element in order (log 63); a value of another length stays one write, which
its length refuses. -/
def itemWrites (w : Write) : List Write :=
  match findEntry w.index w.sub with
  | some e =>
    if e.table then
      if w.value.length = e.count * e.size then
        (List.range e.count).map (fun k => { w with elem := k, value := (w.value.drop (k * e.size)).take e.size })
      else [{ w with value := [] }]
    else [w]
  | none => [w]

/-- The first code that is not 0. -/
def firstBad (l : List Nat) : Nat := (l.find? (· != 0)).getD 0

/-- The codes of the items, from the codes of their writes: a code of its own before MG-0x10. -/
def itemCodes : List Write → List Nat → List Nat
  | [], _ => []
  | w :: ws, codes =>
    let n := (itemWrites w).length
    let mine := codes.take n
    (match mine.find? (fun c => c != 0 && c != mg 0x10) with
     | some c => c
     | none => firstBad mine) :: itemCodes ws (codes.drop n)

/-- SET: a status for each item. -/
def runSet (_ : Nat) (x : Session) (pl : List Byte) (s : State) : Answer :=
  match setItems pl.length pl with
  | none => refuse s (mg 0x06)
  | some items =>
    let r := applyWrites s x (items.flatMap itemWrites)
    let codes := itemCodes items r.2
    reply r.1 (firstBad codes) (codes.flatMap (leBytes 2))

def execSet (d : Dgram) (s : State) : Host.Outcome State Fault Refusal := .next (onRequest (isOp 2) 2 false d runSet s)

/-- TABLE_SET: a status, and the index of the first refused element (0 where none is). -/
def runTableSet (_ : Nat) (x : Session) (pl : List Byte) (s : State) : Answer :=
  let index := leAt pl 0 2
  let sub := leAt pl 2 1
  let first := leAt pl 4 4
  let n := leAt pl 8 2
  if pl.length < 10 ∨ leAt pl 3 1 ≠ 0 then refuse s (mg 0x06)
  else
    match findEntry index sub with
    | none => reply s (unknownEntry x.role index) (leBytes 2 (unknownEntry x.role index) ++ leBytes 2 0 ++ leBytes 4 first)
    | some e =>
      if pl.length ≠ 10 + n * e.size then refuse s (mg 0x06)
      else
        let ws := (List.range n).map (fun k =>
          ({ index := index, sub := sub, elem := first + k, value := (pl.drop (10 + k * e.size)).take e.size } : Write))
        let r := applyWrites s x ws
        let bad := List.find? (fun (c : Nat × Nat) => c.2 != 0 && c.2 != mg 0x10) (List.zip (range first n) r.2)
        let code := match bad with | some c => c.2 | none => 0
        reply r.1 code (leBytes 2 code ++ leBytes 2 0 ++ leBytes 4 (match bad with | some c => c.1 | none => 0))

def execTableSet (d : Dgram) (s : State) : Host.Outcome State Fault Refusal := .next (onRequest (isOp 4) 2 false d runTableSet s)

/-! ### Semaphores (R270, R367, R374) -/

/-- A session of the same principal holds SEM0. -/
def recordHolder (s : State) (x : Session) : Bool :=
  match semSession s 0 with
  | some y => y.principal == x.principal
  | none => false

/-- SEM_ACQ: an acquire and renewal; in SINGLE mode SEM1 to SEM63 only for the manager of record's principal. -/
def runSemAcq (_ : Nat) (x : Session) (pl : List Byte) (s : State) : Answer :=
  let n := leAt pl 0 1
  if pl.length ≠ 1 then refuse s (mg 0x06)
  else if 64 ≤ n then refuse s (mg 0x05)
  else if od s 0x1F00 0x0C = 1 ∧ n ≠ 0 ∧ ¬ recordHolder s x then
    reply s (mg 0x0F) (leBytes 8 ((semWord s n (sessionOwner x)).toNat % 2 ^ 63))
  else
    let s := semAcquire s n (sessionOwner x)
    reply s 0 (leBytes 8 (semWord s n (sessionOwner x)).toNat)

def execSemAcq (d : Dgram) (s : State) : Host.Outcome State Fault Refusal := .next (onRequest (isOp 5) 2 false d runSemAcq s)

/-- SEM_REL: by the owner it frees the semaphore; otherwise MG-0x04, and the attempt is counted. -/
def runSemRel (_ : Nat) (x : Session) (pl : List Byte) (s : State) : Answer :=
  let n := leAt pl 0 1
  if pl.length ≠ 1 then refuse s (mg 0x06)
  else if 64 ≤ n then refuse s (mg 0x05)
  else statusOnly (semRelease s n (sessionOwner x) true) (if owns s n (sessionOwner x) then 0 else mg 0x04)

def execSemRel (d : Dgram) (s : State) : Host.Outcome State Fault Refusal := .next (onRequest (isOp 6) 2 false d runSemRel s)

/-! ### Subscriptions (R369) -/

/-- A target: byte 0 its kind (0 an entry, 1 the event log), byte 1 the subindex, bytes 2 and 3 the index (log 64). The entry's
key, none for the log. -/
def targetKey (pl : List Byte) (ofs : Nat) : Option Nat :=
  if leAt pl ofs 1 = 1 then none else some (leAt pl (ofs + 2) 2 * 256 + leAt pl (ofs + 1) 1)

/-- A subscription on a target. -/
def onTarget (key : Option Nat) (elem : Nat) (e : Nat × Subscription) : Bool := e.2.key == key && e.2.elem == elem

/-- The value that acts of an element: the one in force while a stored one waits. -/
def inForceView (s : State) (index sub elem : Nat) : Nat :=
  match s.inForce.find? (odKey index sub elem) with
  | some v => odView (odSet s index sub elem v) index sub elem
  | none => odView s index sub elem

/-- What a subscription's target shows now: its value in force, or the sequence number of the next event. -/
def targetNow (s : State) (key : Option Nat) (elem : Nat) : Nat :=
  match key with
  | some k => inForceView s (k / 256) (k % 256) elem
  | none => od s 0x1E00 0x01

/-- A subscription added or removed by its number. -/
def setSub (s : State) (slot : Nat) (x : Session) (f : Assoc Subscription → Assoc Subscription) : State :=
  updSession s slot x.sid (fun y => { y with subs := f y.subs })

/-- SUBSCRIBE: byte 0 the operation, bytes 4 to 7 the target, 8 to 11 the element, 12 to 19 the interval (log 64). -/
def runSubscribe (slot : Nat) (x : Session) (pl : List Byte) (s : State) : Answer :=
  let op := leAt pl 0 1
  let key := targetKey pl 4
  let elem := leAt pl 8 4
  let number := fun (n : Nat) (s : State) => reply s 0 (leBytes 4 n)
  if pl.length ≠ 20 ∨ leAt pl 1 3 ≠ 0 ∨ op = 0 ∨ 2 < op ∨ 1 < leAt pl 4 1 then refuse s (mg 0x06)
  else
    let code := match key with
      | some k =>
        (match findEntry (k / 256) (k % 256) with
         | some e => if entryCount e ≤ elem then mg 0x0C else 0
         | none => unknownEntry x.role (k / 256))
      | none => 0
    if code ≠ 0 then refuse s code
    else if op = 2 then
      (match List.find? (onTarget key elem) x.subs with
       | some e => number e.1 (setSub s slot x (fun m => m.erase e.1))
       | none => refuse s (mg 0x05))
    else if 16 ≤ x.subs.length then refuse s (mg 0x0D)
    else
      let n := (lowest (fun i => (x.subs.find? i).isNone) 0 16).getD 0
      let k : Subscription :=
        { key := key, elem := elem, interval := leAt pl 12 8, last := 0, sent := targetNow s key elem }
      number n (setSub s slot x (fun m => m.insert n k))

def execSubscribe (d : Dgram) (s : State) : Host.Outcome State Fault Refusal := .next (onRequest (isOp 7) 1 false d runSubscribe s)

/-- Events from a sequence number on, at most `n`, from the oldest held. -/
def eventsFrom (s : State) (seq n : Nat) : List (Nat × List Byte) :=
  ((range (max seq (oldestEvent s)) (min n (od s 0x1E00 0x01 - max seq (oldestEvent s)))).filterMap (fun i =>
    (s.events.find? (i % 4096)).map (fun e => (i, leBytes 32 (eventWord e)))))

/-- What a NOTIFY of a subscription carries after its number, and what it then has sent. -/
def notifyBody (s : State) (k : Subscription) : List Byte × Nat :=
  match k.key with
  | some key =>
    let v := targetNow s k.key k.elem
    ((match findEntry (key / 256) (key % 256) with | some e => pad4 (valueBytes e v) | none => []), v)
  | none =>
    let es := eventsFrom s k.sent 40
    (es.flatMap (·.2), match es.getLast? with | some e => e.1 + 1 | none => k.sent)

/-- NOTIFY: the value has changed, or events are new, the interval has passed since the last notification of the subscription, and
NSEQ is not used up (R365, R369). -/
def notify (slot sub : Nat) (s : State) : State :=
  match s.mgmt.sessions.find? slot with
  | none => s
  | some x =>
    match x.subs.find? sub with
    | none => s
    | some k =>
      if targetNow s k.key k.elem = k.sent ∨ (k.last ≠ 0 ∧ s.counter.gt < k.last - 1 + k.interval) ∨ x.nseq = 0xFFFFFFFF ∨
          !mgUp s x.port then s
      else
        let (body, sent) := notifyBody s k
        let n := x.nseq + 1
        let bytes := mdpSeal x.sendKeys 2 (renewDue x.seq n) 0 x.sid.toNat 0 0 n s.counter.gt (leBytes 4 sub ++ body)
        let s := updSession s slot x.sid (fun y =>
          { y with nseq := n, subs := y.subs.insert sub { k with last := s.counter.gt + 1, sent := sent } })
        s.send (.datagram x.port x.addr x.udp bytes)

def execNotify (slot sub : Nat) (s : State) : Host.Outcome State Fault Refusal :=
  if isSlot slot then onUnit (isSub sub) "subscription" sub s (onWarden (notify slot sub)) else .refused (.noSuchUnit "session slot" slot)

/-! ### Bulk reads (R370) -/

/-- Data bytes of a datagram. -/
def bulkLimit (x : Session) : Nat := if x.enc then 1368 else 1376

/-- BULK_READ: bytes 0 to 3 the target, 4 to 11 the first element or event sequence number, 12 to 15 the count (log 64). -/
def runBulkRead (slot : Nat) (x : Session) (pl : List Byte) (d : Dgram) (s : State) : Answer :=
  let key := targetKey pl 0
  let first := leAt pl 4 8
  let n := leAt pl 12 4
  if pl.length ≠ 16 ∨ 1 < leAt pl 0 1 then refuse s (mg 0x06)
  else
    let code := match key with
      | some k =>
        (match findEntry (k / 256) (k % 256) with
         | some e => if entryCount e < first + n then mg 0x0C else 0
         | none => unknownEntry x.role (k / 256))
      | none => 0
    if code ≠ 0 then refuse s code
    else
      let b : Bulk :=
        { slot := slot, seq := mdpSeq d, gen := x.renewals, port := d.port, addr := d.addr, udp := d.udp, again := none,
          key := key, next := first, left := n, ofs := 0, sent := 0 }
      { reply { s with mgmt := { s.mgmt with bulk := s.mgmt.bulk ++ [b] } } 0 [] with silent := true }

def execBulkRead (d : Dgram) (s : State) : Host.Outcome State Fault Refusal :=
  .next (onRequest (isOp 9) 1 false d (fun slot x pl s => runBulkRead slot x pl d s) s)

/-- The next elements of a table that fit in `room` bytes. -/
def bulkElems (s : State) (index sub : Nat) (e : Entry) (first n room : Nat) : List (List Byte) :=
  let size := max 1 e.size
  (range first (min n (room / size))).map (fun k => leBytes e.size (odView s index sub k))

/-- The data of the next datagram of a bulk read, and how it stands then. The first datagram of an event-log read begins with the
lost-entry count (log 64). -/
def bulkData (s : State) (x : Session) (b : Bulk) : List Byte × Bulk :=
  match b.key with
  | some k =>
    (match findEntry (k / 256) (k % 256) with
     | some e =>
       let els := bulkElems s (k / 256) (k % 256) e b.next b.left (bulkLimit x)
       let data := els.flatten
       (data, { b with next := b.next + els.length, left := b.left - els.length, ofs := b.ofs + data.length, sent := b.sent + 1 })
     | none => ([], { b with left := 0 }))
  | none =>
    let lost := if b.sent = 0 then leBytes 8 (od s 0x1E00 0x02) else []
    let es := eventsFrom s b.next (min b.left ((bulkLimit x - lost.length) / 32))
    let data := lost ++ es.flatMap (·.2)
    (data, { b with next := (match es.getLast? with | some e => e.1 + 1 | none => b.next),
                    left := if es.isEmpty then 0 else b.left - es.length, ofs := b.ofs + data.length, sent := b.sent + 1 })

/-- Nothing of a bulk read is left after this datagram, or it was the 256th. -/
def bulkOver (s : State) (b : Bulk) : Bool :=
  b.left == 0 || decide (256 ≤ b.sent) || (b.key.isNone && decide (od s 0x1E00 0x01 ≤ b.next))

/-- A datagram of a series stored behind those of its SEQ; of a SEQ that is stored no more nothing is. -/
def storeBehind (seq : Nat) (bytes : List Byte) : List (Nat × List Byte) → List (Nat × List Byte)
  | [] => []
  | e :: es => if e.1 = seq ∧ es.all (fun x => x.1 != seq) then e :: (seq, bytes) :: es else e :: storeBehind seq bytes es

/-- The next datagram of a bulk read, and how the state and the read stand after it (none: it is over). It is stored with its
request's response, unless the session has renewed since (R364, R365). -/
def bulkNext (s : State) (x : Session) (b : Bulk) : List Byte × State × Option Bulk :=
  let (data, b') := bulkData s x b
  let last := bulkOver s b'
  let bytes := responseBytes s x b.seq 9 0 (renewDue x.seq x.nseq + (if last then 0 else 4)) (leBytes 4 b.ofs ++ data)
  let s := updSession s b.slot x.sid (fun y =>
    if y.renewals = b.gen then { y with stored := storeBehind b.seq bytes y.stored } else y)
  (bytes, s, if last then none else some b')

/-- BULK_READ_DATAGRAM: the oldest bulk read, or series sent again, sends its next datagram, within the rate of all sessions, to
where its BULK_READ came from (R357, R370, R372). -/
def bulkReadDatagram (s : State) : State :=
  match s.mgmt.bulk with
  | [] => s
  | b :: bs =>
    match s.mgmt.sessions.find? b.slot with
    | none => { s with mgmt := { s.mgmt with bulk := bs } }
    | some x =>
      if rateSpent s then s
      else
        let s := countRequest s
        let (bytes, s, rest) := match b.again with
          | some (y :: ys) => (y, s, if ys.isEmpty then none else some { b with again := some ys })
          | some [] => ([], s, none)
          | none => bulkNext s x b
        let s := { s with mgmt := { s.mgmt with bulk := rest.toList ++ bs } }
        if bytes.isEmpty then s else s.send (.datagram b.port b.addr b.udp bytes)

def execBulkReadDatagram (s : State) : Host.Outcome State Fault Refusal := .next (onWarden bulkReadDatagram s)

/-! ### RENEW, CLOSE, NOOP (R365 to R367) -/

/-- RENEW: new keys from new nonces; the reply goes under the old MAC key. -/
def runRenew (slot : Nat) (x : Session) (pl : List Byte) (s : State) : Answer :=
  if pl.length ≠ 40 ∨ leAt pl 0 1 ≠ x.principal ∨ 1 < leAt pl 1 1 ∨ leAt pl 2 6 ≠ 0 then refuse s (mg 0x06)
  else if !entropyUp s then refuse s (reasonCode .ey 0x01)
  else
    match principalKey s x.principal with
    | none => refuse s (mg 0x12)
    | some kp =>
      let (b, s) := drawBlock s
      let nd := leBytes 32 b
      let nc := slice pl 8 32
      let s := updSession s slot x.sid (fun y =>
        { y with kmac := sessionKey "MDPMAC01" kp nc nd x.sid, kenc := sessionKey "MDPENC01" kp nc nd x.sid, nseq := 0,
                 renewals := y.renewals + 1 })
      reply s 0 (openPayload x.principal x.role x.enc nd)

def execRenew (d : Dgram) (s : State) : Host.Outcome State Fault Refusal := .next (onRequest (isOp 10) 1 false d runRenew s)

/-- CLOSE: the session ends. -/
def runClose (slot : Nat) (_ : Session) (pl : List Byte) (s : State) : Answer :=
  if pl.isEmpty then statusOnly (endSession s slot) 0 else refuse s (mg 0x06)

def execClose (d : Dgram) (s : State) : Host.Outcome State Fault Refusal := .next (onRequest (isOp 11) 1 false d runClose s)

/-- An OP that no request has. -/
def opUnknown (o : Nat) : Bool := o == 0 || decide (12 < o)

/-- NOOP: nothing but the session's activity. A request with an OP of no request is answered with MG-0x06 (log 65). -/
def runNoop (op : Nat) (_ : Nat) (_ : Session) (pl : List Byte) (s : State) : Answer :=
  if opUnknown op || !pl.isEmpty then refuse s (mg 0x06) else statusOnly s 0

def execNoop (d : Dgram) (s : State) : Host.Outcome State Fault Refusal :=
  .next (onRequest (fun o _ => o == 12 || opUnknown o) 1 false d (runNoop (mdpOp d)) s)

end Sys2Proof.Machine
end

