-- ==== Sys2Proof/Machine/Execs.lean ====
section
/-! DEFINITION. The EXEC commands (R371): sessions, resets, life cycle, OTP, boot (R387, R398, R399, R401). -/
namespace Sys2Proof.Machine

/-! ### The form of an EXEC (R367, R371) -/

/-- The commands that are defined. -/
def execCodes : List Nat := [0x1201, 0x1202, 0x1203, 0x1301, 0x1302, 0x1303, 0x1F01, 0x1F02]

/-- The datagram is the EXEC of a code. -/
def isExec (code : Nat) (o : Nat) (pl : List Byte) : Bool := o == 8 && leAt pl 0 2 == code

/-- An EXEC of no command that is defined, or whose payload holds no code: SESSION_END answers it (log 65). -/
def strayExec (o : Nat) (pl : List Byte) : Bool := o == 8 && (decide (pl.length < 2) || !execCodes.contains (leAt pl 0 2))

/-- A result: status, and after it the result. -/
def result (s : State) (v : Nat) : Answer := reply s 0 (leBytes 2 0 ++ leBytes 2 0 ++ leBytes 1 v)

/-- The argument of an EXEC: its length is as stated, the role suffices, and a command's own length is met (`len` none: any). -/
def withArg (role : Nat) (len : Option Nat) (x : Session) (pl : List Byte) (s : State) (run : List Byte → Answer) : Answer :=
  let arg := pl.drop 4
  if pl.length < 4 ∨ leAt pl 2 2 ≠ arg.length ∨ len.any (· != arg.length) then refuse s (mg 0x06)
  else if x.role < role then refuse s (mg 0x03)
  else run arg

/-! ### Sessions -/

/-- SESSION_END: ends the session of a number; MG-0x08 if there is none. An EXEC too short for a command code is refused with
MG-0x06, an unknown command with MG-0x13. -/
def runSessionEnd (op : Nat) (_ : Nat) (x : Session) (pl : List Byte) (s : State) : Answer :=
  if pl.length < 2 then refuse s (mg 0x06)
  else if strayExec op pl then refuse s (mg 0x13)
  else withArg 3 (some 2) x pl s (fun arg =>
    match List.find? (fun (e : Nat × Session) => bits e.2.sid 11 0 == leAt arg 0 2) s.mgmt.sessions with
    | some e => statusOnly (endSession s e.1) 0
    | none => statusOnly s (mg 0x08))

def execSessionEnd (d : Dgram) (s : State) : Host.Outcome State Fault Refusal :=
  .next (onRequest (fun o pl => isExec 0x1F01 o pl || strayExec o pl) 1 false d (runSessionEnd (mdpOp d)) s)

/-- PRINCIPAL_END: ends every session of a principal. -/
def runPrincipalEnd (_ : Nat) (x : Session) (pl : List Byte) (s : State) : Answer :=
  withArg 3 (some 1) x pl s (fun arg => statusOnly (endPrincipal s (leAt arg 0 1)) 0)

def execPrincipalEnd (d : Dgram) (s : State) : Host.Outcome State Fault Refusal :=
  .next (onRequest (isExec 0x1F02) 1 false d runPrincipalEnd s)

/-! ### RESET (R387, R394) -/

/-- The role that a level needs. -/
def resetRole (level : Nat) : Nat := if level = 1 ∨ level = 2 then 3 else 2

/-- The result of RESET, and the target: the partition of an L4, the block of an L5. -/
def resetResult (s : State) (level part block : Nat) : Nat × Nat :=
  if level = 0 ∨ 6 < level then (0x03, 0)
  else if level = 5 then (if part < 8 ∧ shapeOf s part ≠ 0 then (0, part) else (0x01, 0))
  else if level = 6 then
    (if !blockExists s block then (0x01, 0) else if blockIdle s block then (0, block) else (0x02, 0))
  else (0, 0)

/-- RESET: the response goes first, and an accepted reset is asserted after it (log 66). -/
def runReset (_ : Nat) (x : Session) (pl : List Byte) (s : State) : Answer :=
  withArg (resetRole (leAt pl 4 1)) (some 4) x pl s (fun arg =>
    let level := leAt arg 0 1
    let (code, target) := resetResult s level (leAt arg 1 1) (leAt arg 2 2)
    if code = 0 then { result s 0 with reset := some (level, target) } else result s code)

def execReset (d : Dgram) (s : State) : Host.Outcome State Fault Refusal := .next (onRequest (isExec 0x1201) 1 false d runReset s)

/-! ### Life cycle and OTP (R399, R401) -/

/-- A write of a record begins, result 0x00; with VDD_AON faulted 0x05 and with no blank generation 0x04, and nothing is blown; no
write starts while another, PWR_GOOD low or a wide episode keeps it (R330, R389, R399). -/
def beginOtp (s : State) (r : Nat) (data : BitVec 256) (then_ : Option Nat) : Answer :=
  if s.power.aonFault then result s 0x05
  else if otpBusy s then refuse s (mg 0x0B)
  else
    match otpBegin s r data then_ with
    | some s => result s 0
    | none => result (setExhausted s r) 0x04

/-- LC_ADVANCE: the intent record and then the state record of the next state; any other target is refused with 0x03. -/
def runLcAdvance (_ : Nat) (x : Session) (pl : List Byte) (s : State) : Answer :=
  withArg 3 (some 1) x pl s (fun arg =>
    let t := leAt arg 0 1
    if t ≠ lcState s + 1 ∨ 4 < t then result s 0x03
    else beginOtp s (intentRec t) (lcData (intentRec t)) (some (stateRec t)))

def execLcAdvance (d : Dgram) (s : State) : Host.Outcome State Fault Refusal :=
  .next (onRequest (isExec 0x1202) 1 false d runLcAdvance s)

/-- OTP_WRITE: byte 0 the record, bytes 1 to 32 its data (log 67). -/
def runOtpWrite (_ : Nat) (x : Session) (pl : List Byte) (s : State) : Answer :=
  withArg 3 (some 33) x pl s (fun arg =>
    let r := leAt arg 0 1
    let v := leAt arg 1 32
    if !otpNamed r then refuse s (mg 0x05)
    else if !otpWritable r (lcState s) then refuse s (mg 0x12)
    else if r = 0x08 ∧ (63 < v ∨ v < svnMin s) then refuse s (mg 0x05)
    else beginOtp s r (BitVec.ofNat 256 v) none)

def execOtpWrite (d : Dgram) (s : State) : Host.Outcome State Fault Refusal :=
  .next (onRequest (isExec 0x1203) 1 false d runOtpWrite s)

/-! ### Boot commands (R398) -/

/-- BOOT_WRITE: data into the 16 MiB boot buffer, until it is released at ACCEPTING (log 68). -/
def runBootWrite (_ : Nat) (x : Session) (pl : List Byte) (s : State) : Answer :=
  withArg 3 none x pl s (fun arg =>
    let ofs := leAt arg 0 4
    let data := arg.drop 4
    if arg.length < 4 then refuse s (mg 0x06)
    else if 16777216 < ofs + data.length then refuse s (mg 0x05)
    else if s.boot.devState = 2 then refuse s (mg 0x0B)
    else statusOnly { s with boot := { s.boot with buffer := s.boot.buffer.writeN 0 ofs data } } 0)

def execBootWrite (d : Dgram) (s : State) : Host.Outcome State Fault Refusal :=
  .next (onRequest (isExec 0x1301) 1 true d runBootWrite s)

/-- BOOT_GO: the bundle in the buffer is verified, and RESULT answers. Once firmware runs, RESULT answers alone. -/
def runBootGo (_ : Nat) (x : Session) (pl : List Byte) (s : State) : Answer :=
  withArg 3 (some 0) x pl s (fun _ =>
    let s := if s.boot.devState = 0 then verifyBuffer s else s
    result s s.boot.result)

def execBootGo (d : Dgram) (s : State) : Host.Outcome State Fault Refusal := .next (onRequest (isExec 0x1302) 1 true d runBootGo s)

/-- FLASH_WRITE: the running bundle into a flash slot (log 68). -/
def runFlashWrite (_ : Nat) (x : Session) (pl : List Byte) (s : State) : Answer :=
  withArg 3 (some 1) x pl s (fun arg =>
    let slot := leAt arg 0 1
    if 1 < slot then refuse s (mg 0x05)
    else if s.boot.running.isEmpty ∨ s.boot.flashSize < slotOfs s slot + s.boot.running.length then refuse s (mg 0x0B)
    else
      let end_ := List.replicate (4096 * ceilDiv s.boot.running.length 4096 + 4096 - s.boot.running.length) 0
      let bytes := (s.boot.running ++ end_).take (s.boot.flashSize - slotOfs s slot)
      statusOnly { s with boot := { s.boot with flash := s.boot.flash.writeN 0 (slotOfs s slot) bytes } } 0)

def execFlashWrite (d : Dgram) (s : State) : Host.Outcome State Fault Refusal :=
  .next (onRequest (isExec 0x1303) 1 true d runFlashWrite s)

end Sys2Proof.Machine
end

