-- ==== Sys2Proof/Machine/Fabric.lean ====
section
/-! DEFINITION. Tokens in the mesh, matching, firing and the fold schedule (R31 to R49). -/
namespace Sys2Proof.Machine

/-! ### Injection and arrival -/

/-- The fc in which an emitted token is injected: the first of its route's lane after its issue (R32). -/
def Outgoing.due (o : Outgoing) : Nat := slotFrom (routeLane o.route) (o.issued + 1)

/-- The outgoing token that is injected first. -/
def firstOut : List Outgoing → Option Outgoing
  | [] => none
  | o :: os => match firstOut os with
    | some o' => if o'.due < o.due then some o' else some o
    | none => some o

/-- TOKEN_INJECT: an emitted token enters the mesh in its lane's slot; one of more than 48 payload bytes as two flits, 4
fc apart (R32, and "Tokens and bulk flows"). The spec does not say what becomes of two tokens of a cell that are due in one slot of
a lane, nor of a second flit whose slot falls in another fold's dwell: each is put on the link in its fc (log 99). -/
def tokenInject (c : Nat) (s : State) : State :=
  match firstOut (s.cell c).outbox with
  | none => s
  | some o =>
    cellAtFc s c o.due (fun p s =>
      let s := s.updCell c (fun x => { x with outbox := x.outbox.erase o })
      let out := routeOut o.route
      if o.tok.len ≤ 48 then sendFlit s p c out o.due (.token o.tok)
      else sendFlit (sendFlit s p c out o.due .tokenFirst) p c out (o.due + 4) (.tokenSecond o.tok))

def execTokenInject (c : Nat) (s : State) : Host.Outcome State Fault Refusal := onCell c s (tokenInject c)

/-- The order in which flits are taken: by fc, then routers before engines, by number, by link side (R33). -/
def flitBefore (a b : Flit) : Bool :=
  decide (a.due < b.due) || (decide (a.due = b.due) &&
    decide (ofBool a.toEngine * 2 ^ 20 + a.dest * 8 + a.side < ofBool b.toEngine * 2 ^ 20 + b.dest * 8 + b.side))

/-- The flit that arrives first. -/
def firstFlit : List Flit → Option Flit
  | [] => none
  | f :: fs => match firstFlit fs with
    | some g => if flitBefore g f then some g else some f
    | none => some f

/-- A flit at a router: forwarded under the current fold's table, delivered, or unrouted (R34, R48, R163). What a die bridge
found is counted on the die that it reaches; a flit that it has corrupted faults with ST-0x04 (R12, R423; log 96). -/
def routeFlit (s : State) (p : Nat) (f : Flit) (ecc : EccResult) : State :=
  let s := if f.bridge then countLink s (cellDie f.dest) ecc else s
  if f.bridge && ecc == .uncorrectable then arrivalAbort s p f.dest .st 0x04
  else if f.toEngine then
    s.updEngine f.dest (fun e => { e with inbox := e.inbox ++ [{ key := f.lane, fc := f.due, body := f.body }] })
  else
    let x := s.cell f.dest
    let key := 4 * f.side + f.lane
    let b := fwdByte (x.fold x.cur) key
    if !inPart s p f.dest || decide (b < 128) || decide (4 < b % 8) then arrivalAbort s p f.dest .ov 0x09
    else if b % 8 = 4 then s.updCell f.dest (fun x => x.deliverFlit key f.due f.body)
    else sendFlit s p f.dest (b % 8) f.due f.body

/-- FLIT_ARRIVE: the next flit of the partition reaches a router or an engine (R32, R34). -/
def flitArrive (p : Nat) (ecc : EccResult) (s : State) : State :=
  match firstFlit (s.part p).flits with
  | none => s
  | some f => atFc s p f.due (fun s => routeFlit (s.updPart p (fun x => { x with flits := x.flits.erase f })) p f ecc)

def execFlitArrive (f : FlitRead) (s : State) : Host.Outcome State Fault Refusal := onPart f.part s (flitArrive f.part f.bridge)

/-- LOOPBACK_TOKEN_DELIVERY: a loopback token enters its queue 2 fc after its EMIT (R32). -/
def loopbackDelivery (c : Nat) (s : State) : State :=
  match (s.cell c).loopback with
  | [] => s
  | (f, t) :: rest => cellAtFc s c f (fun _ s => s.updCell c (fun x => { x with loopback := rest }.enqueue t f))

def execLoopbackTokenDelivery (c : Nat) (s : State) : Host.Outcome State Fault Refusal := onCell c s (loopbackDelivery c)

/-! ### Matching (R33, R37, R41) -/

/-- Tags lie within an arc of 32,768 consecutive values (R41). -/
def tagArc (ts : List (BitVec 16)) : Bool := ts.isEmpty || ts.any (fun a => ts.all (fun b => decide ((b - a).toNat ≤ 32767)))

/-- The tags held in a cell's match store, and in its queues in fc `m`. -/
def Cell.tags (x : Cell) (m : Nat) : List (BitVec 16) :=
  x.slots.map (fun e => e.2.tag) ++ (x.queues.flatten.filter (fun q => decide (q.entered ≤ m))).map (fun q => q.tok.tag)

/-- The slot of a fold and tag. -/
def Cell.findSlot (x : Cell) (fold : Nat) (tag : BitVec 16) : Option Nat :=
  (List.find? (fun (e : Nat × Slot) => e.2.fold == fold && e.2.tag == tag) x.slots).map (·.1)

/-- A slot is free in fc `m`: a slot released by an END is free from the fc after it (R39). -/
def Cell.slotFree (x : Cell) (m n : Nat) : Bool :=
  (x.slots.find? n).isNone && !(x.freed == some n && (match x.lastEnd with | some e => decide (m ≤ e) | none => false))

/-- The lowest-numbered free slot (R37). -/
def Cell.freeSlot (x : Cell) (m : Nat) : Option Nat := (List.range 8).find? (x.slotFree m)

/-- Every port of a mask holds a token. -/
def slotFull (mask : BitVec 4) (ops : List (Option Token)) : Bool :=
  (List.range 4).all (fun i => !bit mask i || (nth none ops i).isSome)

/-- A token takes its position in a slot (R37, R38); OV-0x07 when it is full or not in the mask. -/
def Cell.fillSlot (x : Cell) (m n : Nat) (sl : Slot) (t : Token) : Cell × Option Nat :=
  let port := t.dport.toNat
  let mask := (x.fold t.dfold.toNat).opMask
  if !bit mask port || (nth none sl.ops port).isSome then ({ x with slots := x.slots.insert n sl }, some 0x07)
  else
    let ops := setNth sl.ops port (some t)
    let sl' := { sl with ops := ops, complete := if slotFull mask ops then some m else none }
    ({ x with slots := x.slots.insert n sl' }, none)

/-- A token at the match store in fc `m` (R37): the cell after it, and the OV code it raises. -/
def Cell.matchToken (x : Cell) (m : Nat) (t : Token) : Cell × Option Nat :=
  let fold := t.dfold.toNat
  match (x.findSlot fold t.tag).bind (fun n => (x.slots.find? n).map (fun sl => (n, sl))) with
  | some (n, sl) => x.fillSlot m n sl t
  | none =>
    match x.freeSlot m with
    | none => (x, some 0x01)
    | some n =>
      if !tagArc (t.tag :: x.tags m) then (x, some 0x06)
      else x.fillSlot m n { fold := fold, tag := t.tag, ops := [none, none, none, none], complete := none, firing := false } t

/-- The head of a queue that is matched in fc `m`, and the rest of the queue. -/
def Cell.headAt (x : Cell) (m port : Nat) : Option (Token × List Queued) :=
  match nth [] x.queues port with
  | q :: qs => if q.entered < m then some (q.tok, qs) else none
  | [] => none

/-- The token by which a queue holds more than 16 in fc `m`, the head that it passes on in `m` gone (R33, R40's table). -/
def Cell.overflow (x : Cell) (m port : Nat) : Option Token :=
  let held := match x.headAt m port with
    | some (_, rest) => rest
    | none => nth [] x.queues port
  match (held.filter (fun q => decide (q.entered ≤ m)))[16]? with
  | some q => some q.tok
  | none => none

/-- The fc in which the store next matches: after the entry of the earliest head, and not twice in one fc. -/
def Cell.matchAt (x : Cell) : Option Nat :=
  match (x.queues.filterMap (·.head?)).map (fun q => q.entered + 1) with
  | [] => none
  | e :: es => some (max x.matchFrom (es.foldl min e))

/-- An abort by an arriving token: the DFOLD and TAG of its header (R59). -/
def tokenAbort (s : State) (p c n : Nat) (t : Token) : State := abortTask s p .ov n c t.dfold.toNat t.tag.toNat

/-- One queue in the match of fc `m`. -/
def matchPort (p c m : Nat) (s : State) (port : Nat) : State :=
  let s := match (s.cell c).overflow m port with
    | some t => tokenAbort s p c 0x08 t
    | none => s
  match (s.cell c).headAt m port with
  | none => s
  | some (t, rest) =>
    let x := s.cell c
    let (x', fault) := { x with queues := setNth x.queues port rest }.matchToken m t
    let s := s.setCell c x'
    match fault with
    | some n => tokenAbort s p c n t
    | none => s

/-- TOKEN_MATCH: in one fc the head of each queue, in port order (R37). -/
def tokenMatch (c : Nat) (s : State) : State :=
  match (s.cell c).matchAt with
  | none => s
  | some m =>
    cellAtFc s c m (fun p s =>
      let s := (List.range 4).foldl (matchPort p c m) s
      s.updCell c (fun x => { x with matchFrom := m + 1 }))

def execTokenMatch (c : Nat) (s : State) : Host.Outcome State Fault Refusal := onCell c s (tokenMatch c)

/-! ### Firing (R38) and the fold schedule (R45 to R49) -/

/-- The first fc in which the free sequencer may select: in the dwell, after the last END. -/
def Cell.freeFrom (x : Cell) : Nat := max x.dwellFrom (match x.lastEnd with | some e => e + 1 | none => 0)

/-- The eligible slots of the current fold with the fc in which each becomes so. -/
def Cell.eligible (x : Cell) : List (Nat × Nat) :=
  x.slots.filterMap (fun e =>
    match e.2.complete with
    | some k => if e.2.fold = x.cur ∧ e.2.firing = false then some (e.1, k + 1) else none
    | none => none)

/-- The fc of the next selection and the slot it selects (R38). -/
def Cell.selectAt (x : Cell) : Option (Nat × Nat) :=
  match x.eligible with
  | [] => none
  | e :: es =>
    let f := max x.freeFrom (es.foldl (fun a y => min a y.2) e.2)
    ((e :: es).find? (fun y => decide (y.2 ≤ f))).map (fun y => (f, y.1))

/-- A firing begins at a fold's instruction 0 (R38). -/
def Cell.fire (x : Cell) (tag : BitVec 16) (slot : Option Nat) (f : Nat) : Cell :=
  { x with firing := some { fold := x.cur, tag := tag, slot := slot, pc := 0, ready := f, waiting := false, strm := [] } }

/-- The firing of a fold with an empty operand mask: once, with tag 0 and no slot (R38). -/
def Cell.fireEmpty (x : Cell) (f : Nat) : Cell := (x.fire 0 none f).updFold x.cur (fun y => { y with fired := true })

/-- FIRING_SELECT: the free sequencer selects the lowest-numbered eligible slot of the current fold (R38). -/
def firingSelect (c : Nat) (s : State) : State :=
  let x := s.cell c
  if x.firing.isSome || x.switching.isSome || x.sched.isEmpty then s
  else if x.emptyMask then cellAtFc s c x.dwellFrom (fun _ s => s.updCell c (fun x => x.fireEmpty x.dwellFrom))
  else
    match x.selectAt with
    | none => s
    | some (f, n) =>
      if x.dwellEnd ≤ f then s
      else
        cellAtFc s c f (fun _ s => s.updCell c (fun x =>
          match x.slots.find? n with
          | some sl => { x.fire sl.tag (some n) f with slots := x.slots.insert n { sl with firing := true } }
          | none => x))

def execFiringSelect (c : Nat) (s : State) : Host.Outcome State Fault Refusal := onCell c s (firingSelect c)

/-- The position after the present one: entry 0 after the entry marked LAST (R45). -/
def Cell.nextPos (x : Cell) : Nat :=
  if bit x.entry 28 ∨ x.sched.length ≤ x.schedPos + 1 then 0 else x.schedPos + 1

/-- The end of a dwell: no switch between entries of one fold; otherwise the firing in progress is suspended and a switch
of 4 fc begins (R46, R47). -/
def Cell.endDwell (x : Cell) : Cell :=
  let e := x.dwellEnd
  if entryFold (nth 0 x.sched x.nextPos) = x.cur then { x with schedPos := x.nextPos, dwellFrom := e }
  else
    let x := match x.firing with
      | some f => { x with firing := none }.updFold f.fold (fun y => { y with susp := some f })
      | none => x
    { x with switching := some (e + 4) }

/-- DWELL_END (R46, R47, R49). -/
def dwellEnd (c : Nat) (s : State) : State :=
  let x := s.cell c
  if x.sched.isEmpty || x.switching.isSome then s
  else cellAtFc s c x.dwellEnd (fun _ s => s.updCell c Cell.endDwell)

def execDwellEnd (c : Nat) (s : State) : Host.Outcome State Fault Refusal := onCell c s (dwellEnd c)

/-- The next fold becomes current: a suspended firing resumes, or an empty-mask fold fires (R38, R46 to R48). -/
def Cell.switchDone (x : Cell) (f : Nat) : Cell :=
  let x := { x with schedPos := x.nextPos, dwellFrom := f, switching := none }
  match (x.fold x.cur).susp with
  | some g => { x with firing := some { g with ready := max g.ready f } }.updFold x.cur (fun y => { y with susp := none })
  | none => if x.emptyMask then x.fireEmpty f else x

/-- FOLD_SWITCH_DONE (R46 to R48). -/
def foldSwitchDone (c : Nat) (s : State) : State :=
  match (s.cell c).switching with
  | some f => cellAtFc s c f (fun _ s => s.updCell c (fun x => x.switchDone f))
  | none => s

def execFoldSwitchDone (c : Nat) (s : State) : Host.Outcome State Fault Refusal := onCell c s (foldSwitchDone c)

end Sys2Proof.Machine
end

