-- ==== Sys2Proof/Machine/Power.lean ====
section
/-! DEFINITION. Rails, the governor, the embankment limiter, energy, and thermal protection (R329 to R347). -/
namespace Sys2Proof.Machine

/-! ### Rails (R329, R330) -/

/-- Set voltage of a rail in mV: of a fabric die the one commanded, of the others the board's (R329). -/
def railSet (s : State) (n : Nat) : Nat :=
  if n < 4 then od s (0x4000 + 0x100 * n) 0x01 else nth 0 [800, 800, 850, 1100, 1100, 400, 1800, 800] (n - 4)

/-- READ_VOUT lies outside ±5 % of the set voltage. -/
def outOfTolerance (s : State) (r : RailReading) : Bool :=
  let v := railSet s r.rail
  decide (100 * r.vout < 95 * v) || decide (105 * v < 100 * r.vout)

/-- A count kept by rail. -/
def railCount (m : Assoc Nat) (n : Nat) : Nat := Assoc.get (fun _ => 0) m n
def setRailCount (m : Assoc Nat) (n v : Nat) : Assoc Nat := Assoc.set (fun _ => 0) m n v

/-- Energy in µJ of a power in mW over a poll of 100 µs (R341). -/
def pollEnergy (mw : Nat) : Nat := mw / 10

/-- Energy added to an accumulator, which never wraps. -/
def addEnergy (s : State) (index sub elem uj : Nat) : State := odSet s index sub elem (od s index sub elem + uj)

/-- A share of an energy. -/
def shareOf (e part total : Nat) : Nat := if total = 0 then 0 else e * part / total

/-- The half of a die that belongs to the partition counts (R276). -/
def halfOf (s : State) (p d h : Nat) : Nat := ofBool ((partEighths s p).contains (2 * d + h))

/-- A partition's part of a fabric rail's energy above the spillway's share: static by cells, the rest by the activity of its
halves, or by cells where none is counted (R341; log 59). -/
def fabricPart (s : State) (p d e : Nat) : Nat :=
  let a := fun h => od s (0x4000 + 0x100 * d) 0x08 h
  let above := e - pollEnergy (spillOf s d)
  let static := min above (Config.dieStatic d)
  let cells := halfOf s p d 0 + halfOf s p d 1
  let act := halfOf s p d 0 * a 0 + halfOf s p d 1 * a 1
  shareOf static cells 2 +
    (if a 0 + a 1 = 0 then shareOf (above - static) cells 2 else shareOf (above - static) act (a 0 + a 1))

/-- A partition's part of the energy of VDD_IO or VDD_SDS: what the link and ingest lanes take by bytes carried since the last
poll, the rest by staging ways owned (R341; log 59). -/
def lanePart (s : State) (n p e : Nat) : Nat :=
  let lanes := min e (Config.laneEnergy n e)
  shareOf (e - lanes) (numWays s p) (16 * numIo s.boot.assembly) +
    shareOf lanes (Assoc.get (fun _ => 0) s.power.carried p) (s.power.carried.map (·.2)).sum

/-- A partition's part of a rail's energy over one poll (R341). -/
def railPart (s : State) (n p e : Nat) : Nat :=
  let asm := s.boot.assembly
  if shapeOf s p = 0 then 0
  else if n < 4 then fabricPart s p n e
  else match n with
    | 4 => shareOf e (partEighths s p).length 8
    | 5 | 6 => lanePart s n p e
    | 7 => shareOf e (partChannels s p).length (numChannels asm)
    | 8 | 9 | 10 => shareOf e (partStacks s p).length (numStacks asm)
    | _ => 0

/-- A rail's energy over one poll, integrated and attributed (R341). -/
def railEnergy (s : State) (n mw : Nat) : State :=
  let e := pollEnergy mw
  let s := (List.range 8).foldl (fun s p => addEnergy s 0x1400 0x04 p (railPart s n p e)) s
  let s := addEnergy (addEnergy s 0x1400 0x06 n e) 0x1400 0x02 0 e
  if n < 4 then
    let s := addEnergy s (0x4000 + 0x100 * n) 0x04 0 e
    addEnergy s 0x1400 0x03 0 (pollEnergy (spillOf s n))
  else s

/-- A rail fault: PW-0x03, a breach of the management plane; on VDD_AON no OTP write starts any more (R330). -/
def railFault (s : State) (n : Nat) : State :=
  let s := if n = 11 then { s with power := { s.power with aonFault := true } } else s
  raiseBreach s none none (some (BitVec.ofNat 16 (0x1000 + reasonCode .pw 0x03)))

/-- A rail that has answered: power, energy, and its faults. -/
def railAnswer (s : State) (r : RailReading) : State :=
  let bad := outOfTolerance s r
  let run := if bad then railCount s.power.outOfTol r.rail + 1 else 0
  let s := { s with power := { s.power with missed := setRailCount s.power.missed r.rail 0,
                                            outOfTol := setRailCount s.power.outOfTol r.rail run,
                                            vout := setRailCount s.power.vout r.rail r.vout,
                                            iout := setRailCount s.power.iout r.rail r.iout } }
  let s := odSet s 0x1400 0x05 r.rail r.pout
  let s := if r.rail < 4 then odSet s (0x4000 + 0x100 * r.rail) 0x03 0 r.pout else s
  let s := railEnergy s r.rail r.pout
  if r.fault || run == 2 then railFault s r.rail else s

/-- A rail that has not answered: the energy goes on from its last poll; after 10 polls telemetry is lost (R342, R348). -/
def railSilent (s : State) (n : Nat) : State :=
  let k := railCount s.power.missed n + 1
  let s := { s with power := { s.power with missed := setRailCount s.power.missed n k } }
  let s := if k = 10 then logReason s .pw 0x08 0 2 none (powerDetail n 0 0) else s
  railEnergy s n (od s 0x1400 0x05 n)

/-- The package power of a poll enters the mean of the step interval, and the bytes carried are counted anew (R332, R341). -/
def closePoll (s : State) : State :=
  let w := ((List.range 12).map (fun n => od s 0x1400 0x05 n)).sum
  { s with power := { s.power with telLost := s.power.missed.any (fun e => decide (10 ≤ e.2)), carried := [],
                                   pollSum := s.power.pollSum + w, pollCount := s.power.pollCount + 1 } }

/-- RAIL_POLL. -/
def railPoll (rs : List RailReading) (s : State) : State :=
  closePoll ((List.range 12).foldl (fun s n =>
    match rs.find? (fun r => r.rail == n) with
    | some r => railAnswer s r
    | none => railSilent s n) s)

def execRailPoll (rs : List RailReading) (s : State) : Host.Outcome State Fault Refusal := .next (onWarden (railPoll rs) s)

/-- VRM_ALERT_ASSERT: PMB_ALERT_N without a fault clamps the pace to 1 from the next pace step (R330, R336). -/
def vrmAlertAssert (s : State) : State :=
  if s.pins.pmbAlertN then
    onWarden (fun s => logReason { s with clocks := { s.clocks with alert := true } } .pw 0x02 0 2 none 0)
      { s with pins := { s.pins with pmbAlertN := false } }
  else s

def execVrmAlertAssert (s : State) : Host.Outcome State Fault Refusal := .next (vrmAlertAssert s)

/-- VRM_ALERT_DEASSERT. -/
def execVrmAlertDeassert (s : State) : Host.Outcome State Fault Refusal :=
  .next (onWarden (fun s => { s with clocks := { s.clocks with alert := false } })
    { s with pins := { s.pins with pmbAlertN := true } })

/-! ### The governor (R332 to R337) -/

/-- The partition counts in Pact: BUSY or DRAINING. -/
def isBusy (x : Part) : Bool := x.state == .busy || x.state == .draining

/-- The partition counts in Phyp: it has an enabled image. -/
def hasImage (x : Part) : Bool := x.image.isSome && x.enable

/-- Pact and Phyp at pace `k`, in mW (R332). -/
def pAct (s : State) (k : Nat) : Nat :=
  s.power.static + ((List.range 8).map (fun p => if isBusy (s.part p) then partLoadMw s p k else 0)).sum
def pHyp (s : State) (k : Nat) : Nat :=
  s.power.static + ((List.range 8).map (fun p => if isBusy (s.part p) || hasImage (s.part p) then partLoadMw s p k else 0)).sum

/-- The load estimate of a partition from the dynamic power measured at the pace in force (R333). -/
def measuredLoad (s : State) (p mw : Nat) : Nat :=
  let n := max 1 (partDies s p).length
  let unit := ((partDies s p).map (fun d => scaledMw s d s.clocks.pace (1000000 / n))).sum
  mw * 1000 / max 1 unit

/-- The estimates of the partitions that were BUSY throughout the step interval (R333). -/
def updateLoads (s : State) (busy : List (Nat × Nat)) : State :=
  busy.foldl (fun s e =>
    if s.power.wasBusy.contains e.1 && (s.part e.1).state == .busy then odSet s (0x2000 + 0x100 * e.1) 0x10 0 (measuredLoad s e.1 e.2) else s) s

/-- Ramp rates in mW per window (R332, R338). -/
def rampRate (s : State) (sub : Nat) (shelf : Bool) : Nat := od s 0x1100 sub * 1000 * (if shelf then od s 0x1100 0x24 else 1)

/-- What an evaluation computes (R332). -/
structure Plan3 where
  e     : Nat
  goal  : Nat
  k     : Nat
  floor : Nat
  limit : Nat
  deriving DecidableEq, Repr, Inhabited

/-- The highest pace up to `top` that satisfies `ok`, and otherwise 1. -/
def highestPace (ok : Nat → Bool) : Nat → Nat
  | 0 => 1
  | k + 1 => if ok (k + 1) then k + 1 else highestPace ok k

/-- Envelope, pace and spillway floor for a measured power and ramps (R332). With telemetry lost the pace does not rise and
the envelope is M (R348). -/
def evaluate (s : State) (m up down : Nat) : Plan3 :=
  let top := min (od s 0x1100 0x06) s.thermal.ceiling
  let top := if s.power.telLost then min top s.clocks.govPace else top
  let goal := min (od s 0x1100 0x20 * 1000) (pAct s (od s 0x1100 0x06))
  let e := if s.power.telLost then m else max (m - down) (min goal (m + up))
  let k := highestPace (fun k => decide (pAct s k ≤ e) && decide (pHyp s k ≤ m + up)) top
  { e := e, goal := goal, k := k, floor := if e = goal then m - down else e, limit := m + up }

/-- The term of R336 that set the governor's pace: ceiling, cap, limiter, thermal ceiling or lost telemetry (R349). -/
def paceReason (s : State) (r : Plan3) : Nat :=
  if r.k = od s 0x1100 0x06 then 0
  else if r.k = s.thermal.ceiling then 3
  else if s.power.telLost ∧ r.k = s.clocks.govPace then 5
  else if r.e < pAct s (r.k + 1) ∧ r.e = od s 0x1100 0x20 * 1000 then 1
  else 2

/-- SMAX over all dies, in mW. -/
def smaxAll (s : State) : Nat := ((List.range 4).map (smaxMw s)).sum

/-- The cap is below Pact(1): after 10 windows PW-0x01 is logged, and ALERT_N asserted until it no longer is (R337). -/
def capCheck (s : State) : State :=
  if od s 0x1100 0x20 * 1000 < pAct s 1 then
    let n := s.power.overCap + 1
    let s := { s with power := { s.power with overCap := n } }
    let s := if n = 10 then logReason s .pw 0x01 0 2 none (powerDetail 0 0 (pAct s 1)) else s
    if 10 ≤ n then assertAlertN s else s
  else
    let s := if 10 ≤ s.power.overCap then
        { s with pins := { s.pins with alertN := !(bit s.breach 7) && !s.thermal.latch } }
      else s
    { s with power := { s.power with overCap := 0 } }

/-- ACTIVITY of the dies over the step interval, by half: what it counts the spec does not define further (R351; log 59). -/
def sampleActivity (s : State) (activity : List Nat) : State :=
  (List.range 8).foldl (fun s i => odSet s (0x4000 + 0x100 * (i / 2)) 0x08 (i % 2) (nth 0 activity i % 2 ^ 32)) s

/-- M in mW: the mean package power of the polls since the step point; the last M where there was none (R332; log 60). -/
def meanPower (s : State) : Nat :=
  if s.power.pollCount = 0 then s.power.measured else s.power.pollSum / s.power.pollCount

/-- GOVERNOR_EVALUATION: the dies' activity, the static power, SHELF_OK and the dynamic power measured of partitions, in mW. The values stand
until the step point; a raise's voltages are commanded now (R332, R333, R335, R337). The spillway is short where it cannot
keep the power from falling by more than DOWN (R338). -/
def governorEvaluation (activity : List Nat) (static : Nat) (shelf : Bool) (busy : List (Nat × Nat)) (s : State) : State :=
  let m := meanPower s
  let s := { s with power := { s.power with static := static, measured := m },
                    thermal := { s.thermal with coolEval := s.thermal.coolRun == some true },
                    pins := { s.pins with shelfOk := shelf } }
  let s := updateLoads (sampleActivity s activity) busy
  let r := evaluate s m (rampRate s 0x22 shelf) (rampRate s 0x23 shelf)
  let short := decide (pAct s r.k + smaxAll s < m - rampRate s 0x23 shelf)
  let s := odSet (odSet s 0x1100 0x25 0 (ofBool shelf)) 0x1100 0x26 0 (r.e / 1000)
  let s := markSample (odSet s 0x1400 0x01 0 m) 46 m
  let s := capCheck s
  let s := if short then logReason (odCount s 0x1100 0x2B 0 32) .pw 0x09 0 2 none 0 else s
  let s := if s.clocks.govPace < r.k then commandVid s r.k else s
  { s with power := { s.power with envelope := r.e, nextPace := r.k, nextSpill := min (r.floor - pAct s r.k) (smaxAll s),
                                   nextTerm := paceReason s r, evaluated := true } }

def execGovernorEvaluation (activity : List Nat) (static : Nat) (shelf : Bool) (busy : List (Nat × Nat)) (s : State) :
    Host.Outcome State Fault Refusal := .next (onWarden (governorEvaluation activity static shelf busy) s)

/-- The spillway set: in equal parts on the dies whose SMAX is not 0, each at most its SMAX, in steps of 0.1 W (R332, R334;
log 60). -/
def spreadSpill (s : State) (w : Nat) : State :=
  let ds := (List.range 4).filter (fun d => smaxMw s d != 0)
  (List.range 4).foldl (fun s d => setSpill s d (if ds.contains d then min (tenthW (w / ds.length)) (smaxMw s d) else 0)) s

/-- The thermal ceiling rises by 1 at a step point where every sensor was cool for the whole step interval that ended at the
evaluation; the next interval begins (R332, R344). -/
def coolStep (s : State) : State :=
  let c := s.thermal.ceiling + 1
  let s := if s.thermal.coolEval ∧ s.thermal.ceiling < 16 then
      { s with thermal := { s.thermal with ceiling := c, throttled := if c = 16 then [] else s.thermal.throttled } }
    else s
  { s with thermal := { s.thermal with coolRun := none, coolEval := false } }

/-- A fabric rail has reported the voltage of pace `k`: it is commanded, and READ_VOUT lies within the board's ±2 % of it
(R329, R331, R335; log 60). -/
def railSettled (s : State) (k d : Nat) : Bool :=
  let set := od s (0x4000 + 0x100 * d) 0x01
  let v := railCount s.power.vout d
  decide (vidMv s d k ≤ set) && decide (98 * set ≤ 100 * v) && decide (100 * v ≤ 102 * set)

/-- The pace of a step point: a raise is deferred where a rail has not settled, and there is none while telemetry is lost; a fall
takes effect (R335, R348). -/
def stepPace (s : State) : State :=
  let k := s.power.nextPace
  let take := { s with clocks := { s.clocks with govPace := k }, power := { s.power with govTerm := s.power.nextTerm } }
  if s.clocks.govPace < k then
    if s.power.telLost then s
    else if (List.range 4).all (railSettled s k) then take
    else logReason (odCount s 0x1100 0x2A 0 32) .pw 0x07 0 2 none 0
  else take

/-- READ_VOUT of fabric rails read since their last poll, rail 0 first (R335; log 60). -/
def readVout (s : State) (vout : List Nat) : State :=
  { s with power := { s.power with
      vout := ((vout.take 4).zipIdx).foldl (fun a e => setRailCount a e.2 e.1) s.power.vout } }

/-- GOVERNOR_STEP_POINT: the spillway and the pace of the evaluation take effect, and a step interval begins (R332, R335). -/
def governorStepPoint (vout : List Nat) (s : State) : State :=
  if s.power.evaluated then
    let s := stepPace (spreadSpill (readVout s vout) s.power.nextSpill)
    let busy := (List.range 8).filter (fun p => (s.part p).state == .busy)
    coolStep { s with power := { s.power with evaluated := false, wasBusy := busy, pollSum := 0, pollCount := 0 } }
  else s

def execGovernorStepPoint (vout : List Nat) (s : State) : Host.Outcome State Fault Refusal :=
  .next (onWarden (governorStepPoint vout) s)

/-! ### Temperature (R344, R345) -/

/-- The number under which a sensor is excluded. -/
def sensorKey (r : TempReading) : Nat := r.kind * 65536 + r.unit * 256 + r.sensor

/-- The power of a sensor's die as last polled, in mW: a fabric die's rail, VDD_IO for an I/O die, VDD_HBMC for a stack (R329,
R345; log 60). -/
def sensorPower (s : State) (r : TempReading) : Nat :=
  od s 0x1400 0x05 (if r.kind = 0 then r.unit else if r.kind = 1 then 5 else 8)

/-- A reading enters the run of its sensor's unchanged readings. -/
def SensorRun.next (x : Option SensorRun) (mc : Int) (w : Nat) : SensorRun :=
  match x with
  | some x => if x.mc = mc then { x with count := x.count + 1, low := min x.low w, high := max x.high w }
              else { mc := mc, count := 1, low := w, high := w }
  | none => { mc := mc, count := 1, low := w, high := w }

/-- A sensor's reading is noted. -/
def noteReading (s : State) (r : TempReading) : State :=
  { s with thermal := { s.thermal with
      runs := s.thermal.runs.insert (sensorKey r) (SensorRun.next (s.thermal.runs.find? (sensorKey r)) r.mc (sensorPower s r)) } }

/-- The sensor has not changed over 100,000 readings, among which its die's power changed by more than 20 % (R345). -/
def stuckSensor (s : State) (r : TempReading) : Bool :=
  match s.thermal.runs.find? (sensorKey r) with
  | some x => decide (100000 ≤ x.count) && decide (120 * x.low < 100 * x.high)
  | none => false

/-- A sensor that R345 excludes. -/
def badSensor (s : State) (r : TempReading) : Bool :=
  decide (r.mc < -40000) || decide (150000 < r.mc) || stuckSensor s r

/-- Excluded sensors of a die. -/
def excludedOf (s : State) (kind unit : Nat) : Nat :=
  (s.thermal.excluded.filter (fun k => k / 65536 == kind && k / 256 % 256 == unit)).length

/-- Newly bad sensors are excluded and logged with PW-0x06. -/
def excludeSensor (s : State) (r : TempReading) : State :=
  if badSensor s r && !s.thermal.excluded.contains (sensorKey r) then
    let s := { s with thermal := { s.thermal with excluded := s.thermal.excluded ++ [sensorKey r] } }
    let b := 0x4000 + 0x100 * r.unit
    let s := if r.kind = 0 then odSet s b 0x06 0 (od s b 0x06 ||| 2 ^ (r.sensor % 64)) else s
    logReason s .pw 0x06 0 2 none (powerDetail r.unit r.sensor (toCode 32 r.mc))
  else s

/-- The threshold of a sensor in m°C: THROTTLE, or HBM_THROTTLE for a stack. -/
def threshold (s : State) (r : TempReading) : Int := if r.kind = 2 then od s 0x1400 0x11 * 1000 else od s 0x1400 0x10 * 1000

/-- A fabric die that is at or above THROTTLE, or has more than 8 excluded sensors. -/
def dieHot (s : State) (rs : List TempReading) (kind unit : Nat) : Bool :=
  decide (8 < excludedOf s kind unit) || rs.any (fun r => r.kind == kind && r.unit == unit && decide (threshold s r ≤ r.mc))

/-- The ceiling falls by 1, never below 1; the first fall is logged (R344). -/
def ceilingFall (s : State) : State :=
  let c := s.thermal.ceiling
  let s := if c = 16 then logReason s .pw 0x04 0 2 none 0 else s
  if c ≤ 1 then s
  else odSet { s with thermal := { s.thermal with ceiling := c - 1 } } 0x1400 0x15 0 (satAdd 64 (od s 0x1400 0x15) 1)

/-- A sensor's entries (R216, R351). -/
def showSensor (s : State) (r : TempReading) : State :=
  if r.kind = 0 then odSet s (0x4000 + 0x100 * r.unit) 0x05 r.sensor (toCode 32 r.mc)
  else if r.kind = 2 then odSet s (0x5010 + r.unit) 0x07 0 (toCode 32 r.mc)
  else if r.kind = 3 then odSet s (0x5000 + r.unit) 0x07 0 (toCode 32 r.mc)
  else s

/-- The hottest of some readings. -/
def hottest (rs : List TempReading) : Option Int :=
  rs.foldl (fun a r => match a with | none => some r.mc | some m => some (max m r.mc)) none

/-- THERMAL_READING: every sensor is read (R344, R345); the module temperatures of DDR5 channels are only shown (R180, R216). -/
def thermalReading (rs : List TempReading) (s : State) : State :=
  let s := (rs.filter (fun r => r.kind == 3 && decide (r.unit < numChannels s.boot.assembly))).foldl showSensor s
  let rs := rs.filter (fun r => (r.kind == 0 && decide (r.unit < 4) && decide (r.sensor < 64)) ||
    (r.kind == 1 && decide (r.unit < 4) && decide (r.sensor < 16)) || (r.kind == 2 && decide (r.unit < 8)))
  let s := rs.foldl excludeSensor (rs.foldl noteReading s)
  let good := rs.filter (fun r => !s.thermal.excluded.contains (sensorKey r))
  let s := good.foldl showSensor s
  let s := match hottest (good.filter (fun r => r.kind != 2)) with
    | some m => odSet s 0x1400 0x13 0 (toCode 32 m)
    | none => s
  let s := (List.range 8).foldl (fun s w =>
    match hottest (good.filter (fun r => r.kind == w / 4 && r.unit == w % 4)) with
    | some m => markSample s w m
    | none => s) s
  let hotDies := (List.range 4).filter (dieHot s good 0)
  let hot := !hotDies.isEmpty || (List.range 4).any (dieHot s good 1)
  let hotStack := good.any (fun r => r.kind == 2 && decide (threshold s r ≤ r.mc))
  let cool := !hot && good.all (fun r => decide (r.mc ≤ threshold s r - 3000))
  let s := if hot then ceilingFall s else s
  let s := if hotStack then ceilingFall s else s
  { s with thermal := { s.thermal with
      throttled := (s.thermal.throttled ++ hotDies).eraseDups,
      coolRun := some (cool && s.thermal.coolRun.getD true) } }

def execThermalReading (rs : List TempReading) (s : State) : Host.Outcome State Fault Refusal :=
  .next (onWarden (thermalReading rs) s)

/-! ### The trip (R346, R347) -/

/-- The trip record's 16 bytes. -/
def tripBytes (gt source unit sensor : Nat) : List Byte :=
  leBytes 16 (gt % 2 ^ 64 * 2 ^ 64 + source % 256 * 2 ^ 56 + unit % 256 * 2 ^ 48 + sensor % 256 * 2 ^ 40)

/-- THERMAL_TRIP: the latch holds THERMTRIP_N low until the next L0; the first crossing makes the record. -/
def thermalTrip (source unit sensor : Nat) (s : State) : State :=
  if s.thermal.latch then s
  else
    assertAlertN { s with
      thermal := { s.thermal with latch := true, record := tripBytes s.counter.gt source unit sensor, logged := false },
      pins := { s.pins with thermtripN := false } }

def execThermalTrip (source unit sensor : Nat) (s : State) : Host.Outcome State Fault Refusal :=
  onUnit (decide (1 ≤ source) && decide (source ≤ 3)) "trip source" source s (thermalTrip source unit sensor)

/-- The frames of a plot lose their contents. -/
def loseFrames (s : State) (e : Nat × Plot) : State :=
  let p := e.1 / 2 ^ 29
  let one := fun (s : State) (has : Bool) (k : Nat) =>
    if has then let (n, s) := s.fresh; s.setFrame k { mem := Mem.undef n, poison := 0, mended := [] } else s
  one (one s e.2.has1 (frameKey p 1 e.2.t1frame)) e.2.has2 (frameKey p 2 e.2.t2frame)

/-- TRIP_CLOCK_STOP: the root PLL and every derived clock stop, REFCLK is gated; memory contents and cell state are lost
(R346, R347). -/
def tripClockStop (s : State) : State :=
  if s.thermal.latch ∧ ¬ s.clocks.tripStop then
    let s := lostFabric s
    let s := s.plots.foldl loseFrames s
    { s with clocks := { s.clocks with tripStop := true, pllOn := false, locked := false } }
  else s

def execTripClockStop (s : State) : Host.Outcome State Fault Refusal := .next (tripClockStop s)

end Sys2Proof.Machine
end

