-- ==== Sys2Proof/Machine/Vector.lean ====
section
/-! DEFINITION. The vector chain's instructions (R105 to R113, R125, R126): VCFG, VRUN, VRUNT, VSTAT, and the ends of a
configuration load and of a pass. -/
namespace Sys2Proof.Machine

/-! ### Instructions -/

/-- The chain is free and no configuration load is in progress (R107, R110). -/
def chainIdle (s : State) (c : Nat) : Bool := let v := (s.cell c).vector; v.run.isNone && v.load.isNone

/-- The first fc in which the chain is free and no configuration load is in progress. -/
def chainFreeFrom (s : State) (c : Nat) : Nat := let v := (s.cell c).vector; max v.runFree v.loadFree

/-- No scalar that a run of the shadow reads at issue awaits a sync result (R54). -/
def chainRegsHere (s : State) (c : Nat) : Bool :=
  let x := s.cell c
  (cfgRegs x.vector.shadow).all (fun k => !(x.fold x.cur).awaited.contains k)

/-- A run of the record reads tier 0. -/
def cfgReadsBank (c : BitVec 1024) : Bool :=
  (List.range 4).any (fun j => xSrc (cfgX c j) == 3) || (cfgStages c).any (fun w => stType w == 6)

/-- The occupancy T of a run (R107 to R110). -/
def runTime (c : BitVec 1024) (ok : Bool) (n : Nat) : Nat :=
  cfgFill c + (if ok then cfgSweeps c * ceilDiv n (cfgRate c) else 0)

/-- A VRUN or VRUNT of `n` elements issues (R107 to R112); `ok` that it runs under a valid record that fits it, `cols` the entry's
columns for a VRUNT. -/
def startRun (k : Issue) (ok : Bool) (n : Nat) (cols : Option Nat) (s : State) : State :=
  let x := s.cell k.cell
  let v := x.vector
  let cfg := v.shadow
  let run : VectorRun :=
    { issued := k.fc, done := k.fc + runTime cfg ok n, fold := k.fold, tag := k.tag, live := k.pred, n := if ok then n else 0,
      seg := if cfgSeg cfg = 0 then cols.getD n else cfgSeg cfg, tile := cols.isSome,
      regs := (List.range 32).map (fun n => (x.fold k.fold).reg n), pos := PassState.init (vCfgErr (!ok)) }
  s.updCell k.cell (fun x =>
    { x with vector := { x.vector with
        run := some run, runFree := run.done, active := if k.pred then cfg else v.active,
        activeValid := if k.pred then v.shadowValid else v.activeValid } })

/-- VRUN (R106 to R111). -/
def vrunEffect (t0 : Option Tier0Error) (k : Issue) (s : State) : State :=
  let v := (s.cell k.cell).vector
  let s := tier0Error k.cell (k.pred && cfgReadsBank v.shadow) t0 s
  let n := if bit k.insn 81 then (k.reg s (bits k.insn 80 76)).toNat % 2 ^ 14 else bits k.insn 95 82
  startRun k (v.shadowValid && cfgRunOk v.shadow) n none s

def execVrun (u : CellRead) (s : State) : Host.Outcome State Fault Refusal :=
  issueFrom (fun s => chainFreeFrom s u.cell) 0x81 (fun _ => chainIdle s u.cell && chainRegsHere s u.cell) u.cell (vrunEffect u.t0) s

/-- VRUNT: the head entry is captured and popped (R97, R109, R112). A record whose X0 does not name the tile queue has no outcome
in R109; it runs as one whose FMT does not match (log 104). -/
def vruntEffect (t0 : Option Tier0Error) (k : Issue) (s : State) : State :=
  let x := s.cell k.cell
  let s := tier0Error k.cell (k.pred && cfgReadsBank x.vector.shadow) t0 s
  match x.matrix.tiles with
  | [] => s
  | t :: ts =>
    let v := x.vector
    let x0 := cfgX v.shadow 0
    let ok := v.shadowValid && xSrc x0 == 5 && xFmt x0 == entryVecFmt t.ofmt
    let s := if k.pred then
        s.updCell k.cell (fun x =>
          { x with matrix := { x.matrix with tiles := ts },
                   vector := { x.vector with input := t, captured := t.status } })
      else s
    startRun k ok (t.rows * t.cols) (some t.cols) s

/-- The first fc in which a VRUNT may pop the head entry (R97). -/
def headReady (s : State) (c : Nat) : Nat := match (s.cell c).matrix.tiles with | [] => 0 | t :: _ => t.ready

def execVrunt (u : CellRead) (s : State) : Host.Outcome State Fault Refusal :=
  issueFrom (fun s => max (headReady s u.cell) (chainFreeFrom s u.cell)) 0x82
    (fun _ => chainIdle s u.cell && chainRegsHere s u.cell && !(s.cell u.cell).matrix.tiles.isEmpty) u.cell (vruntEffect u.t0) s

/-- VCFG: 128 bytes of scratch go to the shadow, 16 an fc; past the scratch OV-0x0A (R106, R107, R112). -/
def vcfgEffect (k : Issue) (s : State) : State :=
  let i := k.insn
  let a := ((k.reg s (bits i 95 91)).toNat % 2 ^ 14 + bits i 90 77 / 8 * 8) / 8 * 8
  if k.pred ∧ 0x3000 < a + 128 then issueFault k (reasonCode .ov 0x0A) s
  else s.updCell k.cell (fun x => { x with vector := { x.vector with
    load := some { issued := k.fc, addr := a, live := k.pred, got := [] }, loadFree := k.fc + 8 } })

def execVcfg (c : Nat) (s : State) : Host.Outcome State Fault Refusal :=
  issueFrom (fun s => (s.cell c).vector.loadFree) 0x80 (fun _ => (s.cell c).vector.load.isNone) c vcfgEffect s

/-- S[D] of a VSTAT: a status word, and the captured entry's matrix status word above it (R113). -/
def vstatWord (v : VectorUnit) (st : BitVec 32) : Word := v.captured ++ st

/-- VSTAT SUB 0b00, 0b01 and 0b10 (R106, R112, R113). -/
def vstatRead (k : Issue) (s : State) : State :=
  let v := (s.cell k.cell).vector
  setS k (bits k.insn 95 91) (vstatWord v v.acc) s

def vstatLast (k : Issue) (s : State) : State :=
  let v := (s.cell k.cell).vector
  setS k (bits k.insn 95 91) (vstatWord v v.last) s

def vstatClear (k : Issue) (s : State) : State :=
  let s := vstatRead k s
  if k.pred then s.updCell k.cell (fun x => { x with vector := { x.vector with acc := 0 } }) else s

/-- VSTAT's sub-operation. -/
def vstatSub (i : InsnWord) : Nat := bits i 90 89

def execVstatRead (c : Nat) (s : State) : Host.Outcome State Fault Refusal :=
  issueFrom (fun s => (s.cell c).vector.runFree) 0x83 (fun i => vstatSub i == 0 && (s.cell c).vector.run.isNone) c vstatRead s

def execVstatLast (c : Nat) (s : State) : Host.Outcome State Fault Refusal :=
  issueFrom (fun s => (s.cell c).vector.runFree) 0x83 (fun i => vstatSub i == 1 && (s.cell c).vector.run.isNone) c vstatLast s

def execVstatReadClear (c : Nat) (s : State) : Host.Outcome State Fault Refusal :=
  issueFrom (fun s => (s.cell c).vector.runFree) 0x83 (fun i => vstatSub i == 2 && (s.cell c).vector.run.isNone) c vstatClear s

/-! ### Ends -/

/-- VCFG_LOAD_DONE: at the end of the load's eighth fc the record is in the shadow, marked by R105 (R107). -/
def vcfgLoadDone (c : Nat) (s : State) : State :=
  match (s.cell c).vector.load with
  | none => s
  | some l =>
    cellAtFc s c (l.issued + 7) (fun _ s => s.updCell c (fun x =>
      let r : BitVec 1024 := BitVec.ofNat 1024 (leNat (l.readTo x (l.issued + 7) 8).got)
      let v := { x.vector with load := none }
      { x with vector := if l.live then { v with shadow := r, shadowValid := cfgOk r } else v }))

def execVcfgLoadDone (c : Nat) (s : State) : Host.Outcome State Fault Refusal := onCell c s (vcfgLoadDone c)

/-- The pass has read up to fc `f`, and its results of fcs before `g` are written. -/
def Cell.passUntil (x : Cell) (f g : Nat) : Cell :=
  match x.vector.run with
  | some r => (Cell.passTo f (f + 1 - r.issued) x).commitTo g
  | none => x

/-- The fault that a pass meets, with its fc. -/
def Cell.passFault (x : Cell) : Option (Nat × Nat) := x.vector.run.bind (fun r => r.pos.abort)

/-- The pass in progress is over in fc `f`: what it has put in scratch is seen from the next fc on (R111). -/
def Cell.endPass (x : Cell) (f : Nat) : Cell :=
  match x.vector.run with
  | some r =>
    r.pos.late.foldl (fun x e => x.put f (if e.1 = f then rankVo else 0) 3 e.2.1 [e.2.2])
      { x with vector := { x.vector with run := none } }
  | none => x

/-- VECTOR_RUN_DONE: a pass's last results and its flags at the end of its last fc; or, in the fc of its fault, its abort (R111,
R113, R124, R129). -/
def vectorRunDone (c : Nat) (s : State) : State :=
  match (s.cell c).vector.run with
  | none => s
  | some r =>
    match ((s.cell c).passUntil (r.done - 1) r.done).passFault with
    | some (t, code) =>
      cellAtFc s c t (fun p s => unitAbort (s.updCell c (fun x => (x.passUntil t t).endPass t)) p c r.fold r.tag code)
    | none =>
      cellAtFc s c (r.done - 1) (fun _ s => s.updCell c (fun x =>
        let y := x.passUntil (r.done - 1) r.done
        let st := match y.vector.run with
          | some q => q.pos.st
          | none => 0
        let z := y.endPass (r.done - 1)
        { z with vector := if r.live then { z.vector with last := st, acc := z.vector.acc ||| st } else z.vector }))

def execVectorRunDone (c : Nat) (s : State) : Host.Outcome State Fault Refusal := onCell c s (vectorRunDone c)

end Sys2Proof.Machine
end

