-- ==== Sys2Proof/Machine/Dispatch.lean ====
section
/-! DEFINITION. One arm for each command: its meaning, called once. -/
namespace Sys2Proof.Machine

def exec (i : Instr) (s : State) : Host.Outcome State Fault Refusal :=
  match i with
  | .nop cell => Sys2Proof.Machine.execNop cell s
  | .endFiring cell => Sys2Proof.Machine.execEndFiring cell s
  | .emit cell => Sys2Proof.Machine.execEmit cell s
  | .select cell => Sys2Proof.Machine.execSelect cell s
  | .smovi cell => Sys2Proof.Machine.execSmovi cell s
  | .salu cell => Sys2Proof.Machine.execSalu cell s
  | .scmp cell => Sys2Proof.Machine.execScmp cell s
  | .pmov cell => Sys2Proof.Machine.execPmov cell s
  | .opld cell => Sys2Proof.Machine.execOpld cell s
  | .tagrd cell => Sys2Proof.Machine.execTagrd cell s
  | .spld cell => Sys2Proof.Machine.execSpld cell s
  | .spst cell => Sys2Proof.Machine.execSpst cell s
  | .chadraw cell => Sys2Proof.Machine.execChadraw cell s
  | .entdraw cell => Sys2Proof.Machine.execEntdraw cell s
  | .gtread cell => Sys2Proof.Machine.execGtread cell s
  | .nrgread cell => Sys2Proof.Machine.execNrgread cell s
  | .syadd cell => Sys2Proof.Machine.execSyadd cell s
  | .symax cell => Sys2Proof.Machine.execSymax cell s
  | .sywait cell => Sys2Proof.Machine.execSywait cell s
  | .syrd cell => Sys2Proof.Machine.execSyrd cell s
  | .syset cell => Sys2Proof.Machine.execSyset cell s
  | .syarr cell => Sys2Proof.Machine.execSyarr cell s
  | .xpread cell => Sys2Proof.Machine.execXpread cell s
  | .stld cell => Sys2Proof.Machine.execStld cell s
  | .stst cell => Sys2Proof.Machine.execStst cell s
  | .flow cell => Sys2Proof.Machine.execFlow cell s
  | .stin cell => Sys2Proof.Machine.execStin cell s
  | .stidx cell => Sys2Proof.Machine.execStidx cell s
  | .stptr cell => Sys2Proof.Machine.execStptr cell s
  | .swap cell => Sys2Proof.Machine.execSwap cell s
  | .sandbag cell => Sys2Proof.Machine.execSandbag cell s
  | .stwait cell => Sys2Proof.Machine.execStwait cell s
  | .mldw cell => Sys2Proof.Machine.execMldw cell s
  | .mmul cell => Sys2Proof.Machine.execMmul cell s
  | .macc cell => Sys2Proof.Machine.execMacc cell s
  | .mmulProbe cell => Sys2Proof.Machine.execMmulProbe cell s
  | .mout cell => Sys2Proof.Machine.execMout cell s
  | .manchSetMode cell => Sys2Proof.Machine.execManchSetMode cell s
  | .manchReadProbe cell => Sys2Proof.Machine.execManchReadProbe cell s
  | .manchReadStatus cell => Sys2Proof.Machine.execManchReadStatus cell s
  | .vcfg cell => Sys2Proof.Machine.execVcfg cell s
  | .vrun cell => Sys2Proof.Machine.execVrun cell s
  | .vrunt cell => Sys2Proof.Machine.execVrunt cell s
  | .vstatRead cell => Sys2Proof.Machine.execVstatRead cell s
  | .vstatLast cell => Sys2Proof.Machine.execVstatLast cell s
  | .vstatReadClear cell => Sys2Proof.Machine.execVstatReadClear cell s
  | .tokenInject cell => Sys2Proof.Machine.execTokenInject cell s
  | .flitArrive flit => Sys2Proof.Machine.execFlitArrive flit s
  | .tokenMatch cell => Sys2Proof.Machine.execTokenMatch cell s
  | .firingSelect cell => Sys2Proof.Machine.execFiringSelect cell s
  | .dwellEnd cell => Sys2Proof.Machine.execDwellEnd cell s
  | .foldSwitchDone cell => Sys2Proof.Machine.execFoldSwitchDone cell s
  | .flowFlitInject cell route => Sys2Proof.Machine.execFlowFlitInject cell route s
  | .flowHeadArrive cell => Sys2Proof.Machine.execFlowHeadArrive cell s
  | .flowFlitLand cell => Sys2Proof.Machine.execFlowFlitLand cell s
  | .chainSourceRead cell => Sys2Proof.Machine.execChainSourceRead cell s
  | .chainFlitArrive cell => Sys2Proof.Machine.execChainFlitArrive cell s
  | .localStreamStart cell => Sys2Proof.Machine.execLocalStreamStart cell s
  | .localStreamWordWrite cell => Sys2Proof.Machine.execLocalStreamWordWrite cell s
  | .localStreamEnd cell => Sys2Proof.Machine.execLocalStreamEnd cell s
  | .engineFetch engine => Sys2Proof.Machine.execEngineFetch engine s
  | .engineWordArrive engine word => Sys2Proof.Machine.execEngineWordArrive engine word s
  | .wordRelease engine => Sys2Proof.Machine.execWordRelease engine s
  | .egressHeadArrive engine => Sys2Proof.Machine.execEgressHeadArrive engine s
  | .egressFlitArrive engine => Sys2Proof.Machine.execEgressFlitArrive engine s
  | .outfallWrite engine culvert => Sys2Proof.Machine.execOutfallWrite engine culvert s
  | .matrixOpDone cell => Sys2Proof.Machine.execMatrixOpDone cell s
  | .tileQueuePush cell => Sys2Proof.Machine.execTileQueuePush cell s
  | .vcfgLoadDone cell => Sys2Proof.Machine.execVcfgLoadDone cell s
  | .vectorRunDone cell => Sys2Proof.Machine.execVectorRunDone cell s
  | .syncOpAct part => Sys2Proof.Machine.execSyncOpAct part s
  | .syncResultReturn cell => Sys2Proof.Machine.execSyncResultReturn cell s
  | .syncWaitDone cell => Sys2Proof.Machine.execSyncWaitDone cell s
  | .syncWaitTimeout cell => Sys2Proof.Machine.execSyncWaitTimeout cell s
  | .jobEnd part => Sys2Proof.Machine.execJobEnd part s
  | .fcLimitReached part => Sys2Proof.Machine.execFcLimitReached part s
  | .launchStateRestoreDone part => Sys2Proof.Machine.execLaunchStateRestoreDone part s
  | .paceStepApply => Sys2Proof.Machine.execPaceStepApply s
  | .breachRaise data ctrl mgmt => Sys2Proof.Machine.execBreachRaise data ctrl mgmt s
  | .rootPllLock => Sys2Proof.Machine.execRootPllLock s
  | .rootPllLockLoss => Sys2Proof.Machine.execRootPllLockLoss s
  | .mirrorUpdate index sub element => Sys2Proof.Machine.execMirrorUpdate index sub element s
  | .bar2HwWrite fn offset value => Sys2Proof.Machine.execBar2HwWrite fn offset value s
  | .bar2CollectionTimeout fn => Sys2Proof.Machine.execBar2CollectionTimeout fn s
  | .hwWriteApply fn => Sys2Proof.Machine.execHwWriteApply fn s
  | .partCtlEnable src part image => Sys2Proof.Machine.execPartCtlEnable src part image s
  | .partCtlDisable src part => Sys2Proof.Machine.execPartCtlDisable src part s
  | .imageLoadDone part => Sys2Proof.Machine.execImageLoadDone part s
  | .checkVerdict part micros => Sys2Proof.Machine.execCheckVerdict part micros s
  | .tier0FillDone part fill => Sys2Proof.Machine.execTier0FillDone part fill s
  | .sluiceRecheck part => Sys2Proof.Machine.execSluiceRecheck part s
  | .mcDoorbell src part tail => Sys2Proof.Machine.execMcDoorbell src part tail s
  | .alloc part => Sys2Proof.Machine.execAlloc part s
  | .free part => Sys2Proof.Machine.execFree part s
  | .move part => Sys2Proof.Machine.execMove part s
  | .clean part => Sys2Proof.Machine.execClean part s
  | .place part => Sys2Proof.Machine.execPlace part s
  | .ingest part => Sys2Proof.Machine.execIngest part s
  | .digest part => Sys2Proof.Machine.execDigest part s
  | .plotCopyDone part vpn offset ecc => Sys2Proof.Machine.execPlotCopyDone part vpn offset ecc s
  | .commit part => Sys2Proof.Machine.execCommit part s
  | .ttlTick => Sys2Proof.Machine.execTtlTick s
  | .scrubRead channel part frame offset ecc => Sys2Proof.Machine.execScrubRead channel part frame offset ecc s
  | .channelOutOfService channel => Sys2Proof.Machine.execChannelOutOfService channel s
  | .sluiceTableApply part => Sys2Proof.Machine.execSluiceTableApply part s
  | .bar4Read fn offset len => Sys2Proof.Machine.execBar4Read fn offset len s
  | .bar4Write fn offset data => Sys2Proof.Machine.execBar4Write fn offset data s
  | .rdmaReadResponse port head answer => Sys2Proof.Machine.execRdmaReadResponse port head answer s
  | .rdmaWriteRecv port head va rkey data => Sys2Proof.Machine.execRdmaWriteRecv port head va rkey data s
  | .qpAckTimeout qp => Sys2Proof.Machine.execQpAckTimeout qp s
  | .ingestPortLoss port => Sys2Proof.Machine.execIngestPortLoss port s
  | .srDoorbell src part tail => Sys2Proof.Machine.execSrDoorbell src part tail s
  | .start part => Sys2Proof.Machine.execStart part s
  | .append part => Sys2Proof.Machine.execAppend part s
  | .park part => Sys2Proof.Machine.execPark part s
  | .parkMove part req => Sys2Proof.Machine.execParkMove part req s
  | .resume part => Sys2Proof.Machine.execResume part s
  | .resumeMoveDone part req => Sys2Proof.Machine.execResumeMoveDone part req s
  | .cancel part => Sys2Proof.Machine.execCancel part s
  | .tree part => Sys2Proof.Machine.execTree part s
  | .serveStepAdmit part => Sys2Proof.Machine.execServeStepAdmit part s
  | .serveStepComplete part => Sys2Proof.Machine.execServeStepComplete part s
  | .prefixHash part cmd => Sys2Proof.Machine.execPrefixHash part cmd s
  | .prefixLookup part cmd => Sys2Proof.Machine.execPrefixLookup part cmd s
  | .prefixInsert part cmd => Sys2Proof.Machine.execPrefixInsert part cmd s
  | .prefixInval part cmd => Sys2Proof.Machine.execPrefixInval part cmd s
  | .prefixRelease part cmd => Sys2Proof.Machine.execPrefixRelease part cmd s
  | .sqDoorbell src part queue tail => Sys2Proof.Machine.execSqDoorbell src part queue tail s
  | .sqCfgWrite src part queue value => Sys2Proof.Machine.execSqCfgWrite src part queue value s
  | .jobTake part => Sys2Proof.Machine.execJobTake part s
  | .jobLaunch part => Sys2Proof.Machine.execJobLaunch part s
  | .stopAck src part value => Sys2Proof.Machine.execStopAck src part value s
  | .preemptRequest src part value => Sys2Proof.Machine.execPreemptRequest src part value s
  | .freeze part => Sys2Proof.Machine.execFreeze part s
  | .cheapPointTimeout part => Sys2Proof.Machine.execCheapPointTimeout part s
  | .drainDone part => Sys2Proof.Machine.execDrainDone part s
  | .refillStart part ecc => Sys2Proof.Machine.execRefillStart part ecc s
  | .refillResume part => Sys2Proof.Machine.execRefillResume part s
  | .semReadAcquire src n => Sys2Proof.Machine.execSemReadAcquire src n s
  | .semWriteRelease src n value => Sys2Proof.Machine.execSemWriteRelease src n value s
  | .semLeaseExpire n => Sys2Proof.Machine.execSemLeaseExpire n s
  | .functionLevelReset fn => Sys2Proof.Machine.execFunctionLevelReset fn s
  | .bootCtlGo fn => Sys2Proof.Machine.execBootCtlGo fn s
  | .registerWrite fn offset value => Sys2Proof.Machine.execRegisterWrite fn offset value s
  | .linkFrameSend link => Sys2Proof.Machine.execLinkFrameSend link s
  | .linkFrameRecv link arrival => Sys2Proof.Machine.execLinkFrameRecv link arrival s
  | .linkAckSend link => Sys2Proof.Machine.execLinkAckSend link s
  | .linkReplayTimeout link => Sys2Proof.Machine.execLinkReplayTimeout link s
  | .linkRetrain link cause => Sys2Proof.Machine.execLinkRetrain link cause s
  | .linkTrainDone link => Sys2Proof.Machine.execLinkTrainDone link s
  | .linkDownTimeout link => Sys2Proof.Machine.execLinkDownTimeout link s
  | .syncMsgRecv link t1 t2 t3 => Sys2Proof.Machine.execSyncMsgRecv link t1 t2 t3 s
  | .delayRespRecv link t4 => Sys2Proof.Machine.execDelayRespRecv link t4 s
  | .launchMsgRecv link src msg body => Sys2Proof.Machine.execLaunchMsgRecv link src msg body s
  | .barrierMsgRecv link src msg plan chan => Sys2Proof.Machine.execBarrierMsgRecv link src msg plan chan s
  | .abortMsgRecv link src msg plan step => Sys2Proof.Machine.execAbortMsgRecv link src msg plan step s
  | .breachMsgRecv link src msg plan step => Sys2Proof.Machine.execBreachMsgRecv link src msg plan step s
  | .keeperMsgRecv link src msg mailbox body => Sys2Proof.Machine.execKeeperMsgRecv link src msg mailbox body s
  | .switchPortReset link frame => Sys2Proof.Machine.execSwitchPortReset link frame s
  | .ctrSyncEdge rootCycles multiple => Sys2Proof.Machine.execCtrSyncEdge rootCycles multiple s
  | .gcTick n => Sys2Proof.Machine.execGcTick n s
  | .gcSyncLoss => Sys2Proof.Machine.execGcSyncLoss s
  | .gcHoldoverExpire => Sys2Proof.Machine.execGcHoldoverExpire s
  | .firstAcqTimeout => Sys2Proof.Machine.execFirstAcqTimeout s
  | .transferStart transfer => Sys2Proof.Machine.execTransferStart transfer s
  | .transferArrival part chan member ofs data => Sys2Proof.Machine.execTransferArrival part chan member ofs data s
  | .holdRelease part => Sys2Proof.Machine.execHoldRelease part s
  | .holdLimitExpire part => Sys2Proof.Machine.execHoldLimitExpire part s
  | .railPoll readings => Sys2Proof.Machine.execRailPoll readings s
  | .vrmAlertAssert => Sys2Proof.Machine.execVrmAlertAssert s
  | .vrmAlertDeassert => Sys2Proof.Machine.execVrmAlertDeassert s
  | .governorEvaluation activity staticMw shelfOk busyMw => Sys2Proof.Machine.execGovernorEvaluation activity staticMw shelfOk busyMw s
  | .governorStepPoint vout => Sys2Proof.Machine.execGovernorStepPoint vout s
  | .thermalReading readings => Sys2Proof.Machine.execThermalReading readings s
  | .thermalTrip source unit sensor => Sys2Proof.Machine.execThermalTrip source unit sensor s
  | .tripClockStop => Sys2Proof.Machine.execTripClockStop s
  | .openSession d => Sys2Proof.Machine.execOpenSession d s
  | .get d => Sys2Proof.Machine.execGet d s
  | .set d => Sys2Proof.Machine.execSet d s
  | .tableGet d => Sys2Proof.Machine.execTableGet d s
  | .tableSet d => Sys2Proof.Machine.execTableSet d s
  | .semAcq d => Sys2Proof.Machine.execSemAcq d s
  | .semRel d => Sys2Proof.Machine.execSemRel d s
  | .subscribe d => Sys2Proof.Machine.execSubscribe d s
  | .sessionEnd d => Sys2Proof.Machine.execSessionEnd d s
  | .principalEnd d => Sys2Proof.Machine.execPrincipalEnd d s
  | .reset d => Sys2Proof.Machine.execReset d s
  | .lcAdvance d => Sys2Proof.Machine.execLcAdvance d s
  | .otpWrite d => Sys2Proof.Machine.execOtpWrite d s
  | .bootWrite d => Sys2Proof.Machine.execBootWrite d s
  | .bootGo d => Sys2Proof.Machine.execBootGo d s
  | .flashWrite d => Sys2Proof.Machine.execFlashWrite d s
  | .bulkRead d => Sys2Proof.Machine.execBulkRead d s
  | .bulkReadDatagram => Sys2Proof.Machine.execBulkReadDatagram s
  | .renew d => Sys2Proof.Machine.execRenew d s
  | .close d => Sys2Proof.Machine.execClose d s
  | .noop d => Sys2Proof.Machine.execNoop d s
  | .notify slot sub => Sys2Proof.Machine.execNotify slot sub s
  | .sessionIdleTimeout slot => Sys2Proof.Machine.execSessionIdleTimeout slot s
  | .starting d => Sys2Proof.Machine.execStarting d s
  | .neighborDiscovery port addr target => Sys2Proof.Machine.execNeighborDiscovery port addr target s
  | .icmpv6Echo port addr target body => Sys2Proof.Machine.execIcmpv6Echo port addr target body s
  | .resetSourceAssert source fn => Sys2Proof.Machine.execResetSourceAssert source fn s
  | .resetSourceDeassert source fn => Sys2Proof.Machine.execResetSourceDeassert source fn s
  | .wardenWatchdogExpire => Sys2Proof.Machine.execWardenWatchdogExpire s
  | .keeperWatchdogExpire => Sys2Proof.Machine.execKeeperWatchdogExpire s
  | .otpPulseEnd => Sys2Proof.Machine.execOtpPulseEnd s
  | .releaseStep => Sys2Proof.Machine.execReleaseStep s
  | .firmwareVerify => Sys2Proof.Machine.execFirmwareVerify s
  | .ddr5TrainingDone channel ok => Sys2Proof.Machine.execDdr5TrainingDone channel ok s
  | .devStateAccepting => Sys2Proof.Machine.execDevStateAccepting s
  | .l4Release part => Sys2Proof.Machine.execL4Release part s
  | .l5Release block => Sys2Proof.Machine.execL5Release block s
  | .entropyStartupTest pass => Sys2Proof.Machine.execEntropyStartupTest pass s
  | .entropyHealthFail => Sys2Proof.Machine.execEntropyHealthFail s
  | .entropyRetest pass => Sys2Proof.Machine.execEntropyRetest pass s
  | .entropyBufferFill die word => Sys2Proof.Machine.execEntropyBufferFill die word s
  | .loopbackTokenDelivery cell => Sys2Proof.Machine.execLoopbackTokenDelivery cell s
  | .generatorFree cell => Sys2Proof.Machine.execGeneratorFree cell s
  | .zeroingWritten part vpn => Sys2Proof.Machine.execZeroingWritten part vpn s
  | .writeBackDone part addr ecc => Sys2Proof.Machine.execWriteBackDone part addr ecc s
  | .digestStored part obj addr ecc => Sys2Proof.Machine.execDigestStored part obj addr ecc s
  | .hbmInitialisationDone stack => Sys2Proof.Machine.execHbmInitialisationDone stack s
  | .pcieTrainingDone port gen width => Sys2Proof.Machine.execPcieTrainingDone port gen width s
  | .ingestPortUp port => Sys2Proof.Machine.execIngestPortUp port s
  | .mgPortUp port => Sys2Proof.Machine.execMgPortUp port s

end Sys2Proof.Machine
end

