-- ==== Sys2Proof/Safety.lean ====
section
/-! DEFINITION. What the statements speak of: when a command can act, and what its acting leaves as it was. -/
namespace Sys2Proof
open Sys2Proof.Machine

/-! ### When an instruction issues and a cell event happens -/

/-- On cell `c` the instruction `k` of opcode `op` is the next to issue, no earlier than fc `since`, and its fc can be
reached (R39, R46, R47, R54). -/
abbrev Issues (s : State) (c op since : Nat) (k : Issue) : Prop :=
  isCell c = true ∧ issueAt s c since = some k ∧ opcode k.insn = op ∧ reachable s k.part k.fc = true

/-- Fabric cycle `f` of the partition `p` that owns cell `c` can be reached. -/
abbrev CellReaches (s : State) (c p f : Nat) : Prop :=
  isCell c = true ∧ partOfCell s c = some p ∧ reachable s p f = true

/-- Fabric cycle `f` of partition `p` can be reached. -/
abbrev PartReaches (s : State) (p f : Nat) : Prop := isPart p = true ∧ reachable s p f = true

/-- The state in the fc in which the instruction issues. -/
def Machine.Issue.start (k : Issue) (s : State) : State := reach s k.part k.fc

/-! ### Frames -/

/-- From `r` to `t` nothing but cell `c` changes. -/
def OnlyCell (c : Nat) (r t : State) : Prop := t = { r with cells := t.cells } ∧ ∀ d, d ≠ c → t.cell d = r.cell d

/-- From `r` to `t` cell `c` becomes `x` and nothing else changes. -/
def CellBecomes (c : Nat) (x : Cell) (r t : State) : Prop := OnlyCell c r t ∧ t.cell c = x

/-- From `r` to `t` nothing but partition `p` changes. -/
def OnlyPart (p : Nat) (r t : State) : Prop := t = { r with parts := t.parts } ∧ ∀ q, q ≠ p → t.part q = r.part q

/-- From `r` to `t` partition `p` becomes `x` and nothing else changes. -/
def PartBecomes (p : Nat) (x : Part) (r t : State) : Prop := OnlyPart p r t ∧ t.part p = x

/-- From `r` to `t` nothing but partition `p` and cell `c` changes. -/
def OnlyPartCell (p c : Nat) (r t : State) : Prop :=
  t = { r with parts := t.parts, cells := t.cells } ∧ (∀ q, q ≠ p → t.part q = r.part q) ∧
    ∀ d, d ≠ c → t.cell d = r.cell d

/-- From `r` to `t` engine `e` becomes `x` and nothing else changes. -/
def EngineBecomes (e : Nat) (x : Engine) (r t : State) : Prop :=
  t = { r with engines := t.engines } ∧ (∀ d, d ≠ e → t.engine d = r.engine d) ∧ t.engine e = x

/-- From `r` to `t` link `l` becomes `x` and nothing else changes. -/
def LinkBecomes (l : Nat) (x : Link) (r t : State) : Prop :=
  t = { r with links := t.links } ∧ (∀ d, d ≠ l → t.link d = r.link d) ∧ t.link l = x

/-! ### What every issue does (R39, R43, R290) -/

/-- The cell after the issue point has moved past the instruction, with its cheap point. -/
def issued (k : Issue) (x : Cell) : Cell :=
  { x with firing := x.firing.map (fun f => { f with pc := f.pc + 1, ready := k.fc + 1 }),
           cheap := insnCp k.insn && (x.cheap || k.pred) }

/-- The job's ND operation is marked, for the opcodes of R224. -/
def ndMark (k : Issue) (r : State) : State :=
  match ndBit (opcode k.insn) with
  | some b =>
    if k.pred then
      r.updPart k.part (fun x => { x with job := x.job.map (fun j => { j with ndops := j.ndops ||| BitVec.ofNat 8 (2 ^ b) }) })
    else r
  | none => r

/-- The instruction issues and writes only scalar `n` of its fold, with `v`: nothing under a false predicate, and a write
to S0 is discarded (R43, R55). -/
def WritesScalar (k : Issue) (n : Nat) (v : Word) (r t : State) : Prop :=
  (∀ m, k.reg t m = if k.pred = true ∧ m = n ∧ m ≠ 0 then v else k.reg r m) ∧ OnlyCell k.cell r t ∧
    t.cell k.cell = { issued k (r.cell k.cell) with folds := (t.cell k.cell).folds } ∧
    (∀ g, g ≠ k.fold → (t.cell k.cell).fold g = (r.cell k.cell).fold g) ∧
    (t.cell k.cell).fold k.fold =
      { (r.cell k.cell).fold k.fold with regs := ((t.cell k.cell).fold k.fold).regs }

/-- The instruction issues and writes only predicate register `n` of its fold, with `v`, under a true predicate (R43). -/
def WritesPred (k : Issue) (n : Nat) (v : Bool) (r t : State) : Prop :=
  (∀ m, m < 8 → ((t.cell k.cell).fold k.fold).pred m =
      if k.pred = true ∧ m = n then v else ((r.cell k.cell).fold k.fold).pred m) ∧ OnlyCell k.cell r t ∧
    t.cell k.cell = { issued k (r.cell k.cell) with folds := (t.cell k.cell).folds } ∧
    (∀ g, g ≠ k.fold → (t.cell k.cell).fold g = (r.cell k.cell).fold g) ∧
    (t.cell k.cell).fold k.fold =
      { (r.cell k.cell).fold k.fold with preds := ((t.cell k.cell).fold k.fold).preds }

/-- The sync operation that an issue sends out: it acts 8 fc later (R56, R57). -/
def syncSent (k : Issue) (op die : Nat) (value : Word) (limit : Nat) : SyncOp :=
  { cell := k.cell, fold := k.fold, tag := k.tag, opcode := op, die := die, obj := nbits (fImm k.insn) 43 32,
    value := value, dest := fD k.insn, limit := limit, live := k.pred, issued := k.fc, acted := false, result := 0,
    met := none }

/-- The issue sends out `o`: its partition's operations gain it, and nothing but that and the issuing cell changes. -/
def SendsSync (k : Issue) (o : SyncOp) (r t : State) : Prop :=
  OnlyCell k.cell (r.updPart k.part (fun x => { x with syncOps := x.syncOps ++ [o] })) t

/-- The value of a sync instruction: IMM[31:0], or the low 32 bits of S[B] (R56). -/
def syncOperand (k : Issue) (s : State) : Word :=
  BitVec.ofNat 64 (if fIm k.insn then nbits (fImm k.insn) 31 0 else (k.reg s (fB k.insn)).toNat % 2 ^ 32)

/-- The task abort with the reason code has stopped the partition in its present fc (R59). -/
def Aborted (p code : Nat) (r t : State) : Prop :=
  ∃ f, (t.part p).fault = some f ∧ f.code = BitVec.ofNat 16 code ∧ f.fc = (r.part p).fc ∧ f.stop = false

/-! ### The meeting points of the planes (R16, R18, R23) -/

/-- The breach summary is as R18 lays it out: its reserved bits are 0, it is 0 until a breach is latched, and a latched one names a
plane. -/
def BreachWord (b : BitVec 32) : Prop :=
  bits b 15 8 = 0 ∧ bits b 6 3 = 0 ∧ (bit b 7 = false → b = 0) ∧ (bit b 7 = true → bits b 2 0 ≠ 0)

/-- The shared registers hold what the spec lets them hold: the breach summary, a pace of 1 to 16, a source edge of a pace step, and a
thermal ceiling of at most 16 (R16, R18, R23, R344). -/
def SharedOk (s : State) : Prop :=
  BreachWord s.breach ∧ 1 ≤ s.clocks.pace ∧ s.clocks.pace ≤ 16 ∧ s.clocks.edge < 16 ∧ s.thermal.ceiling ≤ 16

/-- The command names a unit that this assembly does not have (R1, R9). -/
def AbsentUnit (s : State) : Instr → Prop
  | .channelOutOfService ch => numChannels s.boot.assembly ≤ ch
  | .ddr5TrainingDone ch _ => numChannels s.boot.assembly ≤ ch
  | .hbmInitialisationDone k => stackFitted s.boot.assembly k = false
  | .l5Release b => blockExists s b = false
  | _ => False

/-! ### Requests of a session (R359, R364, R372) -/

/-- The commands that bring a request's datagram, with the OP of each. -/
def requestsOf (d : Dgram) : List (Nat × Instr) :=
  [(1, .get d), (2, .set d), (3, .tableGet d), (4, .tableSet d), (5, .semAcq d), (6, .semRel d), (7, .subscribe d),
   (9, .bulkRead d), (10, .renew d), (11, .close d), (12, .noop d)]

/-- The commands that bring an EXEC's datagram, with the code of each. -/
def execsOf (d : Dgram) : List (Nat × Instr) :=
  [(0x1201, .reset d), (0x1202, .lcAdvance d), (0x1203, .otpWrite d), (0x1301, .bootWrite d), (0x1302, .bootGo d),
   (0x1303, .flashWrite d), (0x1F01, .sessionEnd d), (0x1F02, .principalEnd d)]

/-- The warden runs and takes the datagram: the port is up, and it is one of MDP's form to an own address (R346, R357, R359). -/
def Reaches (s : State) (d : Dgram) : Prop :=
  s.clocks.tripStop = false ∧ mgUp s d.port = true ∧ foreignFrame s d = false ∧ mdpForm d = true

/-- The datagram is an authentic one of session `x` in `slot`, with plaintext payload `pl`, and the dictionary is ready. -/
def Authentic (s : State) (d : Dgram) (slot : Nat) (x : Session) (pl : List Byte) : Prop :=
  Reaches s d ∧ dictReady s = true ∧ mdpKind d = 0 ∧ findSession (idleOut s) (mdpSession d) = some (slot, x) ∧
    macHolds x.kmac d = true ∧ mdpPlain x d = some pl

/-- Its SEQ is new, above the highest of the session, and the rate leaves room for it. -/
def NewSeq (s : State) (d : Dgram) (x : Session) : Prop :=
  (∀ e ∈ x.stored, e.1 ≠ mdpSeq d) ∧ x.seq ≠ 0xFFFFFFFF ∧ x.seq < mdpSeq d ∧ rateSpent (idleOut s) = false

/-- The session asks, with a new SEQ, for what its role allows, and firmware serves it (`boot`: the network form does too). -/
def Asks (s : State) (d : Dgram) (op role : Nat) (boot : Bool) (slot : Nat) (x : Session) (pl : List Byte) : Prop :=
  Authentic s d slot x pl ∧ NewSeq s d x ∧ mdpOp d = op ∧ mdpFlags d < 8 ∧ (s.boot.devState ≠ 0 ∨ boot = true) ∧
    role ≤ x.role

/-- The state in which a request is executed: idle sessions have ended, and it is counted. -/
def served (s : State) : State := countRequest (idleOut s)

/-- The state after a request whose answer is `a`: the response is sent to where the request came from and stored, and the
session has its SEQ, its time and its address. -/
def answered (slot : Nat) (x : Session) (d : Dgram) (a : Answer) : State :=
  let bytes := answerBytes a.state x d a.status a.payload
  let t := updSession a.state slot x.sid (fun y =>
    { y with seq := mdpSeq d, stored := keepStored (y.stored ++ [(mdpSeq d, bytes)]), port := d.port, addr := d.addr,
             udp := d.udp, last := a.state.counter.gt })
  t.send (.datagram d.port d.addr d.udp bytes)

end Sys2Proof
end

