-- ==== Sys2Proof/Certificates/Slice0/Obligations.lean ====
section
/-! DEFINITION. The statements for the provers. -/
open Sys2Proof Sys2Proof.Machine

/-- A step takes the command at the front of the queue and runs it on the state with the rest of the queue (the model's choice, log
1). -/
def Obligations.StepRunsFront : Prop :=
  ∀ (s : State) (c : Instr) (cs : List Instr), s.pending = c :: cs → step s = exec c { s with pending := cs }

/-- Source edge i of a pace step is delivered if and only if floor((i + 1) k / 16) > floor(i k / 16): on an empty queue a step
passes one source edge (log 2), and a partition whose job runs counts a fabric cycle exactly when the edge is delivered (R23).
The last edge ends the pace step: a pace that waits takes effect, or FCLK stops for a breach. -/
def Obligations.EdgeDelivery : Prop :=
  ∀ (s : State), s.pending = [] →
    (clocksRun s = true →
      let q : State := { s with clocks := { s.clocks with edge := (s.clocks.edge + 1) % 16 } }
      ∃ r, (s.clocks.edge * s.clocks.pace / 16 < (s.clocks.edge + 1) * s.clocks.pace / 16 → r = deliver 1 q ∧
          ∀ p, delivers (s.part p) = true → (r.part p).fc = (s.part p).fc + 1) ∧
        ((s.clocks.edge + 1) * s.clocks.pace / 16 ≤ s.clocks.edge * s.clocks.pace / 16 → r = q) ∧
        ((s.clocks.edge + 1) % 16 ≠ 0 → step s = .next r) ∧
        ((s.clocks.edge + 1) % 16 = 0 → bit s.breach 7 = false → ∃ t, step s = .next t ∧
          t.clocks = { q.clocks with pace := paceTerm s, govPace := paceTerm s } ∧ t.parts = r.parts) ∧
        ((s.clocks.edge + 1) % 16 = 0 → bit s.breach 7 = true → ∃ t, step s = .next t ∧ t.clocks = q.clocks ∧
          clocksRun t = false ∧ ∀ p, p < 8 → (t.part p).job = none ∧ (t.part p).drained = none)) ∧
    (clocksRun s = false → step s = .next s)

/-- NRGREAD completes: it selects its accumulator by IMM[7:0] and returns the value as of the last poll, 0 for any other index
(R343); nothing but S[D] and the mark of the ND operation is written. -/
def Obligations.EnergyRead : Prop :=
  ∀ (s : State) (c : Nat) (k : Issue),
    (Issues s c 0x0F 0 k →
      ∃ t, exec (.nrgread c) s = .next t ∧ ∃ v : Nat,
        WritesScalar k (fD k.insn) (BitVec.ofNat 64 v) (ndMark k (k.start s)) t ∧
        (nbits (fImm k.insn) 7 0 = 0 → v = od (k.start s) 0x1400 0x02) ∧
        (nbits (fImm k.insn) 7 0 = 1 → v = partEnergy (k.start s) k.part) ∧
        (nbits (fImm k.insn) 7 0 = 2 → ∀ j, (s.part k.part).job = some j → v = partEnergy (k.start s) k.part - j.energy0) ∧
        (nbits (fImm k.insn) 7 0 = 3 → v = od (k.start s) 0x1400 0x03) ∧
        (∀ n, n < 12 → nbits (fImm k.insn) 7 0 = 0x10 + n → v = od (k.start s) 0x1400 0x06 n) ∧
        (∀ n, nbits (fImm k.insn) 7 0 = n → (4 ≤ n ∧ n < 0x10 ∨ 0x1C ≤ n) → v = 0))

/-- Delivered edges: a running partition's fabric-cycle counter counts them, a held one's job counts held cycles, one that runs no
job or is stopped counts nothing, and the totals at the pace in force and of all count them; a job's events lie at their own
fabric cycle, which is reached by delivering the edges up to it (R24, R29, R321; log 13). -/
def Obligations.TimePasses : Prop :=
  (∀ (s : State) (d p : Nat),
    (delivers (s.part p) = true → ((deliver d s).part p) = { s.part p with fc := (s.part p).fc + d }) ∧
    (jobRuns (s.part p) = true → (s.part p).hold ≠ none → (s.part p).fault = none →
      ((deliver d s).part p) = { s.part p with job := (s.part p).job.map (fun j => { j with held := j.held + d }) }) ∧
    (jobRuns (s.part p) = false ∨ (s.part p).fault ≠ none → (deliver d s).part p = s.part p) ∧
    deliver d s = { s with parts := (deliver d s).parts, dict := (deliver d s).dict }) ∧
  (∀ (s : State) (d : Nat), s.clocks.pace ≤ 16 →
    od (deliver d s) 0x1100 0x11 = od s 0x1100 0x11 + d ∧
    ∀ k, k ≤ 16 → od (deliver d s) 0x1100 0x10 k = od s 0x1100 0x10 k + (if k = s.clocks.pace then d else 0)) ∧
  (∀ (s : State) (p f : Nat), delivers (s.part p) = true → (s.part p).fc ≤ f → ((reach s p f).part p).fc = f) ∧
  (∀ (s : State) (p f : Nat), reachable s p f = true → (s.part p).fc < f → delivers (s.part p) = true ∧ clocksRun s = true)

/-- A well-formed command always answers a next state, but for one that names a unit which this assembly does not have, and no
command whatever ends in a fault (the model's choice: log 3). -/
def Obligations.CommandsAnswer : Prop :=
  (∀ (c : Instr) (s : State), c.wf = true → (∃ t, exec c s = .next t) ∨ AbsentUnit s c) ∧
  (∀ (c : Instr) (s : State), AbsentUnit s c → ∃ kind n, exec c s = .refused (.noSuchUnit kind n)) ∧
  (∀ (c : Instr) (s : State) (f : Fault), exec c s ≠ .fault f)

/-- No command changes the queue of those that wait: a step takes one off its front and adds none (log 1). -/
def Obligations.QueueUnchanged : Prop :=
  (∀ (c : Instr) (s t : State), exec c s = .next t → t.pending = s.pending) ∧
  (∀ (s t : State), step s = .next t → t.pending = s.pending.tail)

/-- Every step keeps the registers that the planes share as the spec lays them out: the breach summary's reserved bits 0 and the
word 0 until a breach is latched, a pace of 1 to 16, an edge of a pace step, a thermal ceiling of at most 16 (R16, R18, R23,
R344). -/
def Obligations.SharedRegistersKept : Prop := ∀ (s t : State), SharedOk s → step s = .next t → SharedOk t

/-- The registers that the planes share are as the spec lays them out at reset (R18). -/
def Obligations.SharedRegistersAtReset : Prop := SharedOk State.reset

/-- What reset leaves where the spec gives it: the global counter 0, every partition OFF without a job, no breach, no session, no
semaphore owned, no event, pace 16, links without keys, DEV_STATE STARTING, defaults of the dictionary (R18, R29, R166, R270,
R302, R363, R383, R392, R413). -/
def Obligations.ResetValues : Prop :=
  State.reset.counter.gt = 0 ∧ State.reset.breach = 0 ∧ State.reset.clocks.pace = 16 ∧ State.reset.boot.devState = 0 ∧
    State.reset.mgmt.sessions = [] ∧ State.reset.events = [] ∧ State.reset.pending = [] ∧ State.reset.outputs = [] ∧
    (∀ p, (State.reset.part p).state = .off ∧ (State.reset.part p).job = none ∧ shapeOf State.reset p = 0) ∧
    (∀ n, semNow State.reset n = none) ∧ (∀ c, State.reset.cell c = Cell.init) ∧ (∀ e, State.reset.engine e = Engine.init) ∧
    (∀ l, ((State.reset.link l).txSeq = 0 ∧ (State.reset.link l).replay = [])) ∧
    od State.reset 0x1100 0x05 = 16 ∧ od State.reset 0x1100 0x06 = 16 ∧ od State.reset 0x1F00 0x0C = 0 ∧
    State.reset.pins.thermtripN = true ∧ State.reset.pins.alertN = true

/-- Event entry SEQ s is held at element s mod 4,096; a full log loses its oldest entry and counts it; a read of an older number
returns from the oldest entry held; L0 clears the log, the lost count and the sequence, and every other reset keeps them (R413). -/
def Obligations.EventLog : Prop :=
  (∀ (s : State) (code reason eclass plane : Nat) (part : Option Nat) (detail : Nat), 1 ≤ eclass → eclass ≤ 5 →
    (∀ p, part = some p → p < 8) →
    let t := logEvent s code reason eclass plane part detail
    let n := od s 0x1E00 0x01
    (∃ e, t.events.find? (n % 4096) = some e ∧ e.seq = n ∧ e.code = BitVec.ofNat 16 code) ∧
    (∀ k, k ≠ n % 4096 → t.events.find? k = s.events.find? k) ∧ od t 0x1E00 0x01 = n + 1 ∧
    od t 0x1E00 0x02 = od s 0x1E00 0x02 + (if 4096 < n then 1 else 0)) ∧
  (∀ (s : State) (seq n i : Nat) (bs : List Byte), (i, bs) ∈ eventsFrom s seq n → max seq (oldestEvent s) ≤ i ∧ i < od s 0x1E00 0x01) ∧
  (∀ (s : State), oldestEvent s = max 1 (od s 0x1E00 0x01 - 4096)) ∧
  (∀ (s : State) (source level target : Nat), s.episodes = [] →
    let t := assertLevel source level target s
    (level = 0 → t.events = [] ∧ od t 0x1E00 0x01 = 1 ∧ od t 0x1E00 0x02 = 0) ∧
    (1 ≤ level → level ≤ 2 → t.events = s.events ∧ od t 0x1E00 0x01 = od s 0x1E00 0x01 ∧ od t 0x1E00 0x02 = od s 0x1E00 0x02) ∧
    (level = 6 → t.events = s.events ∧ od t 0x1E00 0x01 = od s 0x1E00 0x01 ∧ od t 0x1E00 0x02 = od s 0x1E00 0x02))

/-- NOP, SMOVI, SALU, OPLD, TAGRD and GTREAD complete where they can issue, and write the one scalar they name (R39, R53, R55); NOP
writes none. The zeros that OPLD reads past an operand, or of a port that holds none, are the model's choice (log 100). Scalar
arithmetic is modulo 2^64, shifts take bits [7:0] of the count, and MIN and MAX are signed (R53, R55). -/
def Obligations.ScalarInstructions : Prop :=
  (∀ (s : State) (c : Nat) (k : Issue),
    (Issues s c 0x00 0 k → ∃ t, exec (.nop c) s = .next t ∧
      CellBecomes c (issued k (s.cell c)) (k.start s) t) ∧
    (Issues s c 0x04 0 k → ∃ t, exec (.smovi c) s = .next t ∧
      WritesScalar k (fD k.insn) (BitVec.ofNat 64 (fImm k.insn)) (k.start s) t) ∧
    (Issues s c 0x05 0 k → ∃ t, exec (.salu c) s = .next t ∧
      WritesScalar k (fD k.insn)
        (alu (fSub k.insn) (k.reg s (fA k.insn)) (if fIm k.insn then BitVec.ofNat 64 (fImm k.insn) else k.reg s (fB k.insn)))
        (k.start s) t) ∧
    (Issues s c 0x08 0 k → ∃ t, exec (.opld c) s = .next t ∧
      WritesScalar k (fD k.insn)
        (match operand (s.cell c) k.slot (fPort k.insn) with
          | some o => BitVec.ofNat 64 (if fSub k.insn = 0 then leNat (slice o.payload (8 * (fImm k.insn % 8)) 8)
              else if fSub k.insn = 1 then o.aux.toNat else headerTop o)
          | none => 0) (k.start s) t) ∧
    (Issues s c 0x09 0 k → ∃ t, exec (.tagrd c) s = .next t ∧
      WritesScalar k (fD k.insn) (k.tag.setWidth 64) (k.start s) t) ∧
    (Issues s c 0x0E 0 k → ∃ t, exec (.gtread c) s = .next t ∧
      WritesScalar k (fD k.insn) (BitVec.ofNat 64 s.counter.gt) (ndMark k (k.start s)) t)) ∧
  (∀ a b : Word,
    (alu 0 a b).toNat = (a.toNat + b.toNat) % 2 ^ 64 ∧ (alu 1 a b).toNat = (a.toNat + 2 ^ 64 - b.toNat) % 2 ^ 64 ∧
    (alu 2 a b).toNat = a.toNat * b.toNat % 2 ^ 64 ∧
    (∀ i, i < 64 → (alu 3 a b).getLsbD i = (a.getLsbD i && b.getLsbD i) ∧
      (alu 4 a b).getLsbD i = (a.getLsbD i || b.getLsbD i) ∧ (alu 5 a b).getLsbD i = (a.getLsbD i != b.getLsbD i)) ∧
    (alu 6 a b).toNat = a.toNat * 2 ^ (b.toNat % 256) % 2 ^ 64 ∧ (alu 7 a b).toNat = a.toNat / 2 ^ (b.toNat % 256) ∧
    (alu 8 a b).toInt = a.toInt / 2 ^ (b.toNat % 256) ∧
    (alu 9 a b).toInt = min a.toInt b.toInt ∧ (alu 10 a b).toInt = max a.toInt b.toInt)

/-- SCMP and PMOV complete where they can issue, and write the one predicate register they name (R41, R43, R53). SPLD and SPST of an
address below 0x3000, its low three bits ignored: the scratch word goes to or comes from the scalar (R53, R55). Of the cell's
memories as its other units have left them by then, SPST writes that word alone, where no later writer of the same fc prevails
(R128), and SPLD writes none. Under a false predicate both only issue, whatever the address (R43). SPLD and SPST of an address
past the scratch, under a true predicate, write no scalar and no byte, and abort the task with OV-0x0A where no earlier fault
has stopped it (R55, R59). -/
def Obligations.PredicateAndScratch : Prop :=
  (∀ (s : State) (c : Nat) (k : Issue),
    (Issues s c 0x06 0 k → ∃ t, exec (.scmp c) s = .next t ∧
      ∃ v, WritesPred k (fD k.insn % 8) v (k.start s) t ∧
        let a := k.reg s (fA k.insn)
        let b := if fIm k.insn then BitVec.ofNat 64 (fImm k.insn) else k.reg s (fB k.insn)
        (fSub k.insn = 0 → (v = true ↔ a = b)) ∧ (fSub k.insn = 1 → (v = true ↔ a ≠ b)) ∧
        (fSub k.insn = 2 → (v = true ↔ a.toInt < b.toInt)) ∧ (fSub k.insn = 3 → (v = true ↔ a.toNat < b.toNat)) ∧
        (fSub k.insn = 4 → (v = true ↔ a.toInt ≤ b.toInt)) ∧ (fSub k.insn = 5 → (v = true ↔ a.toNat ≤ b.toNat)) ∧
        (fSub k.insn = 6 → (v = true ↔
          1 ≤ (b.toNat % 2 ^ 16 + 2 ^ 16 - a.toNat % 2 ^ 16) % 2 ^ 16 ∧
            (b.toNat % 2 ^ 16 + 2 ^ 16 - a.toNat % 2 ^ 16) % 2 ^ 16 ≤ 32767))) ∧
    (Issues s c 0x07 0 k → ∃ t, exec (.pmov c) s = .next t ∧
      let f := (s.cell c).fold k.fold
      let a := f.pred (fA k.insn % 8)
      let b := f.pred (fB k.insn % 8)
      WritesPred k (fD k.insn % 8)
        (if fSub k.insn = 0 then a && b else if fSub k.insn = 1 then a || b
          else if fSub k.insn = 2 then a != b else !a) (k.start s) t)) ∧
  (∀ (s : State) (c : Nat) (k : Issue),
    (Issues s c 0x0A 0 k → scratchAddr k s < 0x3000 → ∃ t, exec (.spld c) s = .next t ∧
      WritesScalar k (fD k.insn)
        (BitVec.ofNat 64 (leNat ((s.cell c).scratch.readN 0 (scratchAddr k s / 8 * 8) 8))) (k.start s) t) ∧
    (Issues s c 0x0B 0 k → k.pred = true → scratchAddr k s < 0x3000 →
      ∃ t, exec (.spst c) s = .next t ∧ OnlyCell c (k.start s) t ∧
        (let y := (issued k (s.cell c)).advance k.fc
        let a := scratchAddr k s / 8 * 8
        t.cell c = { y with
          scratch := (t.cell c).scratch, wrote := (t.cell c).wrote, wroteFc := k.fc, streams := (t.cell c).streams,
          matrix := (t.cell c).matrix, vector := (t.cell c).vector } ∧
        ((s.cell c).vector.run = none → (s.cell c).vector.load = none → (s.cell c).streams = [] → (s.cell c).matrix.ops = [] →
          t.cell c = { issued k (s.cell c) with
            scratch := (t.cell c).scratch, wrote := (t.cell c).wrote, wroteFc := k.fc }) ∧
        ((y.wroteFc = k.fc → ∀ w ∈ y.wrote, w.mem = 3 → w.rank ≤ 1) →
          (t.cell c).scratch.readN 0 a 8 = leBytes 8 (k.reg s (fB k.insn)).toNat) ∧
        ∀ b, b < a ∨ a + 8 ≤ b → (t.cell c).scratch.read b = y.scratch.read b)) ∧
    (Issues s c 0x0A 0 k → k.pred = false → ∃ t, exec (.spld c) s = .next t ∧
      CellBecomes c (issued k (s.cell c)) (k.start s) t) ∧
    (Issues s c 0x0B 0 k → k.pred = false → ∃ t, exec (.spst c) s = .next t ∧
      CellBecomes c (issued k (s.cell c)) (k.start s) t)) ∧
  (∀ (s : State) (c : Nat) (k : Issue), k.pred = true → 0x3000 ≤ scratchAddr k s →
    (Issues s c 0x0A 0 k → ∃ t, exec (.spld c) s = .next t ∧ t.cells = ((k.start s).updCell c (issued k)).cells ∧
      ((s.part k.part).fault = none → Aborted k.part 0x030A (k.start s) t)) ∧
    (Issues s c 0x0B 0 k → ∃ t, exec (.spst c) s = .next t ∧ t.cells = ((k.start s).updCell c (issued k)).cells ∧
      ((s.part k.part).fault = none → Aborted k.part 0x030A (k.start s) t)))

/-- END completes where it can issue: the firing is over, its slot is free, and the sequencer is free from the next fc (R39, R53).
EMIT completes: with SINKF and a false predicate it sends nothing; otherwise one token leaves with the predicate, the length,
the route's fold and port, the tag of the tag transform, AUX from S[B] and the payload that SUB names (R35, R43, R44, R53,
R163). A loopback route delivers it 2 fc later, another route queues it for its lane (R32). The zero bytes of a token without a
payload source, and past a forwarded operand, are the model's choice (log 100). SELECT completes: it sends on the operand on
PORT, or under a false predicate the one on port B[1:0], with the tag, fold and port that EMIT would give it and everything else
unchanged; with SINKF and a false predicate nothing (R43, R53). -/
def Obligations.FiringOutputs : Prop :=
  (∀ (s : State) (c : Nat) (k : Issue), Issues s c 0x01 0 k →
    ∃ t, exec (.endFiring c) s = .next t ∧
      CellBecomes c
        { issued k (s.cell c) with
          firing := none, lastEnd := some k.fc, freed := k.slot,
          slots := (match k.slot with | some n => (s.cell c).slots.erase n | none => (s.cell c).slots) }
        (k.start s) t ∧
      ∀ n, k.slot = some n → (t.cell c).slots.find? n = none) ∧
  (∀ (s : State) (c : Nat) (k : Issue), Issues s c 0x02 0 k →
    (k.pred = false → fSinkf k.insn = true → ∃ t, exec (.emit c) s = .next t ∧
      CellBecomes c (issued k (s.cell c)) (k.start s) t) ∧
    ((k.pred = true ∨ fSinkf k.insn = false) →
      (fSub k.insn = 3 → nbits (fImm k.insn) 21 8 / 8 * 8 + min 64 (nbits (fImm k.insn) 6 0) ≤ 0x3000) →
      ∃ t tok, exec (.emit c) s = .next t ∧
        (let r := nth 0 ((s.cell c).fold k.fold).routes (fRoute k.insn)
        CellBecomes c
          (if routeOut r = 4 then
            { issued k (s.cell c) with loopback := (s.cell c).loopback ++ [(k.fc + 2, tok)] }
          else
            { issued k (s.cell c) with
              outbox := (s.cell c).outbox ++ [{ fold := k.fold, route := r, issued := k.fc, tok := tok }] })
          (k.start s) t ∧
        tok.dfold.toNat = routeFold r ∧ tok.dport.toNat = routePort r) ∧
        tok.pred = k.pred ∧ tok.len = min 64 (nbits (fImm k.insn) 6 0) ∧ tok.kind = 0 ∧ tok.src = c ∧
        tok.tag = tagx (s.cell c) k.fold k.tag k.insn ∧ tok.aux = k.reg s (fB k.insn) ∧
        (fSub k.insn = 0 → tok.payload = List.replicate tok.len 0) ∧
        (fSub k.insn = 1 → ∀ o, operand (s.cell c) k.slot (fPort k.insn) = some o →
          tok.payload = fit tok.len o.payload) ∧
        (fSub k.insn = 2 → ∀ i, i < tok.len →
          tok.payload[i]? = some (BitVec.ofNat 8 ((k.reg s (fA k.insn + i / 8)).toNat / 256 ^ (i % 8)))) ∧
        (fSub k.insn = 3 → tok.payload = (s.cell c).scratch.readN 0 (nbits (fImm k.insn) 21 8 / 8 * 8) tok.len))) ∧
  (∀ (s : State) (c : Nat) (k : Issue), Issues s c 0x03 0 k →
    (k.pred = false → fSinkf k.insn = true → ∃ t, exec (.select c) s = .next t ∧
      CellBecomes c (issued k (s.cell c)) (k.start s) t) ∧
    ((k.pred = true ∨ fSinkf k.insn = false) →
      ∀ o, operand (s.cell c) k.slot (if k.pred then fPort k.insn else fB k.insn % 4) = some o →
      ∃ t, exec (.select c) s = .next t ∧
        let r := nth 0 ((s.cell c).fold k.fold).routes (fRoute k.insn)
        let tok : Token := { o with tag := tagx (s.cell c) k.fold k.tag k.insn, dfold := BitVec.ofNat 3 (routeFold r),
                                    dport := BitVec.ofNat 2 (routePort r), src := c }
        CellBecomes c
          (if routeOut r = 4 then
            { issued k (s.cell c) with loopback := (s.cell c).loopback ++ [(k.fc + 2, tok)] }
          else
            { issued k (s.cell c) with
              outbox := (s.cell c).outbox ++ [{ fold := k.fold, route := r, issued := k.fc, tok := tok }] })
          (k.start s) t))

/-- CHADRAW completes where the generator is free: S[D] gets the word of the job's generator for step, stream and index, and the
generator is busy for 8 fc, which GENERATOR_FREE ends; a false predicate occupies it too and writes nothing (R226, R227).
ENTDRAW completes with the next word of its die's buffer while the source is in service, and marks the job's ND operations; with
none it writes nothing and aborts the task with EY-0x01; under a false predicate it only issues (R43, R53, R224, R418).
ENTROPY_STARTUP_TEST, ENTROPY_HEALTH_FAIL, ENTROPY_RETEST and ENTROPY_BUFFER_FILL complete: a passed test puts the source in
service; a failure discards every buffer, is counted and logged EY-0x01, and is retested after 10 ms; the third failed retest in
a row latches it, EY-0x03; a word goes to the end of its die's buffer of 256, and every four words count as a block (R417, R418,
R422). -/
def Obligations.RandomAndEntropy : Prop :=
  (∀ (s : State) (c : Nat),
    (∀ (k : Issue), Issues s c 0x0C (s.cell c).genFree k →
      let busy := (k.start s).updCell c (fun x => { x with genFree := k.fc + 8, genBusy := true })
      (∀ (j : Job), (s.part k.part).job = some j → ∃ t, exec (.chadraw c) s = .next t ∧
        WritesScalar k (fD k.insn)
          (BitVec.ofNat 64 (drawWord (descSeed j.desc) (descStep j.desc) (bits (k.reg s (fA k.insn)) 31 0)
            (k.reg s (fB k.insn)).toNat)) busy t) ∧
      (k.pred = false → ∃ t, exec (.chadraw c) s = .next t ∧ CellBecomes c (issued k (busy.cell c)) busy t)) ∧
    (∀ p, (s.cell c).genBusy = true → CellReaches s c p ((s.cell c).genFree - 1) →
      ∃ t, exec (.generatorFree c) s = .next t ∧
        CellBecomes c { s.cell c with genBusy := false } (reach s p ((s.cell c).genFree - 1)) t) ∧
    (isCell c = true → (s.cell c).genBusy = false → exec (.generatorFree c) s = .next s)) ∧
  (∀ (s : State) (c : Nat) (k : Issue), Issues s c 0x0D 0 k →
    (∀ w ws, k.pred = true → entropyUp (k.start s) = true →
      Assoc.get (fun _ => []) s.entropy.buffers (cellDie c) = w :: ws →
      ∃ t, exec (.entdraw c) s = .next t ∧
        WritesScalar k (fD k.insn) w { ndMark k (k.start s) with entropy := t.entropy } t ∧
        t.entropy = { s.entropy with buffers := t.entropy.buffers } ∧
        Assoc.get (fun _ => []) t.entropy.buffers (cellDie c) = ws ∧
        ∀ d, d ≠ cellDie c →
          Assoc.get (fun _ => []) t.entropy.buffers d = Assoc.get (fun _ => []) s.entropy.buffers d) ∧
    (k.pred = true → (entropyUp (k.start s) = false ∨ Assoc.get (fun _ => []) s.entropy.buffers (cellDie c) = []) →
      ∃ t, exec (.entdraw c) s = .next t ∧ t.cells = ((k.start s).updCell c (issued k)).cells ∧ t.entropy = s.entropy ∧
        ((s.part k.part).fault = none → Aborted k.part 0x0901 (k.start s) t)) ∧
    (k.pred = false → ∃ t, exec (.entdraw c) s = .next t ∧ CellBecomes c (issued k (s.cell c)) (k.start s) t)) ∧
  (∀ (s : State),
    let failed := fun (t : State) => t.entropy.buffers = [] ∧ t.entropy.failGt = s.counter.gt ∧
      od t 0x1E00 0x21 = min (od s 0x1E00 0x21 + 1) (2 ^ 32 - 1) ∧
      (∃ e ∈ t.events, e.2.reason = BitVec.ofNat 16 (reasonCode .ey 0x01)) ∧
      t = { s with dict := t.dict, entropy := t.entropy, events := t.events }
    let due := od s 0x1E00 0x20 = 2 ∧ s.entropy.failGt + 1000000 ≤ s.counter.gt
    let state := od s 0x1E00 0x20
    (state = 0 → (∃ t, exec (.entropyStartupTest true) s = .next t ∧ entropyUp t = true ∧ t = { s with dict := t.dict }) ∧
      (∃ t, exec (.entropyStartupTest false) s = .next t ∧ failed t ∧ od t 0x1E00 0x20 = 2)) ∧
    (state ≠ 0 → ∀ pass, exec (.entropyStartupTest pass) s = .next s) ∧
    (state = 0 ∨ state = 1 → ∃ t, exec .entropyHealthFail s = .next t ∧ failed t ∧ od t 0x1E00 0x20 = 2 ∧ entropyUp t = false) ∧
    (2 < state ∨ (state = 2 ∧ s.counter.gt < s.entropy.failGt + 1000000) → exec .entropyHealthFail s = .next s) ∧
    (due → (∃ t, exec (.entropyRetest true) s = .next t ∧ entropyUp t = true ∧ t.entropy = { s.entropy with retests := 0 } ∧
        (∃ e ∈ t.events, e.2.reason = BitVec.ofNat 16 (reasonCode .ey 0x02)) ∧
        t = { s with dict := t.dict, entropy := t.entropy, events := t.events }) ∧
      (∀ c, c = Instr.entropyRetest false ∨ c = .entropyHealthFail → ∃ t, exec c s = .next t ∧ failed t ∧
        t.entropy.retests = s.entropy.retests + 1 ∧ od t 0x1E00 0x20 = if 3 ≤ s.entropy.retests + 1 then 3 else 2)) ∧
    (state ≠ 2 ∨ s.counter.gt < s.entropy.failGt + 1000000 → ∀ pass, exec (.entropyRetest pass) s = .next s) ∧
    (∀ die w, die < 4 →
      let buf := Assoc.get (fun _ => []) s.entropy.buffers die
      (state = 1 → buf.length < 256 → ∃ t, exec (.entropyBufferFill die w) s = .next t ∧
        Assoc.get (fun _ => []) t.entropy.buffers die = buf ++ [w] ∧
        (∀ k, k ≠ die → Assoc.get (fun _ => []) t.entropy.buffers k = Assoc.get (fun _ => []) s.entropy.buffers k) ∧
        od t 0x1E00 0x22 = od s 0x1E00 0x22 + (if s.entropy.words = 0 then 1 else 0) ∧
        t.entropy.words = (s.entropy.words + 1) % 4 ∧ t = { s with dict := t.dict, entropy := t.entropy }) ∧
      (state ≠ 1 ∨ 256 ≤ buf.length → exec (.entropyBufferFill die w) s = .next s)))

/-- SYADD, SYMAX, SYRD and XPREAD complete where they can issue: the operation goes out on its object, and S[D] awaits its result;
XPREAD also marks an ND operation (R54, R56, R58, R224). SYSET, SYWAIT and SYARR complete where they can issue: the operation
goes out; SYWAIT and SYARR stall the firing, also under a false predicate, with the limit 256 times IMM[63:48] (R43, R56, R57). -/
def Obligations.SyncIssue : Prop :=
  (∀ (s : State) (c : Nat) (k : Issue),
    (∀ op ∈ [0x20, 0x21, 0x23], Issues s c op 0 k →
      ∃ t, exec (if op = 0x20 then .syadd c else if op = 0x21 then .symax c else .syrd c) s = .next t ∧
        SendsSync k (syncSent k op (cellDie c) (syncOperand k s) 0) (k.start s) t ∧
        t.cell c = (issued k (s.cell c)).updFold k.fold (fun f => { f with awaited := f.awaited ++ [fD k.insn] })) ∧
    (Issues s c 0x26 0 k →
      ∃ t, exec (.xpread c) s = .next t ∧
        SendsSync k (syncSent k 0x26 (nbits (fImm k.insn) 45 44) (syncOperand k s) 0) (ndMark k (k.start s)) t ∧
        t.cell c = (issued k (s.cell c)).updFold k.fold (fun f => { f with awaited := f.awaited ++ [fD k.insn] }))) ∧
  (∀ (s : State) (c : Nat) (k : Issue),
    (Issues s c 0x24 0 k →
      ∃ t, exec (.syset c) s = .next t ∧
        SendsSync k (syncSent k 0x24 (cellDie c) (k.reg s (fB k.insn)) 0) (k.start s) t ∧
        t.cell c = issued k (s.cell c)) ∧
    (∀ op ∈ [0x22, 0x25], Issues s c op 0 k →
      ∃ t, exec (if op = 0x22 then .sywait c else .syarr c) s = .next t ∧
        SendsSync k (syncSent k op (cellDie c) (syncOperand k s) (256 * nbits (fImm k.insn) 63 48)) (k.start s) t ∧
        t.cell c = { issued k (s.cell c) with
          firing := (s.cell c).firing.map (fun f => { f with pc := f.pc + 1, ready := k.fc + 1, waiting := true }) }))

/-- An operation on its object (R56, R58): SYADD adds to COUNT, SYMAX takes the greater signed VALUE and adds 1, SYARR adds 1, SYSET
replaces the object, SYRD and SYWAIT change nothing, and no other object changes. A COUNT past its range aborts the task with
OV-0x05 and leaves the object. The operation returns the object as it was. XPREAD returns the object where its partition shares
it with the reader, and otherwise 0, which is counted (R58). -/
def Obligations.SyncObjects : Prop :=
  (∀ (s : State) (p : Nat) (o : SyncOp), o.live = true → o ∈ (s.part p).syncOps →
    let old := s.syncObj o.die o.obj
    let t := actOne p s o
    (∀ d n, 4096 * d + n ≠ 4096 * o.die + o.obj → t.syncObj d n = s.syncObj d n) ∧
    (o.opcode = 0x20 → objCount old + o.value.toNat % 2 ^ 32 < 2 ^ 32 →
      t.syncObj o.die o.obj = objValue old ++ BitVec.ofNat 32 (objCount old + o.value.toNat)) ∧
    (o.opcode = 0x21 → objCount old + 1 < 2 ^ 32 →
      t.syncObj o.die o.obj =
        (if (objValue old).toInt < (o.value.setWidth 32).toInt then o.value.setWidth 32 else objValue old) ++
          BitVec.ofNat 32 (objCount old + 1)) ∧
    (o.opcode = 0x25 → objCount old + 1 < 2 ^ 32 →
      t.syncObj o.die o.obj = objValue old ++ BitVec.ofNat 32 (objCount old + 1)) ∧
    (o.opcode = 0x24 → t.syncObj o.die o.obj = o.value ∧ (t.part p).syncOps = (s.part p).syncOps.erase o) ∧
    ((o.opcode = 0x22 ∨ o.opcode = 0x23) → t.syncObj o.die o.obj = old) ∧
    ((s.part p).fault = none →
      ((o.opcode = 0x20 ∧ 2 ^ 32 ≤ objCount old + o.value.toNat % 2 ^ 32) ∨
        ((o.opcode = 0x21 ∨ o.opcode = 0x25) ∧ 2 ^ 32 ≤ objCount old + 1)) →
      t.syncObj o.die o.obj = old ∧ Aborted p 0x0305 s t) ∧
    ((o.opcode = 0x20 ∨ o.opcode = 0x21 ∨ o.opcode = 0x23) →
      { o with acted := true, result := old } ∈ (t.part p).syncOps)) ∧
  (∀ (s : State) (p : Nat) (o : SyncOp), o.live = true → o.opcode = 0x26 → o ∈ (s.part p).syncOps →
    (∀ q, partOfEighth s (syncEighth o.die o.obj) = some q →
      ((odForce s 0x1900 0x02 q).testBit p = true →
        { o with acted := true, result := s.syncObj o.die o.obj } ∈ ((actOne p s o).part p).syncOps) ∧
      ((odForce s 0x1900 0x02 q).testBit p = false →
        { o with acted := true, result := 0 } ∈ ((actOne p s o).part p).syncOps ∧
        od (actOne p s o) 0x1900 0x04 = min (od s 0x1900 0x04 + 1) (2 ^ 32 - 1))) ∧
    (actOne p s o).sync = s.sync)

/-- SYNC_OP_ACT completes: in the fc 8 after their issue the operations act, in ascending order of cell, the waits are evaluated,
and those on arrival objects complete or hold the partition (R57, R320). A wait that has acted is met in the first fc at whose
end COUNT is at least its value, and otherwise stays open; a wait on an arrival object is left to the end of its hold (R57,
R320). SYNC_RESULT_RETURN, SYNC_WAIT_DONE and SYNC_WAIT_TIMEOUT complete: a result reaches its scalar, or the anchor of an
AGREED MANCH, 16 fc after its issue; a wait whose COUNT met the value in fc m ends, and its firing goes on at m + 9; a wait past
its limit aborts with OV-0x0B, counted from its issue to the fc in which COUNT meets the value (the model's choice, log 101;
R56, R57, R80). -/
def Obligations.SyncCompletion : Prop :=
  (∀ (s : State) (p f : Nat), nextAct (s.part p).syncOps = some f → PartReaches s p f →
    (∀ o ∈ (s.part p).syncOps, o.acted = false → f ≤ o.issued + 8) ∧
    ∃ t, exec (.syncOpAct p) s = .next t ∧
      ∃ os : List SyncOp, (∀ o, o ∈ os ↔ o ∈ (s.part p).syncOps ∧ o.acted = false ∧ o.issued + 8 = f) ∧
        os.Pairwise (fun a b => a.cell ≤ b.cell) ∧
        t = holdOrGo (evalWaits p f (os.foldl (actOne p) (reach s p f))) p) ∧
  (∀ (s : State) (p f : Nat) (o : SyncOp), o ∈ (s.part p).syncOps → waitsObj o.opcode = true → o.acted = true →
    o.met = none →
    (arrivalObj s p o.die o.obj = false → o.value.toNat % 2 ^ 32 ≤ (s.syncObj o.die o.obj).toNat % 2 ^ 32 →
      { o with met := some f } ∈ ((evalWaits p f s).part p).syncOps) ∧
    ((arrivalObj s p o.die o.obj = true ∨ (s.syncObj o.die o.obj).toNat % 2 ^ 32 < o.value.toNat % 2 ^ 32) →
      o ∈ ((evalWaits p f s).part p).syncOps) ∧
    OnlyPart p s (evalWaits p f s)) ∧
  (∀ (s : State) (c p : Nat) (o : SyncOp) (os : List SyncOp), partOfCell s c = some p →
    (cellOps s p c (fun o => o.acted && (returnsObj o.opcode || o.opcode == 0x64)) = o :: os →
      CellReaches s c p (o.issued + 16) →
      ∃ t, exec (.syncResultReturn c) s = .next t ∧ OnlyPartCell p c (reach s p (o.issued + 16)) t ∧
        (t.part p).syncOps = (s.part p).syncOps.erase o ∧
        (o.opcode ≠ 0x64 →
          ∀ m, ((t.cell c).fold o.fold).reg m =
            if o.live = true ∧ m = o.dest ∧ m ≠ 0 then o.result else ((s.cell c).fold o.fold).reg m) ∧
        (o.opcode = 0x64 → o.live = true → (t.cell c).matrix.mode = 2 ∧
          (t.cell c).matrix.given = clampInt (o.result.toInt / 2 ^ 32) (-512) 511)) ∧
    (∀ m, cellOps s p c (fun o => waitsObj o.opcode && o.met.isSome) = o :: os → o.met = some m →
      CellReaches s c p (m + 8) →
      ∃ t, exec (.syncWaitDone c) s = .next t ∧ OnlyPartCell p c (reach s p (m + 8)) t ∧
        (t.part p).syncOps = (s.part p).syncOps.erase o ∧
        ∀ f, (s.cell c).firing = some f → f.fold = o.fold →
          t.cell c = { s.cell c with firing := some { f with waiting := false, ready := max f.ready (m + 9) } }) ∧
    (cellOps s p c (fun o => waitsObj o.opcode && o.met.isNone && decide (o.limit ≠ 0)) = o :: os →
      CellReaches s c p (o.issued + o.limit + 1) →
      ∃ t, exec (.syncWaitTimeout c) s = .next t ∧ t.cells = s.cells ∧ t.sync = s.sync ∧
        ((s.part p).fault = none → Aborted p 0x030B (reach s p (o.issued + o.limit + 1)) t)))

/-- STLD, STST, STIDX and STPTR complete where their SID is free: the stream joins the outstanding ones with the fields of R140,
reading its walk's base from S[AS], its list or contiguous side from S[BS] and its descriptor's address from S[DS] (R140 to
R142). No memory changes at issue. STWAIT completes: with a stream that it names outstanding the firing waits for those streams,
and without one it goes on, whatever its predicate (R43, R142). -/
def Obligations.StreamIssue : Prop :=
  (∀ (s : State) (c : Nat) (k : Issue),
    (s.cell c).streams.all (fun st => st.sid != sfSid k.insn) = true →
    ∀ op ∈ [0x40, 0x41, 0x44, 0x45], Issues s c op (sidSince s c) k →
      ∃ t st,
        exec (if op = 0x40 then .stld c else if op = 0x41 then .stst c else if op = 0x44 then .stidx c else .stptr c) s =
            .next t ∧
        CellBecomes c { issued k (s.cell c) with streams := (s.cell c).streams ++ [st] } (k.start s) t ∧
        st.sid = sfSid k.insn ∧ st.fold = k.fold ∧ st.tag = k.tag ∧ st.live = k.pred ∧ st.issued = k.fc ∧
        st.started = false ∧ st.moved = 0 ∧ st.buf = [] ∧ st.fault = none ∧
        st.base = (k.reg s (sfAs k.insn)).toNat % 2 ^ 20 ∧
        st.dsAddr = (k.reg s (sfDs k.insn)).toNat / 8 * 8 ∧
        st.listMem = (if sfLsrc k.insn = 3 then 3 else 2) ∧ st.list = memBase st.listMem (k.reg s (sfBs k.insn)) ∧
        st.kind = (if op = 0x40 then .stld else if op = 0x41 then .stst else if op = 0x44 then .stidx else .stptr) ∧
        (op = 0x41 → st.side = sfSrc k.insn ∧ st.contig = memBase (sfSrc k.insn) (k.reg s (sfBs k.insn))) ∧
        (op ≠ 0x41 → st.contig = 64 * sfOfs k.insn)) ∧
  (∀ (s : State) (c : Nat) (k : Issue), Issues s c 0x48 0 k →
    let named := ((s.cell c).streams.filter (fun st => sfAll k.insn || st.sid == sfSid k.insn)).map (·.issued)
    ∃ t, exec (.stwait c) s = .next t ∧
      CellBecomes c
        (if named = [] then issued k (s.cell c) else
          { issued k (s.cell c) with
            firing := (s.cell c).firing.map (fun f =>
              { f with pc := f.pc + 1, ready := k.fc + 1, waiting := true, strm := named }) })
        (k.start s) t)

/-- FLOW, STIN, SANDBAG and SWAP complete: a FLOW takes its route and waits for its head's slot; STIN arms the cell for a flow
number; SANDBAG joins the chain; SWAP changes the use half, where no landing is in the other (R129, R132, R146, R150). Under a
false predicate STIN, SANDBAG and SWAP do nothing. A SWAP while a landing is in progress in the half it would bring into use
aborts the task with ST-0x07 (R129). -/
def Obligations.FlowIssue : Prop :=
  (∀ (s : State) (c : Nat) (k : Issue),
    (Issues s c 0x42 (flowSince s c) k → flowFree s c k.insn = true →
      ∃ t o tok, exec (.flow c) s = .next t ∧
        (let r := nth 0 ((s.cell c).fold k.fold).routes (fRoute k.insn)
        CellBecomes c
          { issued k (s.cell c) with
            flows := (s.cell c).flows.filter (fun y => !(y.fold == k.fold && y.route == fRoute k.insn)) ++ [o] }
          (k.start s) t ∧
        o.entry = r ∧ tok.dfold.toNat = routeFold r ∧ tok.dport.toNat = routePort r) ∧
        o.fold = k.fold ∧ o.route = fRoute k.insn ∧ o.src = sfSrc k.insn ∧
        o.addr = memBase (sfSrc k.insn) (k.reg s (sfAs k.insn)) ∧ o.total = sfNf k.insn ∧ o.sent = 0 ∧
        o.lofs = sfOfs k.insn ∧ o.live = k.pred ∧ o.head = some tok ∧ tok.kind = 1 ∧
        tok.tag = tagx (s.cell c) k.fold k.tag k.insn ∧ tok.flow = BitVec.ofNat 8 (sfFlown k.insn) ∧
        tok.aux = BitVec.ofNat 64 (64 * sfNf k.insn)) ∧
    (Issues s c 0x43 0 k →
      ∃ t, exec (.stin c) s = .next t ∧
        CellBecomes c
          (if k.pred then
            { issued k (s.cell c) with
              arms := (s.cell c).arms.insert (sfFlown k.insn)
                { tag := (k.reg s (sfBs k.insn)).setWidth 16, port := sfPort k.insn, fold := k.fold,
                  ofs := 64 * sfOfs k.insn } }
          else issued k (s.cell c)) (k.start s) t) ∧
    (Issues s c 0x46 0 k → (k.pred = true → (s.cell c).swapBlocked = false) →
      ∃ t, exec (.swap c) s = .next t ∧
        CellBecomes c
          { issued k (s.cell c) with useHalf := if k.pred then 1 - (s.cell c).useHalf else (s.cell c).useHalf }
          (k.start s) t) ∧
    (Issues s c 0x47 0 k →
      ∃ t, exec (.sandbag c) s = .next t ∧
        CellBecomes c
          (if k.pred then
            { issued k (s.cell c) with
              chain := some
                { tag := (k.reg s (sfBs k.insn)).setWidth 16, port := sfPort k.insn, fold := k.fold,
                  route := fRoute k.insn, keep := sfKeep k.insn, rest := sfRest k.insn, kept := 0, passed := 0,
                  ofs := 64 * sfOfs k.insn, half := 0, src := sfSrc k.insn,
                  addr := memBase (sfSrc k.insn) (k.reg s (sfAs k.insn)), read := 0, issued := k.fc } }
          else issued k (s.cell c)) (k.start s) t)) ∧
  (∀ (s : State) (c : Nat) (k : Issue), Issues s c 0x46 0 k → k.pred = true → (s.cell c).swapBlocked = true →
    (s.part k.part).fault = none →
    ∃ t, exec (.swap c) s = .next t ∧ Aborted k.part 0x0207 (k.start s) t ∧ (t.cell c).useHalf = (s.cell c).useHalf ∧
      t.cells = ((k.start s).updCell c (issued k)).cells)

/-- LOCAL_STREAM_START, LOCAL_STREAM_WORD_WRITE and LOCAL_STREAM_END complete: the stream reads its descriptor 3 fc after it starts,
as scratch stands in that fc, and a malformed one aborts with ST-0x01; a word in hand is written 4 fc after its read, in order,
and one whose read met a fault aborts with its code; at the end of its walk its SID is free and the firings that awaited only it
go on (R128, R136, R142, R182). A word of a live local stream goes to its place in the memories as the cell's units have left
them by then: STST writes the word at its tier-0 address, the other kinds at its offset in the half that was to be filled when
their first word came; the bytes outside the word stand as they were, and a later writer of the same fc prevails (R127 to R129,
R142). A stream of a false predicate writes nothing (R43). An error of a read of tier 0 marks its word bad until a write covers
it, or is corrected and counted on the die (R182, R423). -/
def Obligations.LocalStreams : Prop :=
  (∀ (s : State) (c p : Nat) (st : LocalStream) (sts : List LocalStream), (s.cell c).streams = st :: sts →
    (st.started = false → CellReaches s c p ((s.cell c).streamStart st + 3) → st.dsAddr + 64 ≤ 0x3000 →
      (let f := (s.cell c).streamStart st + 3
      let d : BitVec 512 := BitVec.ofNat 512 (leNat (((s.cell c).view f).scratch.readN 0x3000 st.dsAddr 64))
      (ldMalformed d = false → ldMode d = st.kind.mode →
        ∃ t, exec (.localStreamStart c) s = .next t ∧
          CellBecomes c { s.cell c with streams := { st with started := true, desc := d, nextFc := f + 1, fault := none } :: sts }
            (reach s p f) t) ∧
      (ldMalformed d = true ∨ ldMode d ≠ st.kind.mode → st.live = true →
        ∃ t, exec (.localStreamStart c) s = .next t ∧ t.cells = s.cells ∧
          ((s.part p).fault = none → Aborted p 0x0201 (reach s p f) t)))) ∧
    (st.started = true → ∀ t0,
      let r := tier0Error c (st.live && (st.kind != .stst || st.listMem == 2)) t0 s
      let h := (r.cell c).readHead st
      ∀ w ws, h.buf = w :: ws →
        (w.code = 0 → CellReaches r c p (w.read + 4) →
          ∃ t, exec (.localStreamWordWrite ⟨c, t0⟩) s = .next t ∧
            t = (reach r p (w.read + 4)).updCell c (fun x => x.streamWrite (w.read + 4) h w)) ∧
        (w.code ≠ 0 → CellReaches r c p w.read →
          ∃ t, exec (.localStreamWordWrite ⟨c, t0⟩) s = .next t ∧ t.cells = r.cells ∧
            ((r.part p).fault = none → ∃ f, (t.part p).fault = some f))) ∧
    (st.started = true → ((s.cell c).readHead st).buf = [] → ((s.cell c).readHead st).fault = none →
      CellReaches s c p ((s.cell c).readHead st).lastFc →
      (let h := (s.cell c).readHead st
      let awake := fun (f : Firing) => { f with strm := [], waiting := false, ready := max f.ready (h.lastFc + 1) }
      ∃ t, exec (.localStreamEnd c) s = .next t ∧ OnlyCell c (reach s p h.lastFc) t ∧
        (t.cell c).streams = sts ∧ (t.cell c).lastStrm = some (h.lastFc, h.sid) ∧
        (t.cell c).tier0 = (s.cell c).tier0 ∧ (t.cell c).half0 = (s.cell c).half0 ∧
        (t.cell c).half1 = (s.cell c).half1 ∧ (t.cell c).scratch = (s.cell c).scratch ∧
        (∀ f, (s.cell c).firing = some f → f.strm = [h.issued] → (t.cell c).firing = some (awake f)) ∧
        ∀ g f, ((s.cell c).fold g).susp = some f → f.strm = [h.issued] → ((t.cell c).fold g).susp = some (awake f)))) ∧
  ((∀ (x : Cell) (f : Nat) (st : LocalStream) (w : StreamWord) (sts : List LocalStream), x.streams = st :: sts →
    w.bytes.length ≤ 64 →
    let h := if st.written then st.half else x.fillHalf
    let m := if st.kind = .stst then 2 else h
    let st' : LocalStream := { st with
      buf := st.buf.drop 1, written := true, lastFc := f, half := h, since := if st.written then st.since else f }
    let z := x.streamWrite f st w
    let y := ({ x with streams := st' :: sts } : Cell).advance f
    (st.live = true → h < 2 → w.dst + w.bytes.length ≤ memSize m →
      ((y.wroteFc = f → ∀ v ∈ y.wrote, v.mem = m → v.rank ≤ rankLw) →
        (z.mem m).readN (memSize m) w.dst w.bytes.length = w.bytes) ∧
      (∀ a, a < w.dst ∨ w.dst + w.bytes.length ≤ a → (z.mem m).read a = (y.mem m).read a) ∧
      (∀ n, n < 4 → n ≠ m → z.mem n = y.mem n)) ∧
    (st.live = false → z = { x with streams := st' :: sts }) ∧
    (x.vector.run = none → ∀ n, y.mem n = x.mem n)) ∧
  (∀ (s : State) (c : Nat) (reads : Bool) (e : Tier0Error),
    tier0Error c reads none s = s ∧ tier0Error c false (some e) s = s ∧
    (e.bad = true → OnlyCell c s (tier0Error c true (some e) s) ∧
      e.word % (bankBytes / 8) ∈ ((tier0Error c true (some e) s).cell c).tier0.bad ∧
      (tier0Error c true (some e) s).cell c =
        { s.cell c with tier0 := { (s.cell c).tier0 with bad := ((tier0Error c true (some e) s).cell c).tier0.bad } }) ∧
    (e.bad = false → tier0Error c true (some e) s = odCount s (0x4000 + 0x100 * cellDie c) 0x20 0 32)))

/-- FLOW_FLIT_INJECT, FLOW_HEAD_ARRIVE and FLOW_FLIT_LAND complete: the head and then the data flits leave in the route's slots, or
come back to the cell on a loopback route; a flow's head sets its landing's half, offset, count and completion token; a data
flit is written at the landing's next offset. A read that meets a fault aborts with its code, an edge head that no STIN has
armed with ST-0x07 (R131, R132, R146, R182). A landing's data flit stands in its half at the landing's offset, unless a later
writer of the same fc prevails; every other byte stands as the cell's units have left it by then; the last one ends the landing
and enters the completion token, with the half's code, in its port's queue in the next fc, behind those that have entered by
then (R33, R35, R128, R130, R131). CHAIN_SOURCE_READ and CHAIN_FLIT_ARRIVE complete: the first member reads its next 64 bytes,
the memory as it stood at the start of the fc; a flit that reaches a member is kept, as a flit of its landing, until KEEP are
kept, and then forwarded on the route of its lane (R128, R150, R151). A read that meets a fault aborts with its code, and a
chain flit at a cell that no SANDBAG has armed before its fc with ST-0x07 (R182). -/
def Obligations.FlowLanding : Prop :=
  (∀ (s : State) (c p : Nat),
    (∀ route o t0, isRoute route = true → (s.cell c).flowOn (s.cell c).cur route = some o → o.ended = false →
      (s.cell c).switching = none →
      (let i := slotFrom (routeLane o.entry) (max (o.lastFc + 1) (s.cell c).dwellFrom)
      i < (s.cell c).dwellEnd → CellReaches s c p i →
      let put := fun (o' : OutFlow) => (reach s p i).updCell c (fun x =>
        { x with flows := x.flows.map (fun y => if y.fold = o.fold ∧ y.route = route then o' else y) })
      let leaves := fun (r t : State) (body : FlitBody) =>
        (∀ f, routeOut o.entry < 4 → crossLink c (routeOut o.entry) i body = some f →
          (t.part p).flits = (r.part p).flits ++ [f] ∧ t.cells = r.cells) ∧
        (routeOut o.entry = 4 →
          CellBecomes c { r.cell c with inbox := (r.cell c).inbox ++ [{ key := 16 + i % 4, fc := i, body := body }] } r t)
      ∃ t, exec (.flowFlitInject ⟨c, t0⟩ route) s = .next t ∧
        (∀ tok, o.head = some tok →
          let r := put { o with head := none, lastFc := i }
          (o.live = true → leaves r t (.flowHead tok o.lofs)) ∧ (o.live = false → t = r)) ∧
        (o.head = none →
          let r := tier0Error c (o.live && o.src == 2) t0 (put { o with sent := o.sent + 1, lastFc := i })
          let z := ((r.cell c).advance i).view i
          let a := o.addr + 64 * o.sent
          (o.live = true → z.rdCode o.src a 64 = 0 → leaves r t (.flowData (z.rd o.src a 64))) ∧
          (o.live = true → z.rdCode o.src a 64 ≠ 0 → t.cells = r.cells ∧
            ((s.part p).fault = none → Aborted p (z.rdCode o.src a 64) (reach s p i) t)) ∧
          (o.live = false → t = r)))) ∧
    (∀ d rest, takeFlit isHead (s.cell c).inbox = some (d, rest) → CellReaches s c p d.fc →
      ∃ t, exec (.flowHeadArrive c) s = .next t ∧
        (∀ tok lofs, d.body = .flowHead tok lofs →
          CellBecomes c
            { s.cell c with
              inbox := rest,
              landings := (s.cell c).landings.filter (fun m => m.key != d.key) ++
                [{ key := d.key, half := (s.cell c).fillHalf, ofs := 64 * lofs, left := ceilDiv tok.aux.toNat 64,
                   started := false, since := 0, tok := tok }] }
            (reach s p d.fc) t) ∧
        (∀ src flow aux a, d.body = .edgeHead src flow aux → (s.cell c).arms.find? flow.toNat = some a →
          ∃ l, CellBecomes c
            { s.cell c with
              inbox := rest, arms := (s.cell c).arms.erase flow.toNat,
              landings := (s.cell c).landings.filter (fun m => m.key != d.key) ++ [l] }
            (reach s p d.fc) t ∧
            l.key = d.key ∧ l.half = (s.cell c).fillHalf ∧ l.ofs = a.ofs ∧ l.left = ceilDiv aux.toNat 64 ∧
            l.started = false ∧ l.tok.tag = a.tag ∧ l.tok.dfold = BitVec.ofNat 3 a.fold ∧ l.tok.dport = BitVec.ofNat 2 a.port ∧
            l.tok.flow = flow ∧ l.tok.aux = aux) ∧
        (∀ src flow aux, d.body = .edgeHead src flow aux → (s.cell c).arms.find? flow.toNat = none →
          (s.part p).fault = none → Aborted p 0x0207 (reach s p d.fc) t)) ∧
    (∀ d rest l bs, takeFlit isData (s.cell c).inbox = some (d, rest) → d.body = .flowData bs →
      ((s.cell c).inbox.takeWhile (fun e => !isData e.body)).any (fun e => e.key == d.key && isHead e.body) = false →
      (s.cell c).landingOn d.key = some l → CellReaches s c p d.fc →
      ∃ t, exec (.flowFlitLand c) s = .next t ∧
        t = (reach s p d.fc).updCell c (fun x => ({ x with inbox := rest } : Cell).landFlit d.fc l bs))) ∧
  (∀ (x : Cell) (f : Nat) (l : Landing) (bs : List Byte), l.half < 2 → bs.length = 64 → l.ofs + 64 ≤ 16384 →
    let l' := if l.started then l else { l with started := true, since := f }
    let others := x.landings.filter (fun m => m.key != l.key)
    let y := ({ x with landings := others ++ [l'] } : Cell).advance f
    let z := x.landFlit f l bs
    ((y.wroteFc = f → ∀ v ∈ y.wrote, v.mem = l.half → v.rank ≤ rankLd) → (z.mem l.half).readN 16384 l.ofs 64 = bs) ∧
    (∀ a, a < l.ofs ∨ l.ofs + 64 ≤ a → (z.mem l.half).read a = (y.mem l.half).read a) ∧
    (∀ n, n < 4 → n ≠ l.half → z.mem n = y.mem n) ∧
    (x.vector.run = none → ∀ n, y.mem n = x.mem n) ∧
    (1 < l.left → z.landings = others ++ [{ l' with ofs := l.ofs + 64, left := l.left - 1 }] ∧ z.queues = x.queues) ∧
    (l.left ≤ 1 → z.landings = others ∧ (l.half, f) ∈ z.landed ∧
      (let port := l.tok.dport.toNat
      port < x.queues.length → (∀ q ∈ nth [] x.queues port, q.entered ≤ f + 1) →
        nth [] z.queues port =
          nth [] x.queues port ++ [{ tok := { l.tok with half := if l.half = 0 then 1 else 2 }, entered := f + 1 }]))) ∧
  (∀ (s : State) (c p : Nat),
    (∀ m t0, (s.cell c).chain = some m → m.src ≠ 3 → m.read < m.keep + m.rest → CellReaches s c p (m.issued + 1 + m.read) →
      let f := m.issued + 1 + m.read
      let r := tier0Error c (m.src == 2) t0 (reach s p f)
      let z := ((r.cell c).advance f).view f
      let a := m.addr + 64 * m.read
      ∃ t, exec (.chainSourceRead ⟨c, t0⟩) s = .next t ∧
        (z.rdCode m.src a 64 = 0 → t = chainFlit p c f { m with read := m.read + 1 } (z.rd m.src a 64) r) ∧
        (z.rdCode m.src a 64 ≠ 0 → t.cells = r.cells ∧
          ((s.part p).fault = none → Aborted p (z.rdCode m.src a 64) (reach s p f) t))) ∧
    (∀ d rest bs, takeFlit isChain (s.cell c).inbox = some (d, rest) → d.body = .chain bs → CellReaches s c p d.fc →
      let r := (reach s p d.fc).updCell c (fun x => { x with inbox := rest })
      ∃ t, exec (.chainFlitArrive c) s = .next t ∧
        (∀ m, (s.cell c).chain = some m → m.issued < d.fc → t = chainFlit p c d.fc m bs r) ∧
        ((s.cell c).chain = none ∨ (∃ m, (s.cell c).chain = some m ∧ d.fc ≤ m.issued) →
          t.cells = r.cells ∧ ((s.part p).fault = none → Aborted p 0x0207 (reach s p d.fc) t))) ∧
    (∀ (r : State) f m bs, (r.cell c).chain = some m →
      let t := chainFlit p c f m bs r
      (m.keep ≤ m.kept →
        let entry := nth 0 ((r.cell c).fold m.fold).routes (m.route + f % 4)
        (t.cell c).chain = (if m.rest ≤ m.passed + 1 then none else some { m with passed := m.passed + 1 }) ∧
        (∀ fl, routeOut entry < 4 → crossLink c (routeOut entry) f (.chain bs) = some fl →
          (t.part p).flits = (r.part p).flits ++ [fl]) ∧
        (routeOut entry = 4 →
          (t.cell c).inbox = (r.cell c).inbox ++ [{ key := 16 + f % 4, fc := f, body := .chain bs }])) ∧
      (m.kept < m.keep → OnlyCell c r t ∧
        (t.cell c).chain = (if m.keep ≤ m.kept + 1 ∧ m.rest ≤ m.passed then none
          else some { m with kept := m.kept + 1, half := if m.kept = 0 then (r.cell c).fillHalf else m.half }) ∧
        (t.part p).flits = (r.part p).flits ∧
        ∃ (l : Landing) (x : Cell), x.chain = (t.cell c).chain ∧ t.cell c = x.landFlit f l bs ∧
          x = { r.cell c with chain := x.chain } ∧
          ((r.cell c).landingOn chainKey = some l ∨
            ((r.cell c).landingOn chainKey = none ∧ l.key = chainKey ∧ l.ofs = m.ofs ∧ l.left = m.keep ∧ l.started = false ∧
              l.half = (if m.kept = 0 then (r.cell c).fillHalf else m.half))))))

/-- MMUL and MACC complete where the unit is free and, for an MMUL, no earlier sum is still to reach the window: the operation joins
those in progress with the addresses of A and W, its anchor where the mode gives one, and nothing read yet; the array is
occupied for the T of R79, an MMUL scanning for its anchor in AUTO mode, and the sums reach the window 16 fc after it. Under a
false predicate the operation occupies the unit all the same (R74, R79 to R82, R86). Nothing else of the cell changes but what
its units do up to then. MMUL_PROBE and MLDW complete where the unit is free: the probe is in progress for its scan alone, and
touches neither window nor planes; MLDW loads panel 0 of its tile, and holds the W port for its load time; under a false
predicate each occupies the unit all the same (R75, R79 to R82, R87). Nothing else of the cell changes but what its units do up
to then. -/
def Obligations.MatrixIssue : Prop :=
  (∀ (s : State) (c : Nat) (k : Issue) (t0 : Option Tier0Error), mmProbe k.insn = false →
    let u := (s.cell c).matrix
    let tile := tileOf k.insn
    let bank := mmWsrc k.insn == 2 || mmAsrc k.insn == 2
    let r := tier0Error c (k.pred && bank) t0 ((k.start s).updCell c (issued k))
    let y := (r.cell c).matrixTo k.fc
    ∀ clear : Bool,
      (if clear then Issues s c 0x61 u.mmulAt k ∧ settled s c = true else Issues s c 0x62 u.maccAt k) →
      let scan := clear && decide (u.mode = 0)
      let T := tile.time scan (mmWkeep k.insn || mmWpre k.insn)
      ∃ t o, exec (if clear then .mmul ⟨c, t0⟩ else .macc ⟨c, t0⟩) s = .next t ∧
        CellBecomes c
          { y with matrix := { y.matrix with
              ops := y.matrix.ops ++ [o], maccFrom := k.fc + T, mmulFrom := k.fc + T + 16, mldwFrom := k.fc + T - tile.m } }
          r t ∧
        o.kind = (if clear then .mmul else .macc) ∧ o.insn = k.insn ∧ o.issued = k.fc ∧ o.free = k.fc + T ∧
        o.done = k.fc + T + 16 ∧ o.fold = k.fold ∧ o.tag = k.tag ∧ o.live = k.pred ∧
        o.aBase = (k.reg s (mmAs k.insn)).toNat % 2 ^ 20 / 16 * 16 ∧ o.wBase = (k.reg s (mmWs k.insn)).toNat % 2 ^ 20 / 64 * 64 ∧
        (clear = true → o.given = if u.mode = 0 then none else some u.given) ∧
        o.got = [] ∧ o.rows = [] ∧ o.loaded = false ∧ o.abort = none) ∧
  (∀ (s : State) (c : Nat) (k : Issue) (t0 : Option Tier0Error),
    let tile := tileOf k.insn
    let u := (s.cell c).matrix
    ((Issues s c 0x61 u.mmulAt k ∨ Issues s c 0x62 u.maccAt k) → mmProbe k.insn = true →
      let bank := mmWsrc k.insn == 2 || mmAsrc k.insn == 2
      let r := tier0Error c (k.pred && bank) t0 ((k.start s).updCell c (issued k))
      let y := (r.cell c).matrixTo k.fc
      ∃ t o, exec (.mmulProbe ⟨c, t0⟩) s = .next t ∧
        CellBecomes c
          { y with matrix := { y.matrix with
              ops := y.matrix.ops ++ [o], maccFrom := k.fc + tile.scan, mmulFrom := k.fc + tile.scan + 16,
              mldwFrom := k.fc + tile.scan } }
          r t ∧
        o.kind = .probe ∧ o.insn = k.insn ∧ o.issued = k.fc ∧ o.done = k.fc + tile.scan ∧ o.live = k.pred ∧ o.given = none ∧
        o.got = [] ∧ o.abort = none) ∧
    (Issues s c 0x60 u.mldwAt k →
      let L := ({ tile with m := 1 } : Tile).load 0
      let r := tier0Error c (k.pred && mmWsrc k.insn == 2) t0 ((k.start s).updCell c (issued k))
      let y := (r.cell c).matrixTo k.fc
      ∃ t o, exec (.mldw ⟨c, t0⟩) s = .next t ∧
        CellBecomes c { y with matrix := { y.matrix with wPortFree := k.fc + L, ops := y.matrix.ops ++ [o] } } r t ∧
        o.kind = .mldw ∧ o.insn = k.insn ∧ o.issued = k.fc ∧ o.done = k.fc + L ∧ o.live = k.pred ∧ o.got = [] ∧
        o.loaded = false ∧ o.abort = none))

/-- MOUT completes: without a TRAP that holds, the window's region is converted row by row and its entry will be pushed C fc after
the issue, with the region, the format, the flags, the anchor and the bytes of its rows; under a false predicate the converter
is occupied and nothing will be pushed (R77, R82, R89, R95, R96). With TRAP, an element whose sum lies outside the format's
range, or PCLAMP, aborts with OV-0x04 (R84, R93). MANCH completes: SUB 0 sets the mode, and with GIVEN the anchor; with AGREED
its object is asked for and the unit waits 16 fc; SUB 1 reads the last probe result, sign-extended; SUB 2 reads the unit status
word and clears it (R76, R80, R86). MATRIX_OP_DONE and TILE_QUEUE_PUSH complete: the operation that ends first, with what it has
read by its end, leaves its sums, flags or probe result, or aborts in the fc of the fault that a read of it has met (R79 to R83,
R94, R129, R182); the converter's first entry joins the tile queue, or aborts with OV-0x03 when four are held (R97). What a live
operation leaves: after an MMUL or MACC each element of the region holds its old sum, 0 after an MMUL, plus the operation's on
the grid of the window's anchor, which an MMUL sets to the anchor given or scanned; no other element changes but that an MMUL
clears it; the flags are ORed. A probe leaves its anchor as the probe result and no more than its flags beside it; an MLDW its
flags. One of a false predicate leaves nothing (R75, R79 to R83, R86, R94). -/
def Obligations.MatrixResults : Prop :=
  (∀ (s : State) (c : Nat) (k : Issue), Issues s c 0x63 (s.cell c).matrix.moutAt k → settled s c = true →
    let u := (s.cell c).matrix
    let f := matOut (moOfmt k.insn)
    let rows := (List.range (moRows k.insn)).map (fun r => winRow u (moRow0 k.insn + r) (moCols k.insn))
    let cs := rows.map (convertRow f (moE4nan k.insn) u.anchor)
    let C := ceilDiv (moRows k.insn * moCols k.insn) (if f = .raw then 16 else 64) + 4
    let bound : Int := if f = .raw then 2 ^ 125 else 2 ^ 95
    let trap := moTrap k.insn = true ∧
      ((∃ row ∈ rows, ∃ e ∈ row, e.sum.toInt < -bound ∨ bound ≤ e.sum.toInt) ∨ bit u.winStatus 1 = true)
    (k.pred = false ∨ ¬ trap → ∃ t v, exec (.mout c) s = .next t ∧
      CellBecomes c { issued k (s.cell c) with matrix := { u with convFree := k.fc + C, conv := u.conv ++ [v] } }
        (k.start s) t ∧
      v.ready = k.fc + C ∧ v.fold = k.fold ∧ v.tag = k.tag ∧
      (k.pred = false → v.entry = none ∧ v.status = 0) ∧
      (k.pred = true → v.status = orFlags (cs.map (·.2)) ∧ ∃ e, v.entry = some e ∧ e.ready = k.fc + C ∧
        e.row0 = moRow0 k.insn ∧ e.rows = moRows k.insn ∧ e.cols = moCols k.insn ∧ e.ofmt = moOfmt k.insn ∧
        e.anchor = BitVec.ofInt 16 u.anchor ∧ e.status = u.winStatus ||| orFlags (cs.map (·.2)) ∧
        e.bytes = cs.flatMap (·.1))) ∧
    (k.pred = true → trap → ∃ t, exec (.mout c) s = .next t ∧ t.cells = ((k.start s).updCell c (issued k)).cells ∧
      ((s.part k.part).fault = none → Aborted k.part 0x0304 (k.start s) t))) ∧
  (∀ (s : State) (c : Nat) (k : Issue), Issues s c 0x64 (s.cell c).matrix.manchFree k →
    (manchSub k.insn = 0 → manchMode k.insn ≠ 2 → k.pred = true → ∃ t, exec (.manchSetMode c) s = .next t ∧
      CellBecomes c
        { issued k (s.cell c) with matrix := { (s.cell c).matrix with
            mode := BitVec.ofNat 2 (manchMode k.insn),
            given := if manchMode k.insn = 1 then manchAnchor k.insn else (s.cell c).matrix.given } }
        (k.start s) t) ∧
    (manchSub k.insn = 0 → manchMode k.insn ≠ 2 → k.pred = false → ∃ t, exec (.manchSetMode c) s = .next t ∧
      CellBecomes c (issued k (s.cell c)) (k.start s) t) ∧
    (manchSub k.insn = 0 → manchMode k.insn = 2 → ∃ t o, exec (.manchSetMode c) s = .next t ∧
      SendsSync k o (k.start s) t ∧ o.opcode = 0x64 ∧ o.die = cellDie c ∧ o.obj = manchObj k.insn ∧ o.live = k.pred ∧
      o.issued = k.fc ∧ o.acted = false ∧
      t.cell c = { issued k (s.cell c) with matrix := { (s.cell c).matrix with manchFree := k.fc + 16 } }) ∧
    (manchSub k.insn = 1 → ∃ t, exec (.manchReadProbe c) s = .next t ∧
      WritesScalar k (manchD k.insn) (BitVec.ofInt 64 (s.cell c).matrix.probe) (k.start s) t) ∧
    (manchSub k.insn = 2 → ∃ t, exec (.manchReadStatus c) s = .next t ∧
      WritesScalar k (manchD k.insn) ((s.cell c).matrix.status.setWidth 64)
        ((k.start s).updCell c (fun x =>
          { x with matrix := { x.matrix with status := if k.pred then 0 else x.matrix.status } })) t)) ∧
  (∀ (s : State) (c p : Nat),
    (∀ o q, firstOp (s.cell c).matrix.ops = some o →
      let y := (s.cell c).matrixTo o.free
      firstOp y.matrix.ops = some q →
      (q.abort = none → CellReaches s c p o.done →
        ∃ t, exec (.matrixOpDone c) s = .next t ∧
          CellBecomes c { y with matrix := y.matrix.apply q } (reach s p o.done) t) ∧
      (∀ f code, q.abort = some (f, code) → CellReaches s c p f →
        ∃ t, exec (.matrixOpDone c) s = .next t ∧ ((s.part p).fault = none → ∃ e, (t.part p).fault = some e) ∧
          (t.cell c).matrix.ops =
            ((s.cell c).matrixTo f).matrix.ops.filter (fun q => q.issued != o.issued || q.kind != o.kind))) ∧
    (∀ v vs, (s.cell c).matrix.conv = v :: vs → CellReaches s c p (v.ready - 1) →
      let u := (s.cell c).matrix
      ∃ t, exec (.tileQueuePush c) s = .next t ∧
        (v.entry = none → CellBecomes c { s.cell c with matrix := { u with conv := vs } } (reach s p (v.ready - 1)) t) ∧
        (∀ e, v.entry = some e → u.tiles.length < 4 →
          CellBecomes c
            { s.cell c with matrix := { u with conv := vs, status := u.status ||| v.status, tiles := u.tiles ++ [e] } }
            (reach s p (v.ready - 1)) t) ∧
        (∀ e, v.entry = some e → 4 ≤ u.tiles.length →
          t.cell c = { s.cell c with matrix := { u with conv := vs, status := u.status ||| v.status } } ∧
          ((s.part p).fault = none → Aborted p 0x0303 (reach s p (v.ready - 1)) t)))) ∧
  (∀ (u : MatrixUnit) (o : MatrixOp),
    let t := u.apply o
    let idle := { u with ops := u.ops.erase o }
    (o.live = false → t = idle) ∧
    (o.live = true → o.kind = .probe →
      t = { idle with probe := o.scanAnchor, status := u.status ||| mNanIn o.nanIn }) ∧
    (o.live = true → o.kind = .mldw → t = { idle with status := u.status ||| mNanIn o.nanIn }) ∧
    (o.live = true → (o.kind = .mmul ∨ o.kind = .macc) →
      let anchor := if o.kind = .mmul then o.given.getD o.scanAnchor else u.anchor
      let zs := (o.sums anchor).1
      let st := mNanIn o.nanIn ||| (o.sums anchor).2
      let old := fun n => if o.kind = .mmul then WinElem.zero else Assoc.get (fun _ => WinElem.zero) u.window n
      t = { idle with anchor := anchor, window := t.window, status := u.status ||| st,
                      winStatus := (if o.kind = .mmul then 0 else u.winStatus) ||| st } ∧
      (∀ n e, (n, e) ∈ zs → Assoc.get (fun _ => WinElem.zero) t.window n =
        { sum := (old n).sum + e.sum, nan := (old n).nan || e.nan, pinf := (old n).pinf || e.pinf, ninf := (old n).ninf || e.ninf }) ∧
      (∀ n, (∀ e, (n, e) ∉ zs) → Assoc.get (fun _ => WinElem.zero) t.window n = old n) ∧
      (∀ n e, (n, e) ∈ zs → n / 64 < o.tile.m ∧ n % 64 < o.tile.n)))

/-- VCFG completes where its 128 bytes lie in scratch: they are read 16 an fc, and VCFG_LOAD_DONE then puts them in the shadow,
marked valid or not; past the scratch it aborts with OV-0x0A; under a false predicate it occupies the loader alone. VSTAT
completes where no pass runs: its SUB selects the accumulated or the last status, and SUB 2 clears the accumulated one (R55,
R105 to R107, R112, R113). VRUN and VRUNT complete where the chain is free: the shadow becomes active; VRUNT takes the head of
the tile queue, and under a false predicate neither does more than occupy the chain; the pass is in progress for the T of R107,
with CFGERR and no element under a record that is not valid for it (under VRUNT also one whose X0 does not name the tile queue:
the model's choice, log 104). VECTOR_RUN_DONE makes the last results of the pass and ORs its flags, or aborts in the fc of the
fault that it has met; a pass without elements writes nothing (R107 to R113, R124, R129). -/
def Obligations.VectorChain : Prop :=
  (∀ (s : State) (c : Nat),
    (∀ k : Issue, Issues s c 0x80 (s.cell c).vector.loadFree k → (s.cell c).vector.load = none →
      (let a := ((k.reg s (bits k.insn 95 91)).toNat % 2 ^ 14 + bits k.insn 90 77 / 8 * 8) / 8 * 8
      ((k.pred = true → a + 128 ≤ 0x3000) →
        ∃ t, exec (.vcfg c) s = .next t ∧
          CellBecomes c
            { issued k (s.cell c) with vector := { (s.cell c).vector with
                load := some { issued := k.fc, addr := a, live := k.pred, got := [] }, loadFree := k.fc + 8 } }
            (k.start s) t) ∧
      (k.pred = true → 0x3000 < a + 128 → ∃ t, exec (.vcfg c) s = .next t ∧
        t.cells = ((k.start s).updCell c (issued k)).cells ∧
        ((s.part k.part).fault = none → Aborted k.part 0x030A (k.start s) t)))) ∧
    (∀ p l, (s.cell c).vector.load = some l → CellReaches s c p (l.issued + 7) →
      let x := s.cell c
      let r : BitVec 1024 := BitVec.ofNat 1024 (leNat (l.readTo x (l.issued + 7) 8).got)
      (∃ t, exec (.vcfgLoadDone c) s = .next t ∧
        CellBecomes c
          { x with vector := if l.live then { x.vector with load := none, shadow := r, shadowValid := cfgOk r }
                             else { x.vector with load := none } }
          (reach s p (l.issued + 7)) t) ∧
      (l.live = true → l.got = [] → (x.wroteFc < l.issued ∨ l.issued + 7 < x.wroteFc) →
        (l.readTo x (l.issued + 7) 8).got = x.scratch.readN 0x3000 l.addr 128)) ∧
    (∀ k : Issue, Issues s c 0x83 (s.cell c).vector.runFree k → (s.cell c).vector.run = none →
      let v := (s.cell c).vector
      (bits k.insn 90 89 = 0 → ∃ t, exec (.vstatRead c) s = .next t ∧
        WritesScalar k (bits k.insn 95 91) (v.captured ++ v.acc) (k.start s) t) ∧
      (bits k.insn 90 89 = 1 → ∃ t, exec (.vstatLast c) s = .next t ∧
        WritesScalar k (bits k.insn 95 91) (v.captured ++ v.last) (k.start s) t) ∧
      (bits k.insn 90 89 = 2 → ∃ t, exec (.vstatReadClear c) s = .next t ∧
        WritesScalar k (bits k.insn 95 91) (v.captured ++ v.acc)
          ((k.start s).updCell c (fun x =>
            { x with vector := { x.vector with acc := if k.pred then 0 else x.vector.acc } })) t))) ∧
  (∀ (s : State) (c : Nat),
    (∀ (k : Issue) (t0 : Option Tier0Error), chainIdle s c = true → chainRegsHere s c = true →
      let v := (s.cell c).vector
      let cfg := v.shadow
      let r := tier0Error c (k.pred && cfgReadsBank cfg) t0 ((k.start s).updCell c (issued k))
      let begins := fun (run : VectorRun) (ok : Bool) (n : Nat) =>
        run.issued = k.fc ∧ run.fold = k.fold ∧ run.tag = k.tag ∧ run.live = k.pred ∧
        run.done = k.fc + (cfgFill cfg + if ok then cfgSweeps cfg * ceilDiv n (cfgRate cfg) else 0) ∧
        run.n = (if ok then n else 0) ∧ run.regs = (List.range 32).map (fun n => k.reg s n) ∧
        run.pos = PassState.init (if ok then 0 else vCfgErr)
      let taken := fun (u : VectorUnit) (run : VectorRun) =>
        { u with run := some run, runFree := run.done, active := if k.pred then cfg else v.active,
                 activeValid := if k.pred then v.shadowValid else v.activeValid }
      (Issues s c 0x81 (chainFreeFrom s c) k →
        let n := if bit k.insn 81 then (k.reg s (bits k.insn 80 76)).toNat % 2 ^ 14 else bits k.insn 95 82
        ∃ t run, exec (.vrun ⟨c, t0⟩) s = .next t ∧
          CellBecomes c { r.cell c with vector := taken v run } r t ∧ begins run (v.shadowValid && cfgRunOk cfg) n ∧
          run.tile = false ∧ run.seg = (if cfgSeg cfg = 0 then n else cfgSeg cfg)) ∧
      (∀ e es, (s.cell c).matrix.tiles = e :: es → Issues s c 0x82 (max e.ready (chainFreeFrom s c)) k →
        let ok := v.shadowValid && xSrc (cfgX cfg 0) == 5 && xFmt (cfgX cfg 0) == entryVecFmt e.ofmt
        ∃ t run, exec (.vrunt ⟨c, t0⟩) s = .next t ∧ begins run ok (e.rows * e.cols) ∧
          run.tile = true ∧ run.seg = (if cfgSeg cfg = 0 then e.cols else cfgSeg cfg) ∧
          CellBecomes c
            { r.cell c with
              matrix := { (s.cell c).matrix with tiles := if k.pred then es else e :: es },
              vector := taken (if k.pred then { v with input := e, captured := e.status } else v) run } r t)) ∧
    (∀ p run q, (s.cell c).vector.run = some run →
      let y := (s.cell c).passUntil (run.done - 1) run.done
      y.vector.run = some q →
      (q.pos.abort = none → CellReaches s c p (run.done - 1) →
        let z := y.endPass (run.done - 1)
        ∃ t, exec (.vectorRunDone c) s = .next t ∧
          CellBecomes c
            (if run.live then { z with vector := { z.vector with last := q.pos.st, acc := z.vector.acc ||| q.pos.st } } else z)
            (reach s p (run.done - 1)) t ∧
          (t.cell c).vector.run = none ∧
          (run.n = 0 → run.pos = PassState.init run.pos.st →
            q.pos.st = run.pos.st ∧ ∀ m, (t.cell c).mem m = (s.cell c).mem m)) ∧
      (∀ f code, q.pos.abort = some (f, code) → CellReaches s c p f →
        ∃ t, exec (.vectorRunDone c) s = .next t ∧ (t.cell c).vector.run = none ∧
          ((s.part p).fault = none → ∃ e, (t.part p).fault = some e))))

/-- TOKEN_INJECT, FLIT_ARRIVE and LOOPBACK_TOKEN_DELIVERY complete: the outgoing token that is due first enters the mesh in its
lane's slot, one of more than 48 payload bytes as two flits, 4 fc apart in any dwell (the model's choice, log 99); the flit that
is due first is delivered, forwarded, or aborts with OV-0x09 where its route table has no byte for it; what a die bridge found
is counted, and a flit that it has corrupted aborts with ST-0x04 (the code is read from R12 and R156: log 96); a loopback token
enters its queue (R31, R32, R34, R36, R163, R423). A flit reaches the next router 2 fc after it is injected, 8 fc over a die
bridge, in the lane of its slot, and an engine beyond the package's edge 2 fc after (R12, R31, R32). -/
def Obligations.TokensInTheMesh : Prop :=
  (∀ (s : State) (c p : Nat),
    (∀ o f, firstOut (s.cell c).outbox = some o → CellReaches s c p o.due → o.tok.len ≤ 48 →
      crossLink c (routeOut o.route) o.due (.token o.tok) = some f →
      ∃ t, exec (.tokenInject c) s = .next t ∧ o.issued < o.due ∧ o.due ≤ o.issued + 4 ∧
        o.due % 4 = routeLane o.route % 4 ∧ OnlyPartCell p c (reach s p o.due) t ∧
        t.cell c = { s.cell c with outbox := (s.cell c).outbox.erase o } ∧
        (t.part p).flits = ((reach s p o.due).part p).flits ++ [f]) ∧
    (∀ o f g, firstOut (s.cell c).outbox = some o → CellReaches s c p o.due → 48 < o.tok.len →
      crossLink c (routeOut o.route) o.due .tokenFirst = some f →
      crossLink c (routeOut o.route) (o.due + 4) (.tokenSecond o.tok) = some g →
      ∃ t, exec (.tokenInject c) s = .next t ∧ OnlyPartCell p c (reach s p o.due) t ∧
        t.cell c = { s.cell c with outbox := (s.cell c).outbox.erase o } ∧
        (t.part p).flits = ((reach s p o.due).part p).flits ++ [f, g]) ∧
    (∀ f ecc, firstFlit (s.part p).flits = some f → PartReaches s p f.due →
      (let x := s.cell f.dest
      let key := 4 * f.side + f.lane
      let b := fwdByte (x.fold x.cur) key
      let taken := (reach s p f.due).updPart p (fun y => { y with flits := y.flits.erase f })
      let r := if f.bridge then countLink taken (cellDie f.dest) ecc else taken
      ∃ t, exec (.flitArrive ⟨p, ecc⟩) s = .next t ∧
        (f.bridge = true → ecc = .uncorrectable → t.cells = s.cells ∧
          ((s.part p).fault = none → Aborted p 0x0204 (reach s p f.due) t)) ∧
        (f.bridge = false ∨ ecc ≠ .uncorrectable →
          (f.toEngine = true →
            EngineBecomes f.dest
              { s.engine f.dest with
                inbox := (s.engine f.dest).inbox ++ [{ key := f.lane, fc := f.due, body := f.body }] } r t) ∧
          (f.toEngine = false → inPart r p f.dest = true → 128 ≤ b → b % 8 = 4 →
            (∀ tok, f.body = .token tok ∨ f.body = .tokenSecond tok → CellBecomes f.dest (x.enqueue tok (f.due + 1)) r t) ∧
            (f.body = .tokenFirst → t = r) ∧
            (isHead f.body = true ∨ isData f.body = true ∨ isChain f.body = true →
              CellBecomes f.dest { x with inbox := x.inbox ++ [{ key := key, fc := f.due, body := f.body }] } r t)) ∧
          (f.toEngine = false → inPart r p f.dest = true → 128 ≤ b → b % 8 < 4 →
            ∀ g, crossLink f.dest (b % 8) f.due f.body = some g →
              (t.part p).flits = ((reach s p f.due).part p).flits.erase f ++ [g] ∧ t.cells = s.cells) ∧
          (f.toEngine = false → inPart r p f.dest = false ∨ b < 128 ∨ 4 < b % 8 → t.cells = s.cells ∧
            ((s.part p).fault = none → Aborted p 0x0309 (reach s p f.due) t))))) ∧
    (∀ f tok rest, (s.cell c).loopback = (f, tok) :: rest → CellReaches s c p f →
      ∃ t, exec (.loopbackTokenDelivery c) s = .next t ∧
        CellBecomes c (({ s.cell c with loopback := rest } : Cell).enqueue tok f) (reach s p f) t)) ∧
  (∀ (c out i : Nat) (b : FlitBody) (f : Flit), crossLink c out i b = some f →
    f.body = b ∧ f.lane = i % 4 ∧ f.side = (out + 2) % 4 ∧
    (f.toEngine = false → f.due = (if c / 576 = f.dest / 576 then i + 2 else i + 8)) ∧ (f.toEngine = true → f.due = i + 2))

/-- TOKEN_MATCH completes: in one fc the head of each queue that has entered is taken, in port order. It goes to its place in the
slot of its fold and tag, or, for a new pair, in the lowest-numbered free slot; with no free slot the task aborts with OV-0x01,
a tag outside the arc gives OV-0x06, a place that is taken or not in the fold's mask OV-0x07, and a queue that still holds more
than 16 stops it too (R33, R37, R38, R41). -/
def Obligations.TokenMatching : Prop :=
  (∀ (s : State) (c p m : Nat), (s.cell c).matchAt = some m → CellReaches s c p m →
    (s.cell c).matchFrom ≤ m ∧
    (∀ port q qs, nth [] (s.cell c).queues port = q :: qs → m ≤ max (s.cell c).matchFrom (q.entered + 1)) ∧
    ∃ t, exec (.tokenMatch c) s = .next t ∧ (t.cell c).matchFrom = m + 1 ∧
      t = ((List.range 4).foldl (matchPort p c m) (reach s p m)).updCell c (fun x => { x with matchFrom := m + 1 })) ∧
  (∀ (s : State) (c : Nat), isCell c = true → (s.cell c).matchAt = none → exec (.tokenMatch c) s = .next s) ∧
  (∀ (r : State) (p c m port : Nat) (tok : Token) (rest : List Queued), (r.cell c).headAt m port = some (tok, rest) →
    (r.cell c).overflow m port = none →
    let x : Cell := { r.cell c with queues := setNth (r.cell c).queues port rest }
    (matchPort p c m r port).cells = (r.setCell c (x.matchToken m tok).1).cells ∧
    ((x.matchToken m tok).2 = none → matchPort p c m r port = r.setCell c (x.matchToken m tok).1) ∧
    (∀ n, (x.matchToken m tok).2 = some n → (r.part p).fault = none → Aborted p (0x0300 + n) r (matchPort p c m r port))) ∧
  (∀ (r : State) (p c m port : Nat) (tok : Token), (r.cell c).overflow m port = some tok → (r.part p).fault = none →
    ∃ f, ((matchPort p c m r port).part p).fault = some f) ∧
  (∀ (r : State) (p c m port : Nat), (r.cell c).headAt m port = none → (r.cell c).overflow m port = none →
    matchPort p c m r port = r) ∧
  (∀ (x : Cell) (m : Nat) (tok : Token),
    let mask := (x.fold tok.dfold.toNat).opMask
    let port := tok.dport.toNat
    let y := x.matchToken m tok
    (∀ n sl, x.findSlot tok.dfold.toNat tok.tag = some n → x.slots.find? n = some sl →
      ((mask.getLsbD port = false ∨ nth none sl.ops port ≠ none) → y.2 = some 0x07) ∧
      (mask.getLsbD port = true → nth none sl.ops port = none → y.2 = none ∧
        ∃ sl', y.1 = { x with slots := x.slots.insert n sl' } ∧ sl'.ops = setNth sl.ops port (some tok) ∧ sl'.fold = sl.fold ∧
          sl'.tag = sl.tag ∧
          (sl'.complete.isSome = true ↔ ∀ i, i < 4 → mask.getLsbD i = true → nth none sl'.ops i ≠ none))) ∧
    (x.findSlot tok.dfold.toNat tok.tag = none →
      (x.freeSlot m = none → y = (x, some 0x01)) ∧
      (∀ n, x.freeSlot m = some n → (∀ j, j < n → x.slotFree m j = false) ∧ x.slotFree m n = true ∧
        (tagArc (tok.tag :: x.tags m) = false → y = (x, some 0x06)) ∧
        (tagArc (tok.tag :: x.tags m) = true → mask.getLsbD port = false → y.2 = some 0x07) ∧
        (tagArc (tok.tag :: x.tags m) = true → mask.getLsbD port = true → y.2 = none ∧
          ∃ sl, y.1 = { x with slots := x.slots.insert n sl } ∧ sl.fold = tok.dfold.toNat ∧ sl.tag = tok.tag ∧ sl.firing = false ∧
            nth none sl.ops port = some tok ∧ (∀ i, i ≠ port → nth none sl.ops i = none) ∧
            (sl.complete.isSome = true ↔ ∀ i, i < 4 → mask.getLsbD i = true → i = port)))))

/-- FIRING_SELECT completes: the fold with an empty mask fires once, from its instruction 0 with tag 0; otherwise the
lowest-numbered eligible slot of the current fold is selected in the first fc in which one may be, if the dwell lasts; while a
firing or a switch is in progress, and with nothing to select, nothing happens (R38, R39, R46). DWELL_END and FOLD_SWITCH_DONE
complete: between entries of one fold the dwell goes over without a switch; otherwise the firing in progress is suspended and
the switch takes 4 fc, after which the next fold is current and its suspended firing goes on, or, where its mask is empty and it
has not fired, fires (R38, R45 to R49). -/
def Obligations.FiringAndFolds : Prop :=
  (∀ (s : State) (c p : Nat), isCell c = true →
    let x := s.cell c
    let begun := fun (tag : BitVec 16) (slot : Option Nat) (f : Nat) =>
      some { fold := x.cur, tag := tag, slot := slot, pc := 0, ready := f, waiting := false, strm := [] : Firing }
    (x.firing ≠ none ∨ x.switching ≠ none ∨ x.sched = [] → exec (.firingSelect c) s = .next s) ∧
    (x.firing = none → x.switching = none → x.sched ≠ [] →
      (x.emptyMask = true → CellReaches s c p x.dwellFrom →
        ∃ t, exec (.firingSelect c) s = .next t ∧ OnlyCell c (reach s p x.dwellFrom) t ∧
          t.cell c = { x with firing := begun 0 none x.dwellFrom, folds := (t.cell c).folds } ∧
          (t.cell c).fold x.cur = { x.fold x.cur with fired := true } ∧ ∀ g, g ≠ x.cur → (t.cell c).fold g = x.fold g) ∧
      (x.emptyMask = false → x.selectAt = none → exec (.firingSelect c) s = .next s) ∧
      (∀ f n, x.emptyMask = false → x.selectAt = some (f, n) →
        (x.dwellEnd ≤ f → exec (.firingSelect c) s = .next s) ∧
        (∀ sl, f < x.dwellEnd → x.slots.find? n = some sl → CellReaches s c p f →
          ∃ t, exec (.firingSelect c) s = .next t ∧
            CellBecomes c
              { x with firing := begun sl.tag (some n) f, slots := x.slots.insert n { sl with firing := true } } (reach s p f) t))) ∧
    (∀ f n, x.selectAt = some (f, n) → x.slots.sorted = true →
      x.freeFrom ≤ f ∧
      (∃ sl k, x.slots.find? n = some sl ∧ sl.fold = x.cur ∧ sl.firing = false ∧ sl.complete = some k ∧ k < f) ∧
      ∀ j sl k, x.slots.find? j = some sl → sl.fold = x.cur → sl.firing = false → sl.complete = some k →
        f ≤ max x.freeFrom (k + 1) ∧ (k < f → n ≤ j))) ∧
  (∀ (s : State) (c p : Nat), isCell c = true →
    let x := s.cell c
    ((x.sched = [] ∨ x.switching ≠ none) → exec (.dwellEnd c) s = .next s) ∧
    (x.sched ≠ [] → x.switching = none → CellReaches s c p x.dwellEnd →
      ∃ t, exec (.dwellEnd c) s = .next t ∧ OnlyCell c (reach s p x.dwellEnd) t ∧
        (bits (nth 0 x.sched x.nextPos) 31 29 = x.cur →
          t.cell c = { x with schedPos := x.nextPos, dwellFrom := x.dwellEnd }) ∧
        (bits (nth 0 x.sched x.nextPos) 31 29 ≠ x.cur →
          t.cell c = { x with switching := some (x.dwellEnd + 4), firing := none, folds := (t.cell c).folds } ∧
          (∀ f, x.firing = some f → ((t.cell c).fold f.fold) = { x.fold f.fold with susp := some f }) ∧
          ∀ g, (∀ f, x.firing = some f → f.fold ≠ g) → (t.cell c).fold g = x.fold g)) ∧
    (x.switching = none → exec (.foldSwitchDone c) s = .next s) ∧
    (∀ f, x.switching = some f → CellReaches s c p f →
      let y : Cell := { x with switching := none, schedPos := x.nextPos, dwellFrom := f }
      ∃ t, exec (.foldSwitchDone c) s = .next t ∧ OnlyCell c (reach s p f) t ∧
        t.cell c = { y with firing := (t.cell c).firing, folds := (t.cell c).folds } ∧
        (∀ g, g ≠ y.cur → (t.cell c).fold g = x.fold g) ∧
        (∀ g, (x.fold y.cur).susp = some g →
          (t.cell c).firing = some { g with ready := max g.ready f } ∧
          (t.cell c).fold y.cur = { x.fold y.cur with susp := none }) ∧
        ((x.fold y.cur).susp = none → y.emptyMask = true →
          (t.cell c).firing =
            some { fold := y.cur, tag := 0, slot := none, pc := 0, ready := f, waiting := false, strm := [] } ∧
          (t.cell c).fold y.cur = { x.fold y.cur with fired := true }) ∧
        ((x.fold y.cur).susp = none → y.emptyMask = false → t.cell c = y)) ∧
    x.nextPos = (if x.entry.getLsbD 28 = true ∨ x.sched.length ≤ x.schedPos + 1 then 0 else x.schedPos + 1))

/-- ENGINE_FETCH, ENGINE_WORD_ARRIVE and WORD_RELEASE complete: while the derived clocks run, the next word in order of release is
fetched, in slots that grant it, into free release-buffer space; the word in flight that was fetched first gets its data or its
mark, and what memory and culvert found is counted; a head or an unmarked word leaves in its release fc, and a word that is not
there, or is marked, aborts the task (R12, R143 to R145, R204, R216, R320, R423). -/
def Obligations.EngineIngress : Prop :=
  ∀ (s : State) (e p : Nat), isEngine e = true → partOfEngine s e = some p →
    (∀ f i w, (s.engine e).nextFetch = some (f, i, w) → derivedRun s = true → engineRuns s p = true →
      (s.engine e).buffer.length < 1024 → fetchAllowed s p (nth 0 (s.engine e).ingress i) w = true →
      fetchGranted s p e (nth 0 (s.engine e).ingress i) w = true →
      reachable s p (fetchStart (nth 0 (s.engine e).ingress i)) = true →
      ∃ t, exec (.engineFetch e) s = .next t ∧
        EngineBecomes e
          { s.engine e with
            fetched := Assoc.set (fun _ => 0) (s.engine e).fetched i (w + 1),
            buffer := (s.engine e).buffer ++ [{ entry := i, index := w, release := f, data := none, mark := none }] }
          (reach s p (fetchStart (nth 0 (s.engine e).ingress i))) t) ∧
    (∀ ecc culvert b, List.find? (fun b => b.data.isNone) (s.engine e).buffer = some b → derivedRun s = true →
      engineRuns s p = true →
      ∃ t, exec (.engineWordArrive e ⟨ecc, culvert⟩) s = .next t ∧
        let entry := nth 0 (s.engine e).ingress b.entry
        let m := wordFetch s p entry b.index (worse ecc culvert)
        let die := 0x4000 + 0x100 * cellDie (engineCell e)
        (t.engine e) = { s.engine e with buffer := fillFirst m.1 m.2 (s.engine e).buffer } ∧
        (∀ d, d ≠ e → t.engine d = s.engine d) ∧ t = { s with engines := t.engines, dict := t.dict } ∧
        (ecc = .good → culvert = .good → t.dict = s.dict) ∧
        (culvert = .corrected → od t die 0x22 = min (od s die 0x22 + 1) (2 ^ 32 - 1)) ∧
        (culvert = .uncorrectable → od t die 0x23 = min (od s die 0x23 + 1) (2 ^ 32 - 1)) ∧
        ((ecc = .uncorrectable ∨ culvert = .uncorrectable) → m.1 ≠ none)) ∧
    (∀ f i r, (s.engine e).nextRelease = some (f, i, r) → reachable s p f = true →
      ∃ t, exec (.wordRelease e) s = .next t ∧
        let sent := fun lane body =>
          (t.part p).flits = ((reach s p f).part p).flits ++
            [{ dest := engineCell e, toEngine := false, due := f + 2, side := engineSide e, lane := lane, bridge := false,
               body := body }]
        Assoc.get (fun _ => 0) (t.engine e).released i = Assoc.get (fun _ => 0) (s.engine e).released i + 1 ∧
        (∀ lane words, r = .head lane words → (t.engine e).buffer = (s.engine e).buffer ∧
          sent lane (.edgeHead (engineCell e) (BitVec.ofNat 8 (enFlown (nth 0 (s.engine e).ingress i)))
            (BitVec.ofNat 64 (64 * words)))) ∧
        (∀ lane index, r = .word lane index →
          let held := List.find? (fun b => b.entry == i && b.index == index) (s.engine e).buffer
          (t.engine e).buffer = (s.engine e).buffer.filter (fun b => !(b.entry == i && b.index == index)) ∧
          (∀ b bs, held = some b → b.data = some bs → b.mark = none →
            sent lane (if enChain (nth 0 (s.engine e).ingress i) then .chain bs else .flowData bs)) ∧
          ((held = none ∨ ∃ b, held = some b ∧ b.data = none) → (s.part p).fault = none →
            Aborted p 0x0203 (reach s p f) t) ∧
          (∀ b bs n, held = some b → b.data = some bs → b.mark = some n → n < 256 → (s.part p).fault = none →
            Aborted p (0x0200 + n) (reach s p f) t)))

/-- EGRESS_HEAD_ARRIVE, EGRESS_FLIT_ARRIVE and OUTFALL_WRITE complete: the head selects the entry of its flow number; a data flit
takes the next 64 bytes of the entry's walk into the outfall buffer, or aborts with the ST code that applies; the oldest run is
written to memory in a slot that grants it, while the derived clocks run and no breach has been raised, and what its culvert
found is counted; one that the culvert has corrupted is not written, and stops a running job (R12, R17, R137 to R139, R147,
R155, R156, R204). -/
def Obligations.EngineEgress : Prop :=
  ∀ (s : State) (e p : Nat), isEngine e = true → partOfEngine s e = some p →
    (∀ d rest tok lofs, takeFlit isHead (s.engine e).inbox = some (d, rest) → d.body = .flowHead tok lofs →
      reachable s p d.fc = true →
      ∃ t, exec (.egressHeadArrive e) s = .next t ∧
        (∀ i, (s.engine e).egressFor tok.flow.toNat = some i →
          EngineBecomes e
            { s.engine e with
              inbox := rest, selected := (s.engine e).selected.insert d.key (i, ceilDiv tok.aux.toNat 64) }
            (reach s p d.fc) t) ∧
        ((s.engine e).egressFor tok.flow.toNat = none →
          EngineBecomes e { s.engine e with inbox := rest } (reach s p d.fc) t)) ∧
    (∀ d rest bs i left, takeFlit isData (s.engine e).inbox = some (d, rest) → d.body = .flowData bs →
      ((s.engine e).inbox.takeWhile (fun y => !isData y.body)).any (fun y => y.key == d.key && isHead y.body) = false →
      (s.engine e).selected.find? d.key = some (i, left) → reachable s p d.fc = true →
      ∃ t, exec (.egressFlitArrive e) s = .next t ∧
        let r := (reach s p d.fc).updEngine e (fun x => { x with inbox := rest })
        let entry := nth 0 (s.engine e).egress i
        let pos := Assoc.get (fun _ => 0) (s.engine e).outWalk i
        (egressCode r p (r.engine e) entry pos = none →
          EngineBecomes e
            { r.engine e with
              outWalk := Assoc.set (fun _ => 0) (s.engine e).outWalk i (pos + 64),
              selected := if left ≤ 1 then (s.engine e).selected.erase d.key
                else (s.engine e).selected.insert d.key (i, left - 1),
              outfall := (s.engine e).outfall ++ outWords i (edgePieces r p entry pos) bs } r t) ∧
        (∀ n, egressCode r p (r.engine e) entry pos = some n → t.engines = r.engines ∧
          ((s.part p).fault = none → Aborted p (0x0200 + n) (reach s p d.fc) t))) ∧
    (∀ w ws culvert, (s.engine e).outfall = w :: ws → derivedRun s = true →
      let die := 0x4000 + 0x100 * cellDie (engineCell e)
      let r := countCulvert (s.updEngine e (fun x => { x with outfall := ws })) e culvert
      (bit s.breach 7 = true → exec (.outfallWrite e culvert) s = .next s) ∧
      (bit s.breach 7 = false → grantedOn s p e true [(w.addr, w.bytes.length)] = true →
        (culvert = .good → r = s.updEngine e (fun x => { x with outfall := ws })) ∧
        (culvert = .corrected → od r die 0x22 = min (od s die 0x22 + 1) (2 ^ 32 - 1)) ∧
        (culvert = .uncorrectable → od r die 0x23 = min (od s die 0x23 + 1) (2 ^ 32 - 1)) ∧
        ∃ t, exec (.outfallWrite e culvert) s = .next t ∧
          (culvert ≠ .uncorrectable → t = guardedWrite r p w.addr w.bytes) ∧
          (culvert = .uncorrectable → t.frames = s.frames ∧ t.plots = s.plots ∧ (t.engine e).outfall = ws ∧
            (engineRuns s p = true → Aborted p 0x0204 s t) ∧ (engineRuns s p = false → t = r))))

/-- SQ_DOORBELL and SQ_CFG_WRITE complete: a doorbell of the owner on an enabled queue that has space moves the tail, while the
block accepts, and those the keepers queue are marked as theirs; a descriptor that so becomes head of a queue of higher priority
than the running job's asks for its pre-emption under AUTOPRE, where none is under way, and is otherwise refused it with
JB-0x0B; another writer's doorbell is discarded with JB-0x0E and one that the queue cannot take with JB-0x0D, each counted and
logged; one that does not reach the partition has no effect; a guarded write sets SQ_CFG's defined bits and another has no
effect (R234, R277, R278, R289, R392). JOB_TAKE completes: the head of the queue that R281 chooses is prepared where it passes
the checks of R280; where it fails one, it is taken from its queue, and its refusal is posted at once with the next SEQ where no
earlier record waits and no job of its queue is running or drained. With no descriptor to take, or while none may be taken,
nothing changes (R280, R281, R284). The order of the checks of R280: a malformed descriptor gives JB-0x01 whatever else is wrong
with it, then one that did not come from the keepers while they serve gives JB-0x05, then a partition that is not READY JB-0x02,
another image JB-0x03, a LAUNCH count that has passed JB-0x04, and a strict job on an image with non-deterministic instructions
EN-0x0A (R234, R280). -/
def Obligations.QueuesAndJobTaking : Prop :=
  (∀ (s : State) (src p q tail : Nat) (v : Word), derivedRun s = true → isRequester src = true → isPart p = true → q < 4 →
    let k := (s.part p).sq q
    let more := (tail % 256 + 256 - k.tail) % 256
    let added := if keeperQueue s p q = true then (List.range more).map (fun i => (k.tail + i) % 256) else []
    let x := (s.part p).updSq q (fun k => { k with tail := tail % 256, byKeepers := k.byKeepers ++ added })
    (reachesPart s src p = true → shapeOf s p ≠ 0 →
      (ownsQueue s src p q = true → k.held + more ≤ 255 → k.enabled = true → s.boot.devState = 2 →
        ((k.held ≠ 0 ∨ more = 0 ∨ k.cfg.getLsbD 46 = false ∨ (s.part p).state ≠ .busy ∨
            (∀ j, (s.part p).job = some j → j.queue ≤ q)) →
          ∃ t, exec (.sqDoorbell src p q tail) s = .next t ∧ PartBecomes p x s t) ∧
        (∀ j, k.held = 0 → more ≠ 0 → k.cfg.getLsbD 46 = true → (s.part p).state = .busy → (s.part p).job = some j →
          q < j.queue →
          ∃ t, exec (.sqDoorbell src p q tail) s = .next t ∧
            PartBecomes p
              (if (s.part p).drained = none ∧ (s.part p).preempt = none ∧ (s.part p).freezing = none then
                { x with preempt := some { cheap := k.cfg.getLsbD 45, since := (s.part p).fc, expired := false },
                         preVoid := false, fellBack := false }
              else { x with preCode := 0x0B }) s t)) ∧
      (∀ n, (ownsQueue s src p q = false ∧ n = 0x0E ∨
          ownsQueue s src p q = true ∧ (255 < k.held + more ∨ k.enabled = false ∨ s.boot.devState ≠ 2) ∧ n = 0x0D) →
        ∃ t e, exec (.sqDoorbell src p q tail) s = .next t ∧ t.parts = s.parts ∧
          od t 0x1800 0x11 = min (od s 0x1800 0x11 + 1) (2 ^ 32 - 1) ∧
          t.events.find? (od s 0x1E00 0x01 % 4096) = some e ∧ e.code = BitVec.ofNat 16 (0x1400 + n) ∧ e.part = some p)) ∧
    ((reachesPart s src p = false ∨ shapeOf s p = 0) → exec (.sqDoorbell src p q tail) s = .next s) ∧
    (mayGuard s src p = true → (k.enabled = false ∨ v.getLsbD 63 = true) →
      ∃ t, exec (.sqCfgWrite src p q v) s = .next t ∧
        PartBecomes p ((s.part p).updSq q (fun k => { k with cfg := v &&& 0x87FFE00000000000 })) s t) ∧
    (mayGuard s src p = true →
      ∃ t, exec (.sqCfgWrite src p q v) s = .next t ∧ ((t.part p).sq q).cfg = v &&& 0x87FFE00000000000) ∧
    (mayGuard s src p = false → exec (.sqCfgWrite src p q v) s = .next s)) ∧
  (∀ (s : State) (p : Nat), derivedRun s = true → isPart p = true →
    (∀ q, mayTake s p = true → takeQueue s p = some q →
      (takeCode s p q (headDesc (s.part p) q) = 0 →
        ∃ t, exec (.jobTake p) s = .next t ∧
          PartBecomes p { s.part p with prepared := some (q, headDesc (s.part p) q) } s t) ∧
      (takeCode s p q (headDesc (s.part p) q) ≠ 0 →
        ∃ t, exec (.jobTake p) s = .next t ∧ ((t.part p).sq q).head = (((s.part p).sq q).head + 1) % 256 ∧
          (t.part p).prepared = none ∧ (t.part p).state = (s.part p).state ∧ (t.part p).job = (s.part p).job ∧
          ((s.part p).late = [] → queueBusy (s.part p) q = false → recordOwner s p q ≠ keeperOwner →
            (t.part p).seq = (s.part p).seq + 1 ∧ (t.part p).cq.tail = ((s.part p).cq.tail + 1) % 1024))) ∧
    ((mayTake s p = false ∨ takeQueue s p = none) → exec (.jobTake p) s = .next s)) ∧
  (∀ (s : State) (p q : Nat) (d : BitVec 1024),
    ((descVer d ≠ 1 ∨ descPart d ≠ p ∨ descDest d = 3 ∨ bits d 156 152 ≠ 0 ∨ bits d 143 0 ≠ 0) → takeCode s p q d = 0x0401) ∧
    (takeCode s p q d ≠ 0x0401 → serving s p = true → headByKeepers (s.part p) q = false → takeCode s p q d = 0x0405) ∧
    (takeCode s p q d = 0 → (s.part p).state = .ready ∧ descImage d = (s.part p).ctlImage.toNat ∧
      (descLaunch d = 0 ∨ s.counter.gt ≤ descLaunch d) ∧ (strictJob s p d = true → ndSummary (s.part p) = 0)) ∧
    (takeCode s p q d = 0x0402 → (s.part p).state ≠ .ready) ∧
    (takeCode s p q d = 0x0403 → (s.part p).state = .ready ∧ descImage d ≠ (s.part p).ctlImage.toNat) ∧
    (takeCode s p q d = 0x0404 → descLaunch d ≠ 0 ∧ descLaunch d < s.counter.gt) ∧
    (takeCode s p q d = 0x010A → strictJob s p d = true ∧ ndSummary (s.part p) ≠ 0))

/-- JOB_LAUNCH completes: at a pace step a prepared descriptor whose time has come launches; the partition is BUSY at fabric cycle 0
with the descriptor's job, whose digests, first gt and energy are those of the launch, and its queue's head advances. One that
could not launch by its time, that has become strict since it was taken, or that a torus check refuses, is taken from its queue
and its refusal posted; a commit that is due goes first (R191, R225, R229, R230, R282, R285, R324, R342). -/
def Obligations.JobLaunching : Prop :=
  ∀ (s : State) (p q : Nat) (d : BitVec 1024) (im : Image), isPart p = true → (s.part p).prepared = some (q, d) →
    (s.part p).image = some im → (s.part p).state = .ready → (s.part p).restoring = false →
    (s.part p).recheck = false → clocksRun s = true → s.clocks.edge = 0 → descLaunch d ≤ s.counter.gt →
    partBlocked s p = false → (planObject s p = none ∨ blockHeld s p [4] = false) →
    ((descLaunch d = 0 ∨ s.counter.gt ≤ descLaunch d + 1) → commitDue s p = false →
      (strictJob s p d = true → ndSummary (s.part p) = 0) → torusCode s p = 0 →
      ∃ t j, exec (.jobLaunch p) s = .next t ∧ (t.part p).state = .busy ∧ (t.part p).job = some j ∧ (t.part p).fc = 0 ∧
        (t.part p).first = true ∧ (t.part p).fault = none ∧ (t.part p).syncOps = [] ∧ (t.part p).flits = [] ∧
        (t.part p).hold = none ∧ (t.part p).transfers = [] ∧ (t.part p).preempt = none ∧
        (t.part p).drained = (s.part p).drained.map (fun d => { d with overtaken := true }) ∧
        (t.part p).prepared = none ∧ ((t.part p).sq q).head = (((s.part p).sq q).head + 1) % 256 ∧
        j.desc = d ∧ j.queue = q ∧ j.owner = recordOwner s p q ∧ j.startGt = s.counter.gt ∧ j.held = 0 ∧ j.ndops = 0 ∧
        j.preempts = 0 ∧ j.energy0 = partEnergy s p ∧
        j.weights = weightsDigest s p im ∧ j.prov = provenance im (weightsDigest s p im) d ∧ j.plan = planObject s p ∧
        t.sync = s.sync ∧ t.frames = s.frames ∧ t.engines = s.engines) ∧
    ((descLaunch d = 0 ∨ s.counter.gt ≤ descLaunch d + 1) → commitDue s p = true → exec (.jobLaunch p) s = .next s) ∧
    ((descLaunch d ≠ 0 ∧ descLaunch d + 1 < s.counter.gt ∨
        commitDue s p = false ∧ (strictJob s p d = true ∧ ndSummary (s.part p) ≠ 0 ∨ torusCode s p ≠ 0)) →
      ∃ t, exec (.jobLaunch p) s = .next t ∧ (t.part p).state = .ready ∧ (t.part p).job = (s.part p).job ∧
        (t.part p).prepared = none ∧ ((t.part p).sq q).head = (((s.part p).sq q).head + 1) % 256)

/-- JOB_END completes: a job whose partition is quiescent and holds no partial operand set ends with success, and the launch state
is restored in READY; a partial operand set that is left ends it with JB-0x07 in HALTED, and so does a fault whose egress is
written, with its own code (R59, R283, R286). FC_LIMIT_REACHED completes: the job whose FCLIMIT is reached aborts with JB-0x06
in that fc. LAUNCH_STATE_RESTORE_DONE completes: the restore is over; a partition that was FILLING, DRAINING or HALTED is READY,
or CHECKING where its check is to be repeated, or OFF where its disable was waiting, and one in another state stays in it (R167,
R168, R170, R171, R283, R286, R288). -/
def Obligations.JobEnding : Prop :=
  (∀ (s : State) (p : Nat) (j : Job), derivedRun s = true → isPart p = true → (s.part p).job = some j →
    ((s.part p).fault = none → jobRuns (s.part p) = true → (s.part p).hold = none → quiescent s p = true →
      reachable s p (quiescentAt s p) = true →
      (strandedSlot (reach s p (quiescentAt s p)) p = none →
        (s.part p).disabling = false → (s.part p).recheck = false → (s.part p).drained = none → (s.part p).late = [] →
        j.owner ≠ keeperOwner →
        ∃ t, exec (.jobEnd p) s = .next t ∧ (t.part p).state = .ready ∧ (t.part p).job = none ∧
          (t.part p).restoring = true ∧ (t.part p).seq = (s.part p).seq + 1 ∧
          (t.part p).cq.tail = ((s.part p).cq.tail + 1) % 1024) ∧
      (strandedSlot (reach s p (quiescentAt s p)) p ≠ none →
        ∃ t, exec (.jobEnd p) s = .next t ∧ (t.part p).state = .halted ∧ (t.part p).job = none ∧
          (t.part p).fault = none ∧ (t.part p).stopped = false)) ∧
    (∀ f, (s.part p).fault = some f → outfallEmpty s p = true →
      ∃ t, exec (.jobEnd p) s = .next t ∧ (t.part p).state = .halted ∧ (t.part p).job = none ∧
        (t.part p).fault = none ∧ (t.part p).stopped = f.stop) ∧
    (∀ f, (s.part p).fault = some f → outfallEmpty s p = false → exec (.jobEnd p) s = .next s)) ∧
  (∀ (s : State) (p : Nat), isPart p = true →
    (∀ j, (s.part p).job = some j → descLimit j.desc ≠ 0 → (s.part p).fc < descLimit j.desc → (s.part p).fault = none →
      reachable s p (descLimit j.desc - 1) = true →
      ∃ t f, exec (.fcLimitReached p) s = .next t ∧ (t.part p).fault = some f ∧ f.code = 0x0406 ∧
        f.fc = descLimit j.desc - 1 ∧ f.stop = false ∧ t.cells = s.cells ∧ t.sync = s.sync) ∧
    (∀ im, derivedRun s = true → (s.part p).restoring = true → (s.part p).image = some im →
      ∃ t, exec (.launchStateRestoreDone p) s = .next t ∧ (t.part p).restoring = false ∧
        (((s.part p).state = .filling ∨ (s.part p).state = .draining ∨ (s.part p).state = .halted) →
          ((s.part p).disabling = true → (t.part p).state = .off ∧ (t.part p).image = none) ∧
          ((s.part p).disabling = false →
            (t.part p).state = (if (s.part p).recheck = true then .checking else .ready) ∧ (t.part p).image = some im)) ∧
        ((s.part p).state ≠ .filling → (s.part p).state ≠ .draining → (s.part p).state ≠ .halted →
          PartBecomes p { s.part p with restoring := false } (launchState s p (readImage s p im.handle)) t)) ∧
    ((s.part p).restoring = false → exec (.launchStateRestoreDone p) s = .next s))

/-- PREEMPT_REQUEST, FREEZE and CHEAP_POINT_TIMEOUT complete: a guarded write keeps GO and MODE, and with GO a request on a busy
partition with no drained job waits for its freeze and another is refused with JB-0x0B in PREEMPT_STAT; a freeze takes the
partition to DRAINING at its present fc, at a cheap point of every cell in MODE 1; the wait for one ends after CHEAP_FC cycles
(R268, R288 to R291). DRAIN_DONE completes: the drained job holds the frozen fc and the saved cells, sync objects, flits and
operations; the partition restores its launch state. REFILL_START completes: a drained job, whose load list is filled again
where another job has launched since, is BUSY at its frozen fc, its fabric still frozen; uncorrectable data of the drain area
stops it with JB-0x0C, and lost data of the load list refuses the image as a fill does (the model's choice, log 31).
REFILL_RESUME completes: the job goes on at the next cycle (R287, R291, R293). -/
def Obligations.Preemption : Prop :=
  (∀ (s : State) (src p : Nat) (v : Word), isPart p = true →
    (derivedRun s = true → isRequester src = true → mayGuard s src p = true →
      ∃ t, exec (.preemptRequest src p v) s = .next t ∧
        PartBecomes p
          (if v.getLsbD 0 = false then { s.part p with preReg := v.setWidth 2 }
          else if (s.part p).state = .busy ∧ (s.part p).drained = none ∧ (s.part p).preempt = none ∧
              (s.part p).freezing = none then
            { s.part p with preReg := v.setWidth 2,
                            preempt := some { cheap := v.getLsbD 1, since := (s.part p).fc, expired := false },
                            preVoid := false, fellBack := false }
          else { s.part p with preReg := v.setWidth 2, preCode := 0x0B }) s t) ∧
    (isRequester src = true → mayGuard s src p = false → exec (.preemptRequest src p v) s = .next s) ∧
    (∀ r, derivedRun s = true → (s.part p).preempt = some r → jobRuns (s.part p) = true → (s.part p).fault = none →
      (quiescent s p = false ∨ (s.part p).hold ≠ none) →
      ((r.cheap = false ∨ r.expired = true ∨ allCheap s p = true) →
        ∃ t, exec (.freeze p) s = .next t ∧ (t.part p).state = .draining ∧ (t.part p).preempt = none ∧
          (t.part p).freezing = some { fc := (s.part p).fc, cheap := r.cheap && !r.expired } ∧
          (t.part p).freezeFc = (s.part p).fc ∧ (t.part p).fellBack = r.expired ∧
          t.cells = s.cells ∧ t.sync = s.sync ∧ t.engines = s.engines) ∧
      (r.cheap = true → r.expired = false → allCheap s p = false → exec (.freeze p) s = .next s)) ∧
    (∀ r, (s.part p).preempt = some r → r.cheap = true → r.expired = false →
      (let f := r.since + odForce s (0x2000 + 0x100 * p) 0x04 0 + 1
      reachable s p f = true →
      ∃ t, exec (.cheapPointTimeout p) s = .next t ∧
        PartBecomes p { (reach s p f).part p with preempt := some { r with expired := true }, fellBack := true }
          (reach s p f) t))) ∧
  (∀ (s : State) (p : Nat), isPart p = true →
    (∀ j f, derivedRun s = true → (s.part p).job = some j → (s.part p).freezing = some f → (s.part p).state = .draining →
      (s.part p).fault = none → outfallEmpty s p = true →
      ∃ t d, exec (.drainDone p) s = .next t ∧ (t.part p).drained = some d ∧ (t.part p).job = none ∧
        (t.part p).restoring = true ∧ d.fc = f.fc ∧ d.cheap = f.cheap ∧ d.job = { j with preempts := j.preempts + 1 } ∧
        d.flits = (s.part p).flits ∧ d.syncOps = (s.part p).syncOps ∧ d.overtaken = false ∧ d.discard = false ∧
        d.cells = (partListed s p).map (fun c => (c, (s.cell c).matrixTo f.fc)) ∧
        od t (0x2000 + 0x100 * p) 0x09 = f.fc) ∧
    (∀ d im ecc, derivedRun s = true → (s.part p).drained = some d → (s.part p).image = some im → mayRefill s p = true →
      d.discard = false →
      (let fill := if d.overtaken = true then fillTier0 p none (readImage s p im.handle).loads s else (s, none)
      (fill.2 = none →
        ∃ t, exec (.refillStart p ecc) s = .next t ∧ (t.part p).state = .busy ∧ (t.part p).job = some d.job ∧
          (t.part p).drained = none ∧ (t.part p).fc = d.fc ∧ (t.part p).refilling = true ∧ (t.part p).flits = d.flits ∧
          (t.part p).syncOps = d.syncOps ∧ (t.part p).hold = d.hold ∧
          (ecc ≠ .uncorrectable → (t.part p).fault = none) ∧
          (ecc = .uncorrectable → ∃ f, (t.part p).fault = some f ∧ f.code = 0x040C ∧ f.stop = false)) ∧
      (fill.2 ≠ none →
        ∃ t, exec (.refillStart p ecc) s = .next t ∧ (t.part p).state = .refused ∧ (t.part p).code = 0x18 ∧
          (t.part p).stepNo = 16 ∧ (t.part p).drained = none ∧ (t.part p).image = none))) ∧
    ((s.part p).state = .busy → (s.part p).refilling = true → (s.part p).fault = none → clocksRun s = true →
      bit s.breach 7 = false → (s.part p).first = true → (s.part p).freezing = none →
      ∃ t, exec (.refillResume p) s = .next t ∧ (t.part p).refilling = false ∧
        (t.part p).fc = (if (s.part p).hold = none then (s.part p).fc + 1 else (s.part p).fc) ∧ t.cells = s.cells))

/-- STOP_ACK completes: a guarded write of 1 to a partition that a task abort has HALTED begins the restore of its launch state, or
with ENABLE = 0 pending takes it to OFF; a serving step whose task abort this was, and that has not been retried, is put in the
queue again under its next step count; a second one during the restore has no effect; otherwise it is discarded and logged with
the writer's owner id. A write of 0, or one not guarded, has no effect (R167, R239, R270, R286). PART_CTL_ENABLE and
PART_CTL_DISABLE complete: while the block accepts, a guarded enable of an OFF, READY or REFUSED partition enters LOADING with
its image, and in any other state is refused with EN-0x10; a disable takes it to OFF, its tier-0 banks undefined where a load,
check or fill was under way, or with a job waits for its end; other writes have no effect (R166, R167, R392). IMAGE_LOAD_DONE,
CHECK_VERDICT, TIER0_FILL_DONE and SLUICE_RECHECK complete: a loaded image is digested and checked; a pass of every step enters
FILLING, and a failure REFUSED with the first failing step, its code and its locator; a fill whose data is whole restores the
launch state, and one that reads poisoned or uncorrectable data refuses the image with EN-0x18 and step 16; a repeated check
that passes returns to READY, and one that fails refuses the image and discards a drained job (R158, R165, R166, R168, R170,
R174, R175). -/
def Obligations.PartitionControl : Prop :=
  (∀ (s : State) (src p : Nat) (v : Word), derivedRun s = true → isRequester src = true → isPart p = true →
    (v.getLsbD 0 = true → mayGuard s src p = true →
      ((s.part p).state = .halted → (s.part p).stopped = false → (s.part p).restoring = false →
        (∀ k, (s.part p).serving.step = some k → k.outcome ≠ some stAbort ∨ k.retry = true) →
        ∃ t, exec (.stopAck src p v) s = .next t ∧
          ((s.part p).disabling = false → PartBecomes p { s.part p with restoring := true } s t) ∧
          ((s.part p).disabling = true → (t.part p).state = .off ∧ (t.part p).image = none)) ∧
      (∀ k, (s.part p).state = .halted → (s.part p).stopped = false → (s.part p).restoring = false →
        (s.part p).disabling = false → (s.part p).serving.step = some k → k.outcome = some stAbort → k.retry = false →
        exec (.stopAck src p v) s =
          .next (submitStep (s.updPart p (fun x => { x with restoring := true })) p
            { k with retry := true, outcome := none })) ∧
      ((s.part p).state = .halted → (s.part p).stopped = false → (s.part p).restoring = true →
        exec (.stopAck src p v) s = .next s) ∧
      (((s.part p).state ≠ .halted ∨ (s.part p).stopped = true) →
        ∃ t e, exec (.stopAck src p v) s = .next t ∧ t.parts = s.parts ∧ t.cells = s.cells ∧
          t.events.find? (od s 0x1E00 0x01 % 4096) = some e ∧ e.part = some p ∧ e.detail = BitVec.ofNat 95 src)) ∧
    ((v.getLsbD 0 = false ∨ mayGuard s src p = false) → exec (.stopAck src p v) s = .next s)) ∧
  (∀ (s : State) (src p : Nat) (image : BitVec 16), derivedRun s = true → isRequester src = true → isPart p = true →
    (mayGuard s src p = true → s.boot.devState = 2 →
      (((s.part p).state = .off ∨ (s.part p).state = .ready ∨ (s.part p).state = .refused) →
        ∃ t, exec (.partCtlEnable src p image) s = .next t ∧ (t.part p).state = .loading ∧ (t.part p).ctlImage = image ∧
          (t.part p).enable = true ∧ (t.part p).code = 0 ∧ (t.part p).stepNo = 0 ∧ (t.part p).image = none ∧
          t.cells = s.cells ∧ t.frames = s.frames) ∧
      (((s.part p).state = .busy ∨ (s.part p).state = .loading ∨ (s.part p).state = .checking ∨
          (s.part p).state = .filling ∨ (s.part p).state = .draining ∨ (s.part p).state = .halted) →
        ∃ t, exec (.partCtlEnable src p image) s = .next t ∧ t.part p = { s.part p with code := 0x10 } ∧
          od t 0x1900 0x24 0x10 = min (od s 0x1900 0x24 0x10 + 1) (2 ^ 32 - 1) ∧ t.cells = s.cells) ∧
      (((s.part p).state = .ready ∨ (s.part p).state = .refused) →
        ∃ t, exec (.partCtlDisable src p) s = .next t ∧ (t.part p).state = .off ∧ (t.part p).enable = false ∧
          (t.part p).image = none ∧ t.cells = s.cells) ∧
      ((s.part p).state = .off → ∃ t, exec (.partCtlDisable src p) s = .next t ∧ t = s) ∧
      (((s.part p).state = .loading ∨ (s.part p).state = .checking ∨ (s.part p).state = .filling) →
        ∃ t, exec (.partCtlDisable src p) s = .next t ∧ (t.part p).state = .off ∧ (t.part p).enable = false ∧
          (t.part p).image = none ∧
          (∀ c, c ∈ partCells s p → ∃ n, (t.cell c) = { s.cell c with tier0 := Mem.undef n }) ∧
          (∀ c, c ∉ partCells s p → t.cell c = s.cell c)) ∧
      (((s.part p).state = .busy ∨ (s.part p).state = .draining ∨ (s.part p).state = .halted) →
        ∃ t, exec (.partCtlDisable src p) s = .next t ∧ OnlyPart p s t ∧ (t.part p).disabling = true ∧
          (t.part p).enable = false ∧ (t.part p).state = (s.part p).state ∧ (t.part p).job = (s.part p).job)) ∧
    ((mayGuard s src p = false ∨ s.boot.devState ≠ 2) →
      exec (.partCtlEnable src p image) s = .next s ∧ exec (.partCtlDisable src p) s = .next s)) ∧
  (∀ (s : State) (p micros addr : Nat) (ecc : EccResult) (im : Image), derivedRun s = true → isPart p = true →
    ((s.part p).state = .loading → partBlocked s p = false →
      ∃ t i, exec (.imageLoadDone p) s = .next t ∧ (t.part p).state = .checking ∧ (t.part p).image = some i ∧
        i.handle = (s.part p).ctlImage.toNat ∧ i.header = objRead s p i.handle 0 4096 ∧
        (let n := imageLength s p i.handle
        let bs := objRead s p i.handle 0 n
        i.digest = Crypto.sha256 (bs.take 32 ++ List.replicate (min 32 (n - 32)) 0 ++ bs.drop 64)) ∧
        t.frames = s.frames) ∧
    ((s.part p).image = some im → (s.part p).state = .checking → (s.part p).recheck = false →
      (let r := odSet s 0x1900 0x26 0 (max (od s 0x1900 0x26) (min micros (2 ^ 32 - 1)))
      (checkImage r p im = none → ∃ t, exec (.checkVerdict p micros) s = .next t ∧ (t.part p).state = .filling ∧
        (t.part p).image = some im ∧ t.cells = s.cells) ∧
      (∀ step f, checkImage r p im = some (step, f) → ∃ t, exec (.checkVerdict p micros) s = .next t ∧
        (t.part p).state = .refused ∧ (t.part p).code = BitVec.ofNat 8 f.code ∧
        (t.part p).stepNo = BitVec.ofNat 5 step ∧ (t.part p).lkind = BitVec.ofNat 2 f.kind ∧
        (t.part p).lunit = BitVec.ofNat 12 f.unit ∧ (t.part p).image = none ∧ t.cells = s.cells))) ∧
    ((s.part p).image = some im → (s.part p).state = .filling → (s.part p).restoring = false →
      (let r := countPlotEcc (odSet s 0x1900 0x27 0 (max (od s 0x1900 0x27) (min micros (2 ^ 32 - 1)))) p (addr / 2097152)
        (addr % 2097152) ecc
      let fill := fillTier0 p (if ecc = .uncorrectable then some addr else none) (readImage r p im.handle).loads r
      (fill.2 = none →
        ∃ t, exec (.tier0FillDone p ⟨micros, addr, ecc⟩) s = .next t ∧
          PartBecomes p { fill.1.part p with restoring := true } fill.1 t) ∧
      (∀ c, fill.2 = some c →
        ∃ t, exec (.tier0FillDone p ⟨micros, addr, ecc⟩) s = .next t ∧ (t.part p).state = .refused ∧ (t.part p).code = 0x18 ∧
          (t.part p).stepNo = 16 ∧ (t.part p).lkind = 1 ∧ (t.part p).lunit = BitVec.ofNat 12 c ∧
          (t.part p).image = none))) ∧
    ((s.part p).image = some im → (s.part p).state = .checking → (s.part p).recheck = true →
      (recheckImage s p im = none →
        ∃ t, exec (.sluiceRecheck p) s = .next t ∧ (t.part p).state = .ready ∧ (t.part p).recheck = false ∧
          (t.part p).image = some im ∧ t.cells = s.cells) ∧
      (∀ step f, recheckImage s p im = some (step, f) →
        ∃ t, exec (.sluiceRecheck p) s = .next t ∧ (t.part p).state = .refused ∧ (t.part p).recheck = false ∧
          (t.part p).code = BitVec.ofNat 8 f.code ∧ (t.part p).stepNo = BitVec.ofNat 5 step ∧ (t.part p).drained = none ∧
          (t.part p).image = none)))

/-- MC_DOORBELL completes: a requester that reaches a formed partition moves the tail of its command ring; one that does not has no
effect (R192, R194). A command that cannot start is taken and its refusal stands in the completion ring at its tail, with its
CTX, OP and object; one with a reserved field gets MM-0x10 whatever else is wrong with it; after a PLACE or a MOVE the keepers
go on with what waited for it (R193, R194, R209, R253). ALLOC, FREE, MOVE, CLEAN, PLACE, INGEST and DIGEST complete where they
may be taken, wait for nothing and are not refused: an ALLOC takes free plots with frames in its HOME for the record it will
commit; a FREE, PLACE or DIGEST starts, a PLACE with its TTL written; a MOVE begins the copy of each plot that is elsewhere; a
CLEAN works on the plots with DIRTY sectors; an INGEST joins its queue pair, and one of no bytes that is alone there ends at
once; after a PLACE or a MOVE the keepers go on with what waited for it (R189, R193, R195, R196, R210, R254). -/
def Obligations.MemoryCommands : Prop :=
  (∀ (s : State) (p : Nat), derivedRun s = true → isPart p = true → (s.part p).serving.cmds = [] →
    (∀ src tail, isRequester src = true →
      (reachesPart s src p = true → shapeOf s p ≠ 0 →
        ∃ t, exec (.mcDoorbell src p tail) s = .next t ∧ (t.part p).mc.tail = tail % 256 ∧
          (t.part p).mcRuns = (s.part p).mcRuns ∧ t.objects = s.objects ∧ t.plots = s.plots ∧ t.frames = s.frames) ∧
      ((reachesPart s src p = false ∨ shapeOf s p = 0) → exec (.mcDoorbell src p tail) s = .next s)) ∧
    (∀ c code, mcHead (s.part p) = some c → mcMayTake s p = true → (s.part p).mc.tail = ((s.part p).mc.head + 1) % 256 →
      (mcOp c = 6 → resumeIngests s p = s) →
      (let k := headMark (s.part p) c
      (mcReserved c = true ∧ code = 0x10 ∨
        mcReserved c = false ∧ code ≠ 0 ∧
          (mcOp c = 1 ∧ allocRefusal p s k = code ∨ mcOp c = 2 ∧ freeWait p s k = false ∧ freeRefusal p s k = code ∨
            mcOp c = 3 ∧ rangeWait p s k = false ∧ moveRefusal p s k = code ∨
            mcOp c = 4 ∧ rangeWait p s k = false ∧ cleanRefusal p s k = code ∨
            mcOp c = 5 ∧ placeCommandRefusal p s k = code ∨
            mcOp c = 6 ∧ s.episodes.any (fun e => e.level == 6 && e.target == 0x5000 + qpPort (qpCtx s (mcQp k))) = false ∧
              ingestRefusal p s k = code ∨
            mcOp c = 7 ∧ digestCommandRefusal p s k = code))) →
      ∀ i ∈ [(1, Instr.alloc p), (2, .free p), (3, .move p), (4, .clean p), (5, .place p), (6, .ingest p), (7, .digest p)],
        mcOp c = i.1 → ∃ t,
          exec i.2 s = .next (if mcOp c = 3 ∨ mcOp c = 5 then keepersGoOn p t else t) ∧
          ringNat (t.part p) (mccOfs + 16 * (s.part p).mcc.tail) 2 =
            mcCtx c * 2 ^ 64 + code % 256 * 2 ^ 56 + mcOp c * 2 ^ 48 + mcObj c * 2 ^ 32 ∧
          (t.part p).mcc.tail = ((s.part p).mcc.tail + 1) % 256 ∧ (t.part p).mc.head = ((s.part p).mc.head + 1) % 256 ∧
          (t.part p).mcRuns = (s.part p).mcRuns ∧ t.objects = s.objects ∧ t.plots = s.plots ∧ t.frames = s.frames)) ∧
  (∀ (s : State) (p : Nat) (c : BitVec 512), derivedRun s = true → isPart p = true → mcHead (s.part p) = some c →
    mcMayTake s p = true → mcReserved c = false →
    let k := headMark (s.part p) c
    let gains := fun (t : State) (r : McRun) => (t.part p).mcRuns = (s.part p).mcRuns ++ [r] ∧ r.cmd = k ∧ r.status = 0
    (mcOp c = 1 → allocRefusal p s k = 0 →
      ∃ t r o, exec (.alloc p) s = .next t ∧ gains t r ∧ r.record = some o ∧ allocNumber s p k = some r.obj ∧
        plotsFree s p (mcCount k) o.vbase = true ∧ o.nplots = mcCount k ∧ o.ttl = mcTtl k ∧ placeBits o = mcPlace k ∧
        o.rvalid = false ∧ o.expiring = false ∧ r.todo = objPlots o ∧ t.objects = s.objects ∧ t.frames = s.frames ∧
        (∀ v, o.vbase ≤ v → v < o.vbase + o.nplots → ∃ x, t.plotEntry p v = some x ∧ x.obj = r.obj ∧
          x.cur.toNat = nbits (mcPlace k) 1 0 ∧ x.has x.cur.toNat = true ∧ x.copy = false) ∧
        (∀ v, v < o.vbase ∨ o.vbase + o.nplots ≤ v → t.plotEntry p v = s.plotEntry p v)) ∧
    (mcOp c = 2 → freeWait p s k = false → freeRefusal p s k = 0 →
      ∃ t r, exec (.free p) s = .next t ∧ gains t r ∧ r.obj = mcObj k ∧ t.objects = s.objects ∧ t.plots = s.plots) ∧
    (mcOp c = 3 → rangeWait p s k = false → moveRefusal p s k = 0 →
      ∃ t, exec (.move p) s = .next (keepersGoOn p t) ∧ t.objects = s.objects ∧ t.frames = s.frames ∧
        ∀ o v x, objAny s p (mcObj k) = some o → v ∈ rangePlots o k → s.plotEntry p v = some x →
          x.cur.toNat ≠ mcTier k → x.copy = false →
          ∃ r y, gains t r ∧ v ∈ r.todo ∧ v ∈ r.awaiting ∧ t.plotEntry p v = some y ∧ y.copy = true ∧ y.cur = x.cur ∧
            y.obj = x.obj ∧ y.has (mcTier k) = true) ∧
    (mcOp c = 4 → rangeWait p s k = false → cleanRefusal p s k = 0 →
      ∃ t, exec (.clean p) s = .next t ∧ t.objects = s.objects ∧ t.plots = s.plots ∧ t.frames = s.frames ∧
        ∀ o v x, objAny s p (mcObj k) = some o → v ∈ rangePlots o k → s.plotEntry p v = some x → x.cur = 1 →
          x.has2 = true → x.dirty ≠ 0 → ∃ r, gains t r ∧ v ∈ r.todo) ∧
    (∀ x, mcOp c = 5 → s.obj p (mcObj k) = some x → placeCommandRefusal p s k = 0 →
      ∃ t r, exec (.place p) s = .next (keepersGoOn p t) ∧ gains t r ∧ r.obj = mcObj k ∧ t.plots = s.plots ∧
        t.obj p (mcObj k) = some (if mcTkeep k then x else { x with ttl := mcTtl k })) ∧
    (mcOp c = 6 → resumeIngests s p = s → ingestRefusal p s k = 0 →
      s.episodes.any (fun e => e.level == 6 && e.target == 0x5000 + qpPort (qpCtx s (mcQp k))) = false →
      (((s.qp (mcQp k)).runs ≠ [] ∨ mcLen k ≠ 0) →
        ∃ t r, exec (.ingest p) s = .next t ∧ gains t r ∧ t.objects = s.objects ∧ t.frames = s.frames ∧
          (t.qp (mcQp k)).runs.length = (s.qp (mcQp k)).runs.length + 1) ∧
      ((s.qp (mcQp k)).runs = [] → mcLen k = 0 →
        ∃ t, exec (.ingest p) s = .next t ∧ (t.qp (mcQp k)).runs = [])) ∧
    (mcOp c = 7 → digestCommandRefusal p s k = 0 →
      ∃ t r, exec (.digest p) s = .next t ∧ gains t r ∧ r.obj = mcObj k ∧ t.objects = s.objects ∧ t.frames = s.frames))

/-- ZEROING_WRITTEN, PLOT_COPY_DONE, WRITE_BACK_DONE and DIGEST_STORED complete while migration may run and is served: an ALLOC's
plot is zero; a copy has the bytes of its sectors and is PEND, a sector read as uncorrectable being poisoned in it; a CLEAN
leaves no DIRTY sector of its plots and ends; a DIGEST with ROOT of one leaf gives its object the root of R212 and ends, and one
whose leaf cannot be read ends with no root set (R17, R193, R195, R199, R203, R206, R212). COMMIT completes at a step boundary
without a breach, and the keepers then go on with what waited for it: an expired object without a lease is free; an ALLOC whose
plots are zero makes its object live, a FREE of an object without a lease frees it with its plots, a MOVE whose copy is complete
gives its plot the other tier, a PLACE sets the placement bits, and each is completed; a complete copy that no command has any
more is committed too (the model's choice, log 50). Elsewhere no object, plot or run changes (R191, R193, R195, R198, R254). -/
def Obligations.MemoryWork : Prop :=
  (∀ (s : State) (p : Nat), derivedRun s = true → isPart p = true → migrates s p = true →
    (∀ v i x, findMcRun s p (fun r => mcOp r.cmd == 1 && r.todo.contains v) = some i → s.plotEntry p v = some x →
      (migServed s p x.where_.1 = true →
        ∃ t, exec (.zeroingWritten p v) s = .next t ∧ t.frame (curFrame p x) = Frame.init ∧
          (∀ k, k ≠ curFrame p x → t.frame k = s.frame k) ∧
          PartBecomes p
            { s.part p with mcRuns := (s.part p).mcRuns.modify i (fun r => { r with todo := r.todo.filter (· != v) }) }
            { s with frames := t.frames } t) ∧
      (migServed s p x.where_.1 = false → exec (.zeroingWritten p v) s = .next s)) ∧
    (∀ v o x ecc, s.plotEntry p v = some x → x.copy = true → x.cancel = false → (x.pend = false ∨ x.resync ≠ 0) →
      (x.toCopy = 0 ∨ copyServed s p = true) →
      x.t1frame < 2 ^ 20 → x.t2frame < 2 ^ 20 → (s.frame (curFrame p x)).mem.wf = true →
      (s.frame (curFrame p x)).mem.fill = 0 → (s.frame (frameKey p x.other (x.frameIn x.other))).mem.fill = 0 →
      (s.frame (curFrame p x)).poison &&& x.toCopy = 0 →
      ∃ t y, exec (.plotCopyDone p v o ecc) s = .next t ∧
        t.plotEntry p v = some y ∧ y.pend = true ∧ y.resync = 0 ∧ y.cur = x.cur ∧ y.obj = x.obj ∧
        let dst := frameKey p x.other (x.frameIn x.other)
        let i := o % plotBytes / 65536
        (ecc ≠ .uncorrectable → y = { x with pend := true, resync := 0 }) ∧
        (ecc = .uncorrectable → bit x.toCopy i = true → y.poison = true ∧ bit (t.frame dst).poison i = true) ∧
        (∀ a, a < plotBytes → (t.frame dst).mem.read a =
          if bit x.toCopy (a / 65536) then (s.frame (curFrame p x)).mem.read a else (s.frame dst).mem.read a) ∧
        (∀ k, k ≠ dst → t.frame k = s.frame k) ∧ t.objects = s.objects) ∧
    (∀ addr i r ecc, findMcRun s p (fun r => mcOp r.cmd == 4 && r.todo.contains (addr / plotBytes)) = some i →
      (s.part p).mcRuns[i]? = some r → copyServed s p = true →
      ∃ t, exec (.writeBackDone p addr ecc) s = .next t ∧ (t.part p).mcRuns = (s.part p).mcRuns.eraseIdx i ∧
        t.objects = s.objects ∧
        ∀ v ∈ r.todo, ∀ x, s.plotEntry p v = some x → x.cur = 1 → x.has2 = true →
          ∃ y, t.plotEntry p v = some y ∧ y.dirty = 0 ∧ y.cur = x.cur ∧ y.obj = x.obj) ∧
    (∀ i r x addr ecc, findMcRun s p (fun q => mcOp q.cmd == 7 && q.obj == r.obj) = some i → r.obj = mcObj r.cmd →
      (s.part p).mcRuns[i]? = some r → digestServed s p r = true → s.obj p r.obj = some x → mcDmode r.cmd = false →
      mcRoot r.cmd = true → mcOffset r.cmd = 0 → mcLen r.cmd ≤ leafBytes →
      (ecc ≠ .uncorrectable →
        (chunksOf (objAddr x 0) (mcLen r.cmd)).all (fun ch => !poisoned s p (ch.1 * plotBytes + ch.2.1) ch.2.2) = true →
        ∃ t y, exec (.digestStored p r.obj addr ecc) s = .next t ∧ (t.part p).mcRuns = (s.part p).mcRuns.eraseIdx i ∧
          t.obj p r.obj = some y ∧ y.rvalid = true ∧ y.clen = mcLen r.cmd ∧
          y.root = merkleRoot (mcLen r.cmd) [Crypto.sha256 (0#8 :: devRead s p (objAddr x 0) (mcLen r.cmd))] ∧
          y.vbase = x.vbase ∧ y.nplots = x.nplots) ∧
      (ecc = .uncorrectable → objAddr x 0 ≤ addr → addr < objAddr x 0 + mcLen r.cmd →
        ∃ t, exec (.digestStored p r.obj addr ecc) s = .next t ∧ (t.part p).mcRuns = (s.part p).mcRuns.eraseIdx i ∧
          t.objects = s.objects ∧ t.plots = s.plots ∧ t.frames = s.frames))) ∧
  (∀ (s : State) (p : Nat), derivedRun s = true → isPart p = true → Assoc.sorted s.objects = true →
    (stepBoundary (s.part p) = true → bit s.breach 7 = false →
      ((s.part p).mcRuns = [] → ∃ t, exec (.commit p) s = .next (keepersGoOn p t) ∧ (t.part p).mcRuns = [] ∧
        (∀ o, o < 65536 → t.obj p o =
          (s.obj p o).bind (fun x => if x.expiring = true ∧ x.leases = 0 then none else some x)) ∧
        (∀ v x, loosePlots s p = [v] → expired s p = [] → s.plotEntry p v = some x →
          ∃ y, t.plotEntry p v = some y ∧ y.copy = false ∧ y.pend = false ∧
            y.cur.toNat = (if x.cancel = true then x.cur.toNat else x.other))) ∧
      (∀ r, (s.part p).mcRuns = [r] → expired s p = [] → loosePlots s p = [] →
        (∀ o, mcOp r.cmd = 1 → r.record = some o → o.expiring = false → r.todo = [] →
          ∃ t, exec (.commit p) s = .next (keepersGoOn p t) ∧ (t.part p).mcRuns = [] ∧ t.obj p r.obj = some o ∧
            t.plots = s.plots) ∧
        (∀ x, mcOp r.cmd = 2 → s.obj p r.obj = some x → x.leases = 0 →
          ∃ t, exec (.commit p) s = .next (keepersGoOn p t) ∧ (t.part p).mcRuns = [] ∧ t.obj p r.obj = none ∧
            ∀ v ∈ objPlots x, t.plotEntry p v = none) ∧
        (∀ v x, mcOp r.cmd = 3 → r.todo = [] → r.awaiting = [v] → s.plotEntry p v = some x → x.ready = true →
          ∃ t y, exec (.commit p) s = .next (keepersGoOn p t) ∧ (t.part p).mcRuns = [] ∧ t.objects = s.objects ∧
            t.plotEntry p v = some y ∧ y.copy = false ∧ y.pend = false ∧
            y.cur.toNat = (if x.cancel = true then x.cur.toNat else x.other)) ∧
        (∀ x, mcOp r.cmd = 5 → s.obj p r.obj = some x →
          ∃ t, exec (.commit p) s = .next (keepersGoOn p t) ∧ (t.part p).mcRuns = [] ∧ t.plots = s.plots ∧
            t.obj p r.obj = some (withPlace x (mcPlace r.cmd)) ∧ placeBits (withPlace x (mcPlace r.cmd)) = mcPlace r.cmd))) ∧
    ((stepBoundary (s.part p) = false ∨ bit s.breach 7 = true) → exec (.commit p) s = .next (keepersGoOn p s)))

/-- BAR4_READ and BAR4_WRITE complete: through an open window a write to one plot of an object that is not protected changes its
bytes alone, marks DIRTY where a polder copy is kept, and clears RVALID; it then reads back; one to a protected object changes
no memory; one to a bank of the partition, while the tier-0 window is open, writes the bank; a read returns the bytes, or zeros
where the window is closed, and changes no memory (R176, R183, R184, R186, R195, R269). TTL_TICK, SCRUB_READ,
CHANNEL_OUT_OF_SERVICE and SLUICE_TABLE_APPLY complete: at a multiple of 100,000,000 gt each TTL above 1 falls by 1; a scrubbed
word's error is counted on its channel, and the last word of a pass counts the pass; a channel that is not yet out of service
goes out of it and is logged, and one in service stops its partition's job; at a step boundary the stored tables take effect,
and a READY partition checks again (R170, R180, R198, R199, R202). -/
def Obligations.DeviceMemory : Prop :=
  (∀ (s : State) (f ofs : Nat), derivedRun s = true → isFnId f = true →
    (∀ n, (bit (s.fn f).bar4 60 = true → ∃ t, exec (.bar4Read f ofs n) s = .next t ∧
        t.outputs = s.outputs ++ [.readData f (bar4Get s (bar4Part s f) (bar4Addr s f ofs) n).1] ∧
        t.frames = s.frames ∧ t.cells = s.cells ∧ t.plots = s.plots ∧
        t.bar4Bad = (if (bar4Get s (bar4Part s f) (bar4Addr s f ofs) n).2 then s.bar4Bad else s.bar4Bad + 1)) ∧
      (bit (s.fn f).bar4 60 = false → exec (.bar4Read f ofs n) s = .next (s.send (.readData f (List.replicate n 0))))) ∧
    (∀ bs, bit (s.fn f).bar4 60 = false → exec (.bar4Write f ofs bs) s = .next s) ∧
    (∀ bs, bit (s.fn f).bar4 60 = true →
      (let p := bar4Part s f
      let a := bar4Addr s f ofs
      (windowOk s p a = true → windowOpen (s.part p) = true → 0 < bs.length → a % 2 ^ 20 + bs.length ≤ bankBytes →
        ∃ t, exec (.bar4Write f ofs bs) s = .next t ∧
          CellBecomes (a / 2 ^ 20 % 4096) ((s.cell (a / 2 ^ 20 % 4096)).bankWrite (a % 2 ^ 20) bs) s t) ∧
      (∀ x, a + bs.length ≤ 2 ^ 50 → 0 < bs.length → a % plotBytes + bs.length ≤ plotBytes →
        s.plot p (a / plotBytes) = some x → objProtected s p x.obj = true →
        ∃ t, exec (.bar4Write f ofs bs) s = .next t ∧ t.frames = s.frames ∧ t.plots = s.plots ∧ t.objects = s.objects ∧
          t.cells = s.cells))) ∧
    (∀ bs x ob, bit (s.fn f).bar4 60 = true →
      (let p := bar4Part s f
      let a := bar4Addr s f ofs
      a + bs.length ≤ 2 ^ 50 → 0 < bs.length → a % plotBytes + bs.length ≤ plotBytes →
      s.plot p (a / plotBytes) = some x → s.obj p x.obj = some ob → objProtected s p x.obj = false →
      ∃ t, exec (.bar4Write f ofs bs) s = .next t ∧
        let o := a % plotBytes
        let k := curFrame p x
        (t.frame k).mem.readN 0 o bs.length = bs ∧
        (∀ b, b < o ∨ o + bs.length ≤ b → (t.frame k).mem.read b = (s.frame k).mem.read b) ∧
        (∀ j, j ≠ k → t.frame j = s.frame j) ∧ t.obj p x.obj = some { ob with rvalid := false } ∧
        (∀ j, j ≠ objKey p x.obj → t.objects.find? j = s.objects.find? j) ∧
        (∃ y, t.plotEntry p (a / plotBytes) = some y ∧ y.cur = x.cur ∧ y.copy = x.copy ∧
          (x.cur = 1 → x.has2 = true → ∀ b, o ≤ b → b < o + bs.length → bit y.dirty (b / 65536) = true)) ∧
        t.cells = s.cells ∧ t.outputs = s.outputs ∧ t.bar4Bad = s.bar4Bad ∧
        ((s.frame k).poison = 0 → devRead t p a bs.length = bs)))) ∧
  (∀ (s : State), derivedRun s = true →
    (Assoc.sorted s.objects = true → s.counter.gt % 100000000 = 0 → s.counter.gt ≠ s.ttlGt →
      (∀ e ∈ s.objects, e.2.expiring = true ∨ e.2.ttl ≠ 1) →
      ∃ t, exec .ttlTick s = .next t ∧ t = { s with ttlGt := s.counter.gt, objects := t.objects } ∧
        ∀ k, t.objects.find? k = (s.objects.find? k).map (fun x =>
          if x.ttl = 0 ∨ x.expiring = true then x else { x with ttl := x.ttl - 1 })) ∧
    (∀ ch p frame o, isMemChannel ch = true → isPart p = true →
      (let tier := if 16 ≤ ch then 1 else 2
      (if tier = 1 then (partStacks s p).contains (ch - 16) else (partChannels s p).contains ch) = true →
      frame < allFrames s p tier → channelOf s p tier frame (o % plotBytes) = ch →
      (scrubLast s p tier ch frame (o % plotBytes) = false →
        (exec (.scrubRead ch p frame o .good) s = .next s ∧
        (∃ t, exec (.scrubRead ch p frame o .corrected) s = .next t ∧ t = { s with dict := t.dict } ∧
          od t (0x5000 + ch) 0x03 = min (od s (0x5000 + ch) 0x03 + 1) (2 ^ 32 - 1)) ∧
        (∃ t, exec (.scrubRead ch p frame o .uncorrectable) s = .next t ∧ t.objects = s.objects ∧ t.cells = s.cells ∧
          od t (0x5000 + ch) 0x04 = min (od s (0x5000 + ch) 0x04 + 1) (2 ^ 32 - 1)))) ∧
      (scrubLast s p tier ch frame (o % plotBytes) = true →
        ∃ t, exec (.scrubRead ch p frame o .good) s = .next t ∧ t = { s with dict := t.dict } ∧
          od t (0x5000 + ch) 0x05 = min (od s (0x5000 + ch) 0x05 + 1) (2 ^ 32 - 1)))) ∧
    (∀ ch, ch < numChannels s.boot.assembly → od s (0x5000 + ch) 0x01 ≠ 3 →
      ∃ t e, exec (.channelOutOfService ch) s = .next t ∧ od t (0x5000 + ch) 0x01 = 3 ∧
        t.events.find? (od s 0x1E00 0x01 % 4096) = some e ∧ e.code = 0x1512 ∧
        (od s (0x5000 + ch) 0x01 ≠ 2 → t.parts = s.parts ∧ t.frames = s.frames) ∧
        (∀ p, od s (0x5000 + ch) 0x01 = 2 → partOfChannel s ch = some p → (s.part p).state = .busy →
          (s.part p).fault = none → ∃ f, (t.part p).fault = some f ∧ f.code = 0x0512 ∧ f.stop = true)) ∧
    (∀ ch, ch < numChannels s.boot.assembly → od s (0x5000 + ch) 0x01 = 3 → exec (.channelOutOfService ch) s = .next s) ∧
    (∀ p, isPart p = true → stepBoundary (s.part p) = true →
      s.inForce.any (fun e => (tableKeys s p).contains e.1) = true →
      ∃ t, exec (.sluiceTableApply p) s = .next t ∧
        (∀ k ∈ tableKeys s p, Assoc.find? t.inForce k = none) ∧
        (enabled (s.part p) = true → (t.part p).recheck = true ∧
          (t.part p).state = (if (s.part p).state = .ready then .checking else (s.part p).state)) ∧
        (enabled (s.part p) = false → t.parts = s.parts)))

/-- RDMA_READ_RESPONSE, RDMA_WRITE_RECV, QP_ACK_TIMEOUT, INGEST_PORT_LOSS and INGEST_PORT_UP complete. A packet for an unknown queue
pair or address is dropped and counted, one too long or at a port that is down has no effect, and a marked one is answered with
a CNP. The response packet expected lands where ingest is served, and a READ's NAK puts the queue pair into error; a WRITE in a
window is written and acknowledged, one in none answered with a NAK and the queue pair in error, and one out of sequence
acknowledged again or answered with a sequence error NAK (the model's choice, log 92); a timeout asks again, or with no retry
left ends in error; a port's loss takes its queue pairs into error (R26, R200, R203, R207 to R211, R215). -/
def Obligations.RemoteTransfers : Prop :=
  ∀ (s : State), derivedRun s = true →
    (∀ (port : Nat) (h : RdmaHead) (answer : Option (List Byte)) (va : Word) (rkey : BitVec 32) (data : List Byte), isPort port = true →
      ((od s 0x1700 0x01 port ≠ 2 ∨ 4200 < h.frame) →
        exec (.rdmaReadResponse port h answer) s = .next s ∧ exec (.rdmaWriteRecv port h va rkey data) s = .next s) ∧
      (od s 0x1700 0x01 port = 2 → h.frame ≤ 4200 → packetQp s port h = none →
        ∃ t, exec (.rdmaReadResponse port h answer) s = .next t ∧ exec (.rdmaWriteRecv port h va rkey data) s = .next t ∧
          t = { s with dict := t.dict } ∧
          od t 0x1700 0x32 port = min (od s 0x1700 0x32 port + 1) (2 ^ 32 - 1)) ∧
      (∀ q, od s 0x1700 0x01 port = 2 → h.frame ≤ 4200 → packetQp s port h = some q →
        let b := if h.ce then s.send (.rdma q 4 h.psn 0 0) else s
        (answer = none → ∃ t, exec (.rdmaReadResponse port h answer) s = .next t ∧ (t.qp q).state = 2) ∧
        (∀ r rs, answer = some data → (s.qp q).runs = r :: rs →
          ((h.psn ≠ (s.qp q).respPsn ∨ data.length ≠ packetBytes (qpCtx s q) r ∨
              ingestServed s r.part (mcObj r.cmd) (mcOffset r.cmd + r.landed) data.length = false) →
            exec (.rdmaReadResponse port h answer) s = .next b) ∧
          (h.psn = (s.qp q).respPsn → 0 < packetBytes (qpCtx s q) r → data.length = packetBytes (qpCtx s q) r →
            ingestServed s r.part (mcObj r.cmd) (mcOffset r.cmd + r.landed) data.length = true →
            (r.landed + data.length < mcLen r.cmd → r.leaf.length + data.length < leafBytes →
              ∃ t r', exec (.rdmaReadResponse port h answer) s = .next (resumeIngests t r.part) ∧ (t.qp q).runs = r' :: rs ∧
                r'.landed = r.landed + data.length ∧ r'.leaf = r.leaf ++ data ∧ r'.digests = r.digests ∧
                (t.qp q).respPsn = (s.qp q).respPsn + 1 ∧ (t.qp q).retries = 0 ∧
                t.frames = (objWrite s r.part (mcObj r.cmd) (mcOffset r.cmd + r.landed) data).frames) ∧
            (r.landed + data.length < mcLen r.cmd → r.leaf.length + data.length = leafBytes →
              ∃ t r', exec (.rdmaReadResponse port h answer) s = .next (resumeIngests t r.part) ∧ (t.qp q).runs = r' :: rs ∧
                r'.landed = r.landed + data.length ∧ r'.leaf = [] ∧
                r'.digests = r.digests ++ [Crypto.sha256 (0#8 :: (r.leaf ++ data))] ∧
                (t.qp q).respPsn = (s.qp q).respPsn + 1 ∧ (t.qp q).retries = 0) ∧
            (mcLen r.cmd ≤ r.landed + data.length → rs = [] →
              ∃ t, exec (.rdmaReadResponse port h answer) s = .next t ∧ (t.qp q).runs = []))) ∧
        (∀ w o, h.psn = (s.qp q).recvPsn →
          lowest (fun w => winHolds (window s w) q va.toNat rkey.toNat data.length) 0 64 = some w →
          s.obj (winPart (window s w)) (winObj (window s w)) = some o →
          objHeld s (winPart (window s w)) (winObj (window s w)) = false →
          (let ofs := winOfs (window s w) + (va.toNat - winBase (window s w))
          ofs + data.length ≤ o.nplots * plotBytes →
          (waysInUse s (winPart (window s w)) 256 < ingestLimit s (winPart (window s w)) →
            ingestServed s (winPart (window s w)) (winObj (window s w)) ofs data.length = true →
            ∃ t, exec (.rdmaWriteRecv port h va rkey data) s = .next t ∧
              t.frames = (devWrite s (winPart (window s w)) (objAddr o ofs) data).frames ∧
              (t.qp q).recvPsn = (s.qp q).recvPsn + 1 ∧
              t.outputs = b.outputs ++ [.rdma q 1 (s.qp q).recvPsn va.toNat data.length]) ∧
          ((ingestLimit s (winPart (window s w)) ≤ waysInUse s (winPart (window s w)) 256 ∨
              ingestServed s (winPart (window s w)) (winObj (window s w)) ofs data.length = false) →
            exec (.rdmaWriteRecv port h va rkey data) s = .next b))) ∧
        (h.psn = (s.qp q).recvPsn → writePlace s q va.toNat rkey.toNat data.length = none →
          ∃ t l, exec (.rdmaWriteRecv port h va rkey data) s = .next t ∧ (t.qp q).state = 2 ∧
            t.outputs = b.outputs ++ [.rdma q 2 (s.qp q).recvPsn va.toNat data.length] ++ l ∧
            ((s.qp q).runs = [] → t.frames = s.frames ∧ t.objects = s.objects ∧ l = [])) ∧
        (h.psn ≠ (s.qp q).recvPsn →
          ∃ t, exec (.rdmaWriteRecv port h va rkey data) s = .next t ∧ t.frames = s.frames ∧
            (t.qp q).recvPsn = (s.qp q).recvPsn ∧
            t.outputs = b.outputs ++
              (if 2 ^ 23 ≤ (h.psn - (s.qp q).recvPsn).toNat then [.rdma q 1 h.psn va.toNat data.length]
              else if (s.qp q).nakSent = true then []
              else [.rdma q 5 (s.qp q).recvPsn va.toNat data.length])))) ∧
    (∀ q r rs, isQp q = true → (s.qp q).runs = r :: rs → (s.qp q).state = 1 → r.landed < r.asked →
      (∃ t, exec (.qpAckTimeout q) s = .next t ∧
        ((s.qp q).retries < qpRetry (qpCtx s q) → (t.qp q).retries = (s.qp q).retries + 1 ∧
          (t.qp q).runs = (s.qp q).runs ∧ s.outputs.length < t.outputs.length) ∧
        (qpRetry (qpCtx s q) ≤ (s.qp q).retries → (t.qp q).state = 2))) ∧
    (∀ k, isPort k = true →
      (∃ t, exec (.ingestPortLoss k) s = .next t ∧ od t 0x1700 0x01 k = 0 ∧
        ∀ n ∈ portQps s k, (t.qp n).state = 2) ∧
      (s.clocks.clkMode ≠ 1 → exec (.ingestPortUp k) s = .next (odSet s 0x1700 0x01 k 2)) ∧
      (s.clocks.clkMode = 1 → exec (.ingestPortUp k) s = .next s))

/-- SR_DOORBELL, START, APPEND, TREE and CANCEL complete: the doorbell moves the tail of the request ring, where its sender reaches
the partition; a START on a free REQ is live with the fields of its request, at its matched positions, or ends at once where its
conversation is expiring; APPEND adds tokens, TREE marks the draft tree, CANCEL ends the request; a START on a live REQ, another
request on a REQ that is not live, and one with a reserved field leave every request as it is (R235, R236, R250, R255, R259).
PARK, PARK_MOVE, RESUME and RESUME_MOVE_DONE complete: a PARK waits for the request's step, and it and a RESUME for a resume
under way; otherwise a PARK puts the PLACE of the conversation in the polder, with the TTL, in the memory command ring; once
that has completed and the object has no lease PARK_MOVE puts its MOVE there; RESUME puts there its PLACE in tier 1 with no TTL,
and when its MOVE has ended the request is admissible again and its next turn may come, while a MOVE that was refused ends it
(R236, R251, R253, R254). -/
def Obligations.ServingRequests : Prop :=
  (∀ (s : State) (p : Nat), derivedRun s = true → isPart p = true →
    (∀ src tail, isRequester src = true →
      (reachesPart s src p = true → shapeOf s p ≠ 0 →
        ∃ t, exec (.srDoorbell src p tail) s = .next t ∧ (t.part p).sr.tail = tail % 1024 ∧
          (t.part p).serving.requests = (s.part p).serving.requests ∧ t.objects = s.objects ∧ t.frames = s.frames) ∧
      ((reachesPart s src p = false ∨ shapeOf s p = 0) → exec (.srDoorbell src p tail) s = .next s)) ∧
    (∀ c, srHead (s.part p) = some c → srMayTake s p = true →
      let others := fun (t : State) => ∀ q, q ≠ srReq c → liveReq t p q = liveReq s p q
      let same := fun (t : State) => (t.part p).serving.requests = (s.part p).serving.requests ∧ t.objects = s.objects ∧
        t.frames = s.frames
      (∀ i ∈ [(1, Instr.start p), (2, .append p), (3, .park p), (4, .resume p), (5, .cancel p), (6, .tree p)],
        srOp c = i.1 → (srBad c = true ∨ (srOp c ≠ 1 ∧ liveReq s p (srReq c) = none)) →
        ∃ t, exec i.2 s = .next t ∧ same t) ∧
      (srBad c = false → srOp c = 1 → liveReq s p (srReq c) = none → objExpiring s p (srKobj c) = false →
        ∃ t r, exec (.start p) s = .next t ∧ others t ∧ liveReq t p (srReq c) = some r ∧ r.cust = srCust c ∧
          r.kobj = srKobj c ∧ r.ns = BitVec.ofNat 64 (srNs c) ∧ r.flags = srFlags c ∧ r.ctx = BitVec.ofNat 64 (srCtx c) ∧
          r.prompt = srNtok c ∧ r.pos = 64 * r.matched.length ∧
          r.left = (if srMaxNew c = 0 then none else some (srMaxNew c)) ∧ r.parking = 0 ∧ r.turns = [] ∧ r.inStep = false ∧
          r.order = (s.part p).serving.order ∧ t.frames = s.frames ∧
          (bit (srFlags c) 2 = true → r.matched = [] ∧ r.leases = [] ∧ t.objects = s.objects)) ∧
      (srBad c = false → srOp c = 1 → liveReq s p (srReq c) = none → objExpiring s p (srKobj c) = true →
        ∃ t, exec (.start p) s = .next t ∧ others t ∧ liveReq t p (srReq c) = none ∧ t.objects = s.objects ∧
          t.frames = s.frames) ∧
      (∀ r, srBad c = false → liveReq s p (srReq c) = some r →
        (srOp c = 1 → ∃ t, exec (.start p) s = .next t ∧ same t) ∧
        (srOp c = 2 → ∃ t, exec (.append p) s = .next t ∧ others t ∧
          liveReq t p (srReq c) = some { r with append := r.append + srNtok c } ∧ t.objects = s.objects ∧
          t.frames = s.frames) ∧
        (srOp c = 6 → ∃ t, exec (.tree p) s = .next t ∧ others t ∧
          liveReq t p (srReq c) = some { r with tree := true, treeCtx := BitVec.ofNat 64 (srCtx c) } ∧
          t.objects = s.objects ∧ t.frames = s.frames) ∧
        (srOp c = 5 → ∃ t, exec (.cancel p) s = .next t ∧ others t ∧ liveReq t p (srReq c) = none ∧ t.frames = s.frames ∧
          (r.leases = [] → t.objects = s.objects))))) ∧
  (∀ (s : State) (p : Nat), derivedRun s = true → isPart p = true →
    let issued := fun (t : State) (c : BitVec 512) =>
      (s.part p).serving.cmds = [] → ringFull (s.part p).mc 256 = false → (s.part p).mc.tail < 256 →
        (t.part p).mc.tail = ((s.part p).mc.tail + 1) % 256 ∧ (t.part p).serving.cmds = [] ∧
        (t.part p).mcKeepers = (s.part p).mcKeepers ++ [(s.part p).mc.tail] ∧
        ringNat (t.part p) (mcOfs + 64 * (s.part p).mc.tail) 8 = c.toNat
    (∀ c r (resume : Bool), srHead (s.part p) = some c → srMayTake s p = true → srBad c = false →
      liveReq s p (srReq c) = some r → srOp c = (if resume = true then 4 else 3) →
      (let i := if resume = true then Instr.resume p else .park p
      let turn : ParkTurn := { resume := resume, ctx := BitVec.ofNat 64 (srCtx c), ttl := srTtl c }
      ((r.turns = [] ∧ r.turnWaits turn = true ∨ ∃ t0 ts, r.turns = t0 :: ts ∧ r.turnWaits t0 = true) →
        ∃ t, exec i s = .next t ∧ liveReq t p (srReq c) = some { r with turns := r.turns ++ [turn] } ∧
          t.objects = s.objects ∧ t.frames = s.frames) ∧
      (r.turns = [] → r.turnWaits turn = false →
        ∃ t, exec i s = .next t ∧ t.objects = s.objects ∧ t.plots = s.plots ∧ t.frames = s.frames ∧
          (resume = false → liveReq t p (srReq c) = some { r with parking := 2, status := 0 } ∧
            issued t (placeWord s p r false 2 3 (srTtl c))) ∧
          (resume = true →
            liveReq t p (srReq c) =
              some { r with parking := 4, status := 0, resumeCtx := BitVec.ofNat 64 (srCtx c) } ∧
            issued t (placeWord s p r true 1 0 0))))) ∧
    (∀ req r x, liveReq s p req = some r → s.obj p r.kobj = some x → r.parking = 2 → x.leases = 0 → r.status = 0 →
      keeperBusy s p 5 (r.keeperCtx false) = false →
      ∃ t, exec (.parkMove p req) s = .next t ∧ t.objects = s.objects ∧ t.plots = s.plots ∧ t.frames = s.frames ∧
        liveReq t p req = some { r with parking := 3 } ∧ issued t (moveWord s p r false 2)) ∧
    (∀ req r, liveReq s p req = some r → r.parking = 5 → keeperBusy s p 3 (r.keeperCtx true) = false →
      (r.status = 0 →
        ∃ t, exec (.resumeMoveDone p req) s = .next (nextTurns t p req) ∧
          liveReq t p req = some { r with parking := 0 } ∧
          (∀ q, q ≠ req → liveReq t p q = liveReq s p q) ∧ t.objects = s.objects ∧ t.frames = s.frames) ∧
      (r.status ≠ 0 →
        ∃ t, exec (.resumeMoveDone p req) s = .next t ∧ liveReq t p req = none ∧
          (∀ q, q ≠ req → liveReq t p q = liveReq s p q) ∧ t.frames = s.frames)))

/-- SERVE_STEP_ADMIT completes: a waiting request whose budget covers its charge is in the step that is submitted on queue 1 under
the next step counter, its allowance refilled and charged; one whose customer has no valid entry there is refused, and one whose
charge its allowance does not cover is deferred and counted. SERVE_STEP_COMPLETE completes: a token of a completed step stands
in its conversation, and the last one ends its request; a refused step leaves its requests waiting; a first task abort waits for
its retry; a failed step ends them (R234, R238, R239, R241, R243, R244, R259). -/
def Obligations.ServingSteps : Prop :=
  ∀ (s : State) (p : Nat), derivedRun s = true → isPart p = true →
    (∀ q r, srMayTake s p = true → (s.part p).job = none → (s.part p).prepared = none → (s.part p).serving.step = none →
      ((s.part p).sq 1).held = 0 → bit s.breach 7 = false → (s.part p).state = .ready →
      (waiting s p).filter (fun e => stepImage s p e.2 == (s.part p).ctlImage.toNat) = [(q, r)] →
      liveReq s p q = some r → 0 < od s 0x1A00 0x02 p →
      (let b := budget s r.cust
      let have_ := refilled b (refillTicks s s.counter.gt)
      let drafts := (stepTree s p r b).1
      let charge := if r.pos < r.promptNow then min (r.promptNow - r.pos) (od s 0x1A00 0x03 p) else 1 + drafts
      (bdValid b = true → bdMask b p = true → (bdUnlim b = true ∨ bdCap b ≠ 0 ∧ charge ≤ have_) →
        ∃ t k, exec (.serveStepAdmit p) s = .next t ∧ (t.part p).serving.step = some k ∧
          k.entries = [{ req := q, pos := r.pos, npos := charge, drafts := drafts,
                         prefill := decide (r.pos < r.promptNow), cancelled := false }] ∧
          k.retry = false ∧ k.outcome = none ∧ k.obj = stepObj s p ∧ k.seed = od s 0x1A00 0x07 p ∧
          ((t.part p).sq 1).tail = (((s.part p).sq 1).tail + 1) % 256 ∧ ((t.part p).sq 1).enabled = true ∧
          ((t.part p).sq 1).byKeepers = ((s.part p).sq 1).byKeepers ++ [((s.part p).sq 1).tail] ∧
          liveReq t p q = some { r with prompt := r.promptNow, append := 0, tree := false, inStep := true } ∧
          bdAllow (budget t r.cust) = (if bdUnlim b then have_ else have_ - charge) ∧ t.refillL = s.counter.gt ∧
          od t 0x1A00 0x08 p = (od s 0x1A00 0x08 p + 1) % 2 ^ 64) ∧
      ((bdValid b = false ∨ bdMask b p = false ∨ bdUnlim b = false ∧ bdCap b = 0) →
        ∃ t, exec (.serveStepAdmit p) s = .next t ∧ (t.part p).serving.step = none ∧ liveReq t p q = none) ∧
      (bdValid b = true → bdMask b p = true → bdUnlim b = false → bdCap b ≠ 0 → have_ < charge →
        ∃ t, exec (.serveStepAdmit p) s = .next t ∧ (t.part p).serving.step = none ∧ liveReq t p q = some r ∧
          od t 0x1A10 0x03 r.cust = min (od s 0x1A10 0x03 r.cust + 1) (2 ^ 32 - 1)))) ∧
    (∀ k, (s.part p).serving.step = some k →
      (∀ n, n = 1 ∨ n = 5 → k.outcome = some n → (∀ e ∈ (s.part p).serving.requests, e.2.turns = []) →
        ∃ t, exec (.serveStepComplete p) s = .next t ∧ (t.part p).serving.step = none ∧ t.objects = s.objects ∧
          ∀ q, liveReq t p q = (liveReq s p q).map (fun r =>
            if k.entries.any (fun e => e.req == q && !e.cancelled) then { r with inStep := false } else r)) ∧
      ((k.outcome = none ∨ k.outcome = some stAbort ∧ k.retry = false) → exec (.serveStepComplete p) s = .next s) ∧
      (∀ n, k.outcome = some n → n ≠ 0 → n ≠ 1 → n ≠ 5 → (n ≠ stAbort ∨ k.retry = true) →
        (∀ e ∈ k.entries, e.cancelled = false) →
        ∃ t, exec (.serveStepComplete p) s = .next t ∧ (t.part p).serving.step = none ∧
          ∀ e ∈ k.entries, liveReq t p e.req = none) ∧
      (∀ o tag token r x y, k.outcome = some 0 → k.obj = some o → k.entries.any (fun e => e.prefill) = false →
        k.entries.any (fun e => e.req == tag / 2 ^ 40 && e.cancelled) = false →
        k.entries.any (fun e => e.req == tag / 2 ^ 40) = true → (∀ e ∈ k.entries, e.req = tag / 2 ^ 40) →
        stepResults s p o k.results = [(tag, token)] → liveReq s p (tag / 2 ^ 40) = some r →
        (let pos := tag / 2 ^ 20 % 2 ^ 20
        (r.turns = [] → r.noInsert = true → tag % 2 = 0 → r.left ≠ some 1 → r.left ≠ some 0 →
          pos ≠ 1048575 → r.pos < 1048576 → s.obj p r.kobj = some x → 4 * pos + 4 ≤ x.nplots * plotBytes →
          s.plot p (objAddr x (4 * pos) / plotBytes) = some y → (s.frame (curFrame p y)).poison = 0 →
          ∃ t z, exec (.serveStepComplete p) s = .next t ∧ (t.part p).serving.step = none ∧
            liveReq t p (tag / 2 ^ 40) = some z ∧ z.pos = max r.pos (pos + 1) ∧ z.left = r.left.map (· - 1) ∧
            z.inStep = false ∧ z.kobj = r.kobj ∧ objRead t p r.kobj (4 * pos) 4 = leBytes 4 token) ∧
        ((tag % 2 = 1 ∨ r.left = some 1) →
          ∃ t, exec (.serveStepComplete p) s = .next t ∧ (t.part p).serving.step = none ∧
            liveReq t p (tag / 2 ^ 40) = none))))

/-- PREFIX_HASH, PREFIX_LOOKUP, PREFIX_INSERT, PREFIX_INVAL and PREFIX_RELEASE complete: each leaves one completion for the keepers;
hashes and matched entries go to the result object, a new block to a free entry of its set, an object that no entry names is
left alone by INVAL, and RELEASE drops one lease; a malformed command gets SV-0x0D, one without a table SV-0x05, and one that
names an expiring object SV-0x07, which a RELEASE survives (log 33); a word with another command's OP is none of theirs (R247 to
R251, R255). -/
def Obligations.PrefixCommands : Prop :=
  ∀ (s : State) (p : Nat) (c : BitVec 512), derivedRun s = true → isPart p = true →
    let done := fun (t : State) (status count : Nat) =>
      (t.part p).pfxDone = (s.part p).pfxDone ++
        [BitVec.ofNat 128 (pcCtx c * 2 ^ 64 + status * 2 ^ 56 + pcOp c * 2 ^ 48 + pcObj c * 2 ^ 32 + count)]
    (∀ i ∈ [(1, Instr.prefixHash p c), (2, .prefixLookup p c), (3, .prefixInsert p c), (4, .prefixInval p c),
        (5, .prefixRelease p c)],
      (pcBad c = true → ∃ t, exec i.2 s = .next t ∧ done t 0x0D 0 ∧ t.objects = s.objects ∧ t.frames = s.frames) ∧
      (pcBad c = false → pcOp c ≠ i.1 → exec i.2 s = .next s) ∧
      (pcBad c = false → pcOp c = i.1 → prefixTable s p = none → ∃ t, exec i.2 s = .next t ∧ done t 0x05 0 ∧
        t.objects = s.objects ∧ t.frames = s.frames) ∧
      (∀ t0, pcBad c = false → pcOp c = i.1 → i.1 ≠ 5 → prefixTable s p = some t0 → namesExpiring s p c = true →
        ∃ t, exec i.2 s = .next t ∧ done t 0x07 0 ∧ t.objects = s.objects ∧ t.frames = s.frames)) ∧
    (∀ t0, pcBad c = false → prefixTable s p = some t0 →
      (namesExpiring s p c = false →
        (pcOp c = 1 → ∃ t, exec (.prefixHash p c) s = .next t ∧ done t 0 (pcBlocks c) ∧
          t.frames = (objWrite s p (pcRobj c) (pcRofs c)
            ((blockHashes s p (pcObj c) (pcBlocks c) (pcFirst c) (pcPrev c)).flatMap (leBytes 8))).frames) ∧
        (let tokens := blockTokens s p (pcObj c) (pcFirst c)
        let h := blockHash (pcPrev c) tokens
        (pcOp c = 2 → prefixFind s p t0 h = none → ∃ t, exec (.prefixLookup p c) s = .next t ∧ done t 0 0 ∧
          t.frames = s.frames) ∧
        (∀ i, pcOp c = 2 → pcBlocks c = 1 → pcLease c = false → prefixFind s p t0 h = some i →
          (let e := prefixEntry s p t0 i
          inPolder s p (pfObj e) (256 * pfBlock e) 256 = false → blockTokens s p (pfObj e) (pfBlock e) = tokens →
          ∃ t, exec (.prefixLookup p c) s = .next t ∧ done t 0 1 ∧
            t.frames = (objWrite s p (pcRobj c) (pcRofs c) (leBytes 32 e)).frames ∧
            od t 0x1A20 0x02 p = min (od s 0x1A20 0x02 p + 1) (2 ^ 64 - 1))) ∧
        (∀ i, pcOp c = 3 → pcBlocks c = 1 → prefixFind s p t0 h = none →
          List.find? (fun i => !pfValid (prefixEntry s p t0 i)) (prefixSet h) = some i →
          ∃ t, exec (.prefixInsert p c) s = .next t ∧ done t 0 1 ∧
            t.frames = (objWrite s p t0 (32 * i)
              (leBytes 32 (h * 2 ^ 192 + pcObj c * 2 ^ 176 + pcFirst c * 2 ^ 162 + 2 ^ 161))).frames)) ∧
        (pcOp c = 4 →
          (∀ i, i < 2 ^ 20 → (pfValid (prefixEntry s p t0 i) && pfObj (prefixEntry s p t0 i) == pcObj c) = false) →
          ∃ t, exec (.prefixInval p c) s = .next t ∧ done t 0 0 ∧ t.frames = s.frames ∧ t.objects = s.objects)) ∧
      (∀ x, pcOp c = 5 → s.obj p (pcObj c) = some x → ∃ t, exec (.prefixRelease p c) s = .next t ∧
        done t (if x.expiring = true then 0x07 else 0) 1 ∧
        t.obj p (pcObj c) = some { x with leases := x.leases - 1 } ∧ t.frames = s.frames ∧
        ∀ o, o ≠ pcObj c → t.obj p o = s.obj p o))

/-- SEM_READ_ACQUIRE, SEM_WRITE_RELEASE and SEM_LEASE_EXPIRE complete: a read of a free semaphore, or of one that the reader owns,
makes the reader its owner for SEM_LEASE_GT and answers GRANT; a read of another's changes no semaphore; a REL by the owner
frees it and any other write is counted; a lease that has ended leaves it free (R270, R271). -/
def Obligations.Semaphores : Prop :=
  ∀ (s : State) (src n : Nat), derivedRun s = true → isRequester src = true → isSem n = true →
    (semNow s n = none ∨ owns s n src = true →
      ∃ t w, exec (.semReadAcquire src n) s = .next t ∧
        t.sems.find? n = some { owner := src, until_ := s.counter.gt + od s 0x1800 0x04 } ∧
        (∀ m, m ≠ n → t.sems.find? m = s.sems.find? m) ∧ t = { s with sems := t.sems, outputs := t.outputs } ∧
        t.outputs = s.outputs ++ [.readData src (leBytes 8 (BitVec.toNat (w : Word)))] ∧
        (0 < od s 0x1800 0x04 → bit w 63 = true ∧ bit w 62 = true ∧ bits w 61 48 = 0 ∧ bits w 47 32 = src ∧
          bits w 31 1 = min (od s 0x1800 0x04 / 2) (2 ^ 31 - 1) ∧ bit w 0 = false)) ∧
    (∀ x, semNow s n = some x → x.owner ≠ src →
      ∃ t w, exec (.semReadAcquire src n) s = .next t ∧ t = { s with outputs := t.outputs } ∧
        t.outputs = s.outputs ++ [.readData src (leBytes 8 (BitVec.toNat (w : Word)))] ∧
        bit w 63 = false ∧ bit w 62 = true ∧ bits w 47 32 = x.owner % 65536) ∧
    (∀ v, owns s n src = true → bit (v : Word) 0 = true →
      ∃ t, exec (.semWriteRelease src n v) s = .next t ∧ semNow t n = none ∧ t = { s with sems := t.sems } ∧
        ∀ m, m ≠ n → t.sems.find? m = s.sems.find? m) ∧
    (∀ v, owns s n src = false ∨ bit (v : Word) 0 = false →
      ∃ t, exec (.semWriteRelease src n v) s = .next t ∧ t = { s with dict := t.dict } ∧
        od t 0x1800 0x06 = min (od s 0x1800 0x06 + 1) (2 ^ 32 - 1)) ∧
    (∀ x, s.sems.find? n = some x → x.until_ ≤ s.counter.gt →
      semNow s n = none ∧ ∃ t, exec (.semLeaseExpire n) s = .next t ∧ t.sems.find? n = none ∧ t = { s with sems := t.sems } ∧
        ∀ m, m ≠ n → t.sems.find? m = s.sems.find? m) ∧
    (∀ x, semNow s n = some x → exec (.semLeaseExpire n) s = .next s)

/-- REGISTER_WRITE and BOOT_CTL_GO complete: BAR4_CTL keeps its defined bits; a semaphore, a doorbell, a queue's configuration,
PART_CTL, PREEMPT and a stop-acknowledge act as their own commands do; an owner's word in its submission ring stands there, and
another's is discarded with JB-0x0E; a word of another partition's block, or not aligned, is discarded; GO starts verification
on the function that shows BOOT_CTL (R267 to R269, R277, R398). -/
def Obligations.RegisterWrites : Prop :=
  ∀ (s : State) (f : Nat) (v : Word), derivedRun s = true → isFnId f = true →
    (exec (.registerWrite f 0x8 v) s = .next (s.updFn f (fun x =>
      { x with bar4 := v &&& (if f % 0x1000 = 0 then 0xF00FFFF000000000 else 0x100FFFF000000000) }))) ∧
    (∀ n, n < 64 → exec (.registerWrite f (0x8000 + 8 * n) v) s = exec (.semWriteRelease f n v) s) ∧
    (∀ ofs, ofs % 8 ≠ 0 → exec (.registerWrite f ofs v) s = .next s) ∧
    (∀ p ofs, p < 8 → ofs < 0x100000 → f % 0x1000 ≠ 0 → f % 0x1000 ≠ p + 1 →
      exec (.registerWrite f (0x100000 * (p + 1) + ofs) v) s = .next s) ∧
    (∀ p, p < 8 → shapeOf s p ≠ 0 → (f % 0x1000 = 0 ∨ f % 0x1000 = p + 1) →
      (∀ q, q < 4 → exec (.registerWrite f (0x100000 * (p + 1) + 0x200 + 8 * q) v) s =
        exec (.sqDoorbell f p q (v.toNat % 256)) s) ∧
      (∀ q, q < 4 → exec (.registerWrite f (0x100000 * (p + 1) + 0x100 + 8 * q) v) s = exec (.sqCfgWrite f p q v) s) ∧
      exec (.registerWrite f (0x100000 * (p + 1)) v) s =
        (if v.getLsbD 0 = true then exec (.partCtlEnable f p (BitVec.ofNat 16 (bits v 63 48))) s
        else exec (.partCtlDisable f p) s) ∧
      exec (.registerWrite f (0x100000 * (p + 1) + 0x10) v) s = exec (.preemptRequest f p v) s ∧
      exec (.registerWrite f (0x100000 * (p + 1) + 0x20) v) s = exec (.stopAck f p v) s ∧
      exec (.registerWrite f (0x100000 * (p + 1) + 0x400) v) s = exec (.mcDoorbell f p (v.toNat % 256)) s ∧
      exec (.registerWrite f (0x100000 * (p + 1) + 0x500) v) s = exec (.srDoorbell f p (v.toNat % 1024)) s ∧
      (∀ q i, q < 4 → i < 4096 → ownsQueue s f p q = false →
        ∃ t e, exec (.registerWrite f (0x100000 * (p + 1) + 0x10000 + 0x8000 * q + 8 * i) v) s = .next t ∧
          t.parts = s.parts ∧ t.events.find? (od s 0x1E00 0x01 % 4096) = some e ∧ e.code = 0x140E) ∧
      (∀ q i, q < 4 → i < 4096 → ownsQueue s f p q = true →
        ∃ t, exec (.registerWrite f (0x100000 * (p + 1) + 0x10000 + 0x8000 * q + 8 * i) v) s = .next t ∧ OnlyPart p s t ∧
          ringWord (t.part p) (0x10000 + 0x8000 * q + 8 * i) = v ∧
          ∀ o, o % 8 = 0 → o ≠ 0x10000 + 0x8000 * q + 8 * i → ringWord (t.part p) o = ringWord (s.part p) o)) ∧
    (showsBoot s f = true → ∃ t, exec (.bootCtlGo f) s = .next t ∧ t = { s with boot := { s.boot with result := 1 } }) ∧
    (showsBoot s f = false → exec (.bootCtlGo f) s = .next s)

/-- MIRROR_UPDATE, BAR2_HW_WRITE, BAR2_COLLECTION_TIMEOUT and HW_WRITE_APPLY complete: the warden writes a changed value into the
mirror with its gt; the words of an HW slot are collected and applied whole where the writer owned semaphore 2, and refused,
counted and logged otherwise; a collection 1 ms old is dropped and counted, and logged where its writer did not own the
semaphore (R15, R376, R378, R379). -/
def Obligations.MirrorAndHwWrites : Prop :=
  (∀ (s : State) (index sub elem : Nat) (e : Entry), s.clocks.tripStop = false → findEntry index sub = some e → s.boot.devState ≠ 0 →
    mirrored e = true → elem < entryCount e → entryCount e < 2 ^ 32 → odView s index sub elem ≠ (mirrorAt s index sub elem).1 →
    ∃ t, exec (.mirrorUpdate index sub elem) s = .next t ∧ (mirrorAt t index sub elem).1 = odView s index sub elem ∧
      t = { s with mirror := t.mirror, mirrorGt := s.counter.gt } ∧
      mirrorSeq t index sub = (if e.table ∨ 8 < e.size then (mirrorSeq s index sub + 2) % 65536 else mirrorSeq s index sub) ∧
      ∀ k, k ≠ odKey index sub elem → k ≠ odKey index sub (2 ^ 32 - 1) → t.mirror.find? k = s.mirror.find? k) ∧
  ∀ (s : State) (f : Nat), derivedRun s = true → isFnId f = true →
    (∀ ofs (v : Word), hwAt ofs = some (2, 0, 0) → (s.fn f).collect = none →
      ∃ t c, exec (.bar2HwWrite f ofs v) s = .next t ∧ (t.fn f).ready = (s.fn f).ready ++ [c] ∧ c.sub = 2 ∧ c.elem = 0 ∧
        c.words = [(0, v)] ∧ c.owned = owns s 2 f ∧ t.dict = s.dict) ∧
    (∀ ofs (v : Word) elem, hwAt ofs = some (1, elem, 0) → (s.fn f).collect = none →
      ∃ t, exec (.bar2HwWrite f ofs v) s = .next t ∧ (t.fn f).ready = (s.fn f).ready ∧ t.dict = s.dict ∧
        (t.fn f).collect = some { sub := 1, elem := elem, words := [(0, v)], owned := owns s 2 f, last := s.counter.gt }) ∧
    (∀ ofs (v : Word) elem c, hwAt ofs = some (1, elem, 1) → (s.fn f).collect = some c → c.sub = 1 → c.elem = elem →
      ∃ t d, exec (.bar2HwWrite f ofs v) s = .next t ∧ (t.fn f).collect = none ∧ (t.fn f).ready = (s.fn f).ready ++ [d] ∧
        d.sub = 1 ∧ d.elem = elem ∧ d.words = c.words.insert 1 v ∧ d.owned = owns s 2 f) ∧
    (∀ ofs (v : Word), hwAt ofs = none → ∃ t e, exec (.bar2HwWrite f ofs v) s = .next t ∧ t.fns = s.fns ∧
      od t 0x1F00 0x27 = min (od s 0x1F00 0x27 + 1) (2 ^ 32 - 1) ∧
      t.events.find? (od s 0x1E00 0x01 % 4096) = some e ∧ e.code = BitVec.ofNat 16 evMirrorWrite) ∧
    (∀ c, (s.fn f).collect = some c → c.last + 100000 ≤ s.counter.gt →
      ∃ t, exec (.bar2CollectionTimeout f) s = .next t ∧ (t.fn f).collect = none ∧ (t.fn f).ready = (s.fn f).ready ∧
        od t 0x1F00 0x27 = min (od s 0x1F00 0x27 + 1) (2 ^ 32 - 1) ∧
        (c.owned = true → t.events = s.events) ∧
        (c.owned = false → ∃ e, t.events.find? (od s 0x1E00 0x01 % 4096) = some e ∧
          e.code = BitVec.ofNat 16 evMirrorWrite)) ∧
    (∀ c cs, (s.fn f).ready = c :: cs →
      (c.owned = true → c.sub = 1 → ∃ t, exec (.hwWriteApply f) s = .next t ∧ (t.fn f).ready = cs ∧
        od t 0x1A10 0x01 c.elem = budgetBits (collected s c)) ∧
      (c.owned = true → c.sub = 2 → collected s c ≠ 0 → ∃ t, exec (.hwWriteApply f) s = .next t ∧ (t.fn f).ready = cs ∧
        od t 0x1A10 0x02 = collected s c ∧ t.refillL = s.counter.gt) ∧
      (c.owned = false → ∃ t, exec (.hwWriteApply f) s = .next t ∧ (t.fn f).ready = cs ∧
        (∀ n, n < 4096 → od t 0x1A10 0x01 n = od s 0x1A10 0x01 n) ∧ od t 0x1A10 0x02 = od s 0x1A10 0x02 ∧
        od t 0x1F00 0x27 = min (od s 0x1F00 0x27 + 1) (2 ^ 32 - 1)))

/-- LINK_FRAME_SEND, LINK_FRAME_RECV, LINK_ACK_SEND and LINK_REPLAY_TIMEOUT complete: each frame sent counts under its key and is
encrypted; link control goes first, then the oldest frame of the source whose turn it is in the round robin (log 95), which
takes the next LSEQ, a credit and a place in the replay buffer, and a forwarded one frees its receive buffer; a frame that
touches an uncorrectable codeword, or whose tag fails, is dropped and counted, and the 32,768th in a row asks for the full
counter in a frame of the model's own kind (log 46); one in order is taken once, and one beyond is answered once with a negative
acknowledgement (log 95); an acknowledgement goes also where nothing is owed; a timeout sends every unacknowledged frame again
(R301 to R304, R308, R310, R328). -/
def Obligations.LinkFrames : Prop :=
  ∀ (s : State) (l : Nat), isLink l = true →
    let reg := 0x3000 + 0x20 * l
    (let x := (s.link l).switchTx
    (∀ k, linkState s l = 4 → x.txCur = some k → x.txUnder < keyLimit →
      (let y := { x.next.2 with txFrames := x.txFrames + 1, txUnder := x.txUnder + 1 }
      ∃ t, exec (.linkFrameSend l) s = .next t ∧
        t.outputs = s.outputs ++ [.frame l (sealFrame k x.next.1 x.txFrames)] ∧
        (x.next.1.held = none → t.link l = y ∧ ∀ d, d ≠ l → t.link d = s.link d) ∧
        (∀ l' vc, x.next.1.held = some (l', vc) → l' ≠ l →
          t.link l = y ∧
          t.link l' = { s.link l' with
            returned := setNth (s.link l').returned (BitVec.toNat vc) (nth 0 (s.link l').returned (BitVec.toNat vc) + 1) } ∧
          ∀ d, d ≠ l → d ≠ l' → t.link d = s.link d) ∧
        (x.resend ≠ 0 → od t reg 0x0E = min (od s reg 0x0E + 1) (2 ^ 32 - 1)))) ∧
    ((linkState s l ≠ 4 ∨ x.txCur = none ∨ keyLimit ≤ x.txUnder) → exec (.linkFrameSend l) s = .next s) ∧
    (x.resend ≠ 0 → x.next.1 = nth idleFrame x.replay (x.replay.length - x.resend) ∧ x.next.2.waiting = x.waiting) ∧
    (x.resend = 0 → x.pick = none → x.next = (idleFrame, x)) ∧
    (∀ f, x.waiting.find? (fun f => f.typ == 2) = some f → x.pick = some f) ∧
    (∀ f, x.resend = 0 → x.pick = some f → f.typ ≠ 2 →
      f ∈ x.waiting ∧ x.replay.length < 2048 ∧ 0 < nth 0 x.credits f.vc.toNat ∧
      (∀ g ∈ x.waiting, x.mayGo g = true → x.turnsTo f ≤ x.turnsTo g) ∧
      x.next.1 = { f with lseq := x.txSeq } ∧ x.next.2.txSeq = x.txSeq + 1 ∧ x.next.2.waiting = x.waiting.erase f ∧
      x.next.2.replay = x.replay ++ [{ f with lseq := x.txSeq, held := none }] ∧ x.next.2.turn = f.source)) ∧
    (∀ bs nc nu, (linkState s l ≠ 4 ∧ linkState s l ≠ 5) → exec (.linkFrameRecv l ⟨nc, nu, bs⟩) s = .next s) ∧
    (∀ bs nc nu, (linkState s l = 4 ∨ linkState s l = 5) →
      let r := odCount (odCount s reg 0x0B 0 32 nc) reg 0x0C 0 32 nu
      (od r reg 0x0B = min (od s reg 0x0B + nc) (2 ^ 32 - 1) ∧ od r reg 0x0C = min (od s reg 0x0C + nu) (2 ^ 32 - 1) ∧
        r = { s with dict := r.dict }) ∧
      ((nu ≠ 0 ∨ (s.link l).open_ bs = none) → ∃ t, exec (.linkFrameRecv l ⟨nc, nu, bs⟩) s = .next t ∧
        (t.link l).rxSeq = (s.link l).rxSeq ∧
        (t.link l).tagRun = (s.link l).tagRun + 1 ∧ (t.link l).rejected = (s.link l).rejected + 1 ∧
        ((s.link l).rejected + 1 = 32768 → controlFrame 6 0 0 ∈ (t.link l).waiting) ∧
        t = { s with links := t.links, dict := t.dict } ∧ (∀ d, d ≠ l → t.link d = s.link d) ∧
        od t reg 0x0D = min (od s reg 0x0D + 1) (2 ^ 32 - 1)) ∧
      (∀ c next payload, nu = 0 → (s.link l).open_ bs = some (c, next, payload) →
        (let f := parseFrame bs payload
        let y := (s.link l).authentic c next
        (f.typ = 2 → ∃ t, exec (.linkFrameRecv l ⟨nc, nu, bs⟩) s = .next t ∧ LinkBecomes l (y.control payload) r t) ∧
        (f.typ ≠ 1 → f.typ ≠ 2 → f.typ ≠ 3 → ∃ t, exec (.linkFrameRecv l ⟨nc, nu, bs⟩) s = .next t ∧ LinkBecomes l y r t) ∧
        ((f.typ = 1 ∨ f.typ = 3) → f.lseq ≠ (s.link l).rxSeq → ∃ t, exec (.linkFrameRecv l ⟨nc, nu, bs⟩) s = .next t ∧
          LinkBecomes l
            (if (f.lseq - (s.link l).rxSeq).toNat < 2 ^ 23 ∧ (s.link l).nakFor ≠ some (s.link l).rxSeq then
              { y with waiting := controlFrame 2 (s.link l).rxSeq.toNat 0 :: y.waiting, nakFor := some (s.link l).rxSeq }
            else y) r t) ∧
        ((f.typ = 1 ∨ f.typ = 3) → f.lseq = (s.link l).rxSeq → ∃ t, exec (.linkFrameRecv l ⟨nc, nu, bs⟩) s = .next t ∧
          (t.link l).rxSeq = (s.link l).rxSeq + 1 ∧ (t.link l).owed = (s.link l).owed + 1 ∧ (t.link l).nakFor = none)))) ∧
    (∃ t, exec (.linkAckSend l) s = .next t ∧ t = { s with links := t.links } ∧ (∀ d, d ≠ l → t.link d = s.link d) ∧
      (t.link l).owed = 0 ∧ (t.link l).returned = [0, 0, 0] ∧ (t.link l).replay = (s.link l).replay ∧
      ∃ fs, (t.link l).waiting = fs ++ (s.link l).waiting ∧
        controlFrame 1 ((s.link l).rxSeq - 1).toNat 0 ∈ fs ∧
        (∀ v, v < 3 → nth 0 (s.link l).returned v ≠ 0 → controlFrame 3 v (nth 0 (s.link l).returned v) ∈ fs)) ∧
    (∃ t, exec (.linkReplayTimeout l) s = .next t ∧
      LinkBecomes l { s.link l with resend := (s.link l).replay.length } s t)

/-- LINK_RETRAIN, LINK_TRAIN_DONE, LINK_DOWN_TIMEOUT and SWITCH_PORT_RESET complete: a link with a cause, or one in self-test that
loses bit lock, retrains with the reach class that stands then and keeps its LSEQ, replay buffer and keys; trained, it is in
self-test in class LOOP, up with both keys, HALTED where its transmitter has used up its key, and waits for keys without them;
none trains in the fabric-bypass mode; too long down it is lost, and jobs whose transfers need it end with LK-0x01; an authentic
RESET on a switch link asserts source 9, and a frame whose tag fails is counted (R26, R299, R303, R310, R311, R325, R385).
LAUNCH_MSG_RECV, KEEPER_MSG_RECV, BARRIER_MSG_RECV, ABORT_MSG_RECV and BREACH_MSG_RECV complete on a switch link that is up, on
the first copy of their message: a body goes to its mailbox, a BARRIER contribution to the entry, and a notice aborts the jobs
it names, or is counted; a second copy does nothing (R304, R312, R319, R323). On a torus link a privileged frame is dropped and
counted. -/
def Obligations.LinkStatesAndMessages : Prop :=
  (∀ (s : State) (l : Nat), isLink l = true →
    (let reg := 0x3000 + 0x20 * l
    (∀ cause, (linkState s l = 3 ∨ linkState s l = 4 ∨ linkState s l = 5 ∨ linkState s l = 7 ∧ cause = .lockLoss) →
      causePresent s l cause = true →
      ∃ t, exec (.linkRetrain l cause) s = .next t ∧ linkState t l = 2 ∧
        od t reg 0x0A = min (od s reg 0x0A + 1) (2 ^ 32 - 1) ∧
        (t.link l).since = s.counter.gt ∧ (t.link l).reach = od s 0x1C00 0x04 l ∧ (t.link l).tagRun = 0 ∧
        (t.link l).tagTimes = [] ∧ (t.link l).resend = (s.link l).replay.length ∧
        (t.link l).replay.map (·.lseq) = (s.link l).replay.map (·.lseq) ∧ (t.link l).txSeq = (s.link l).txSeq ∧
        (t.link l).rxSeq = (s.link l).rxSeq ∧ (t.link l).txCur = (s.link l).txCur ∧ (t.link l).rxCur = (s.link l).rxCur ∧
        (t.link l).txFrames = (s.link l).txFrames ∧ t.parts = s.parts) ∧
    (∀ cause, (linkState s l ≠ 3 ∧ linkState s l ≠ 4 ∧ linkState s l ≠ 5 ∧ (linkState s l ≠ 7 ∨ cause ≠ .lockLoss) ∨
        causePresent s l cause = false) →
      exec (.linkRetrain l cause) s = .next s) ∧
    ((s.clocks.clkMode = 1 ∨ linkFitted s l = false) → exec (.linkTrainDone l) s = .next s) ∧
    (linkFitted s l = true → s.clocks.clkMode ≠ 1 → (linkState s l = 1 ∨ linkState s l = 2 ∨ linkState s l = 6) →
      ∃ t, exec (.linkTrainDone l) s = .next t ∧
        linkState t l = (if (if linkState s l = 2 then (s.link l).reach else od s 0x1C00 0x04 l) = 0 then 7
          else if (s.link l).txCur.isSome = true ∧ (s.link l).rxCur.isSome = true then
            (if 2 ^ 40 ≤ (s.link l).switchTx.txUnder then 5 else 4) else 3) ∧
        (linkState s l = 6 → (t.link l).txSeq = 0 ∧ (t.link l).rxSeq = 0 ∧ (t.link l).replay = []) ∧
        (linkState s l ≠ 6 → (t.link l).txSeq = (s.link l).txSeq ∧ (t.link l).rxSeq = (s.link l).rxSeq ∧
          (t.link l).replay = (s.link l).replay)) ∧
    (linkState s l = 2 → (s.link l).since + od s 0x1C00 0x06 ≤ s.counter.gt →
      ∃ t, exec (.linkDownTimeout l) s = .next t ∧ linkState t l = 6 ∧
        ∀ p pl, p < 8 → s.plan p = some pl → (s.part p).fault = none →
          pl.entries.any (fun e => entryUses s pl l e && entryOpen s p true l e) = true → Aborted p 0x0601 s t) ∧
    (linkState s l = 2 → s.counter.gt < (s.link l).since + od s 0x1C00 0x06 → exec (.linkDownTimeout l) s = .next s) ∧
    (∀ bs c next payload, 12 ≤ l → (linkState s l = 4 ∨ linkState s l = 5) →
      (s.link l).open_ bs = some (c, next, payload) →
      (let r := s.updLink l (fun x => x.authentic c next)
      exec (.switchPortReset l bs) s =
        .next (if (parseFrame bs payload).typ = 2 ∧ (Config.readControl payload).1 = 5 then sourceAssert 9 0 r else r))) ∧
    (∀ bs, 12 ≤ l → (linkState s l = 4 ∨ linkState s l = 5) → (s.link l).open_ bs = none →
      ∃ t, exec (.switchPortReset l bs) s = .next t ∧ t = { s with links := t.links, dict := t.dict } ∧
        od t reg 0x0D = min (od s reg 0x0D + 1) (2 ^ 32 - 1)) ∧
    (∀ bs, (l < 12 ∨ linkState s l ≠ 4 ∧ linkState s l ≠ 5) → exec (.switchPortReset l bs) s = .next s))) ∧
  (∀ (s : State) (l src msg : Nat), isLink l = true →
    (∀ body mailbox plan step chan, mailbox < 64 →
      ∀ c ∈ [Instr.launchMsgRecv l src msg body, .keeperMsgRecv l src msg mailbox body,
          .barrierMsgRecv l src msg plan chan, .abortMsgRecv l src msg plan step, .breachMsgRecv l src msg plan step],
        (12 ≤ l → (linkState s l = 4 ∨ linkState s l = 5) → s.seenMsgs.contains (src, msg) = true →
          exec c s = .next { s with seenMsgs := s.seenMsgs.erase (src, msg) }) ∧
        (12 ≤ l → linkState s l ≠ 4 → linkState s l ≠ 5 → exec c s = .next s) ∧
        (l < 12 → ∃ t, exec c s = .next t ∧ t.parts = s.parts ∧ t.mailbox = s.mailbox ∧ t.links = s.links ∧
          od t 0x1C00 0x30 = min (od s 0x1C00 0x30 + 1) (2 ^ 32 - 1))) ∧
    (12 ≤ l → (linkState s l = 4 ∨ linkState s l = 5) → s.seenMsgs.contains (src, msg) = false →
      let r : State := { s with seenMsgs := s.seenMsgs ++ [(src, msg)] }
      (∀ body, exec (.launchMsgRecv l src msg body) s = .next { r with mailbox := s.mailbox ++ [(64, body)] }) ∧
      (∀ body mailbox, mailbox < 64 → ∃ t bs, exec (.keeperMsgRecv l src msg mailbox body) s = .next t ∧
        t = { r with mailbox := s.mailbox ++ [(mailbox, bs)] } ∧ bs.length = 512 ∧
          (body.length = 512 → bs = body)) ∧
      (∀ plan chan p pl e, p < 8 → s.plan p = some pl → (s.part p).fault = none → pl.planId = BitVec.toNat (plan : Word) →
        List.find? (fun e => peChan e == chan && peOp e == opBarrier && (pl.members e).contains src) pl.entries = some e →
        ∃ t, exec (.barrierMsgRecv l src msg plan chan) s = .next t ∧
          (transferAt t p true chan).contrib.any (fun c => c.1 == src) = true) ∧
      (∀ plan step,
        (noticeJobs s (BitVec.toNat (plan : Word)) (BitVec.toNat (step : Word)) = [] →
          exec (.abortMsgRecv l src msg plan step) s = .next (odCount r 0x1C00 0x32 0 32) ∧
          exec (.breachMsgRecv l src msg plan step) s = .next (odCount r 0x1C00 0x32 0 32)) ∧
        (∀ p, p < 8 → (p, true) ∈ noticeJobs s plan.toNat step.toNat → (s.part p).fault = none →
          (∃ t, exec (.abortMsgRecv l src msg plan step) s = .next t ∧ Aborted p 0x0606 s t) ∧
          (∃ t, exec (.breachMsgRecv l src msg plan step) s = .next t ∧ Aborted p 0x0607 s t)))))

/-- GC_TICK, SYNC_MSG_RECV, DELAY_RESP_RECV, CTR_SYNC_EDGE, GC_SYNC_LOSS, GC_HOLDOVER_EXPIRE and FIRST_ACQ_TIMEOUT complete: the
counter counts each tick and slews one root cycle in 16 at most; a SYNC starts an exchange; a DELAY_RESP or an edge gives an
offset, the average of 16 the correction; losses of SYNC take the counter to HOLDOVER and then to FREE (R313 to R315). -/
def Obligations.GlobalCounter : Prop :=
  ∀ (s : State),
    (∀ n, s.clocks.tripStop = false → s.counter.pending = none → ∃ t, exec (.gcTick n) s = .next t ∧
      t.counter.gt = s.counter.gt + n ∧ t.parts = s.parts ∧ t.cells = s.cells ∧
      (s.counter.slew ≠ 0 → t.counter.slew.natAbs =
        s.counter.slew.natAbs - min s.counter.slew.natAbs ((s.counter.gt + n - s.counter.lastSlew) / 16))) ∧
    (∀ n, s.clocks.tripStop = true → exec (.gcTick n) s = .next s) ∧
    (∀ l t1 t2 t3, 12 ≤ l → l < 14 → (linkState s l = 4 ∨ linkState s l = 5) → gcMode s ≠ 0 →
      s.counter.lastT1 ≠ some t1 →
      ∃ t, exec (.syncMsgRecv l t1 t2 t3) s = .next t ∧ t.counter.lastSync = s.counter.gt ∧
        t.counter.lastT1 = some t1 ∧ t.counter.gt = s.counter.gt ∧
        (gcMode s = 1 → t.counter.exchange = some (l, t1, t2, t3) ∧
          (t.link 12).waiting.length = (s.link 12).waiting.length + 1 ∧
          (t.link 13).waiting.length = (s.link 13).waiting.length + 1)) ∧
    (∀ l t1 t2 t3 t4, 12 ≤ l → l < 14 → (linkState s l = 4 ∨ linkState s l = 5) → gcMode s = 1 →
      s.counter.exchange = some (l, t1, t2, t3) →
      (let delay : Int := ((t2 - t1) + (t4 - t3)) / 2 - asym s l
      let offset := (t2 - t1) - delay - 2 * asym s l
      let os := s.counter.offsets ++ [offset]
      ∃ t, exec (.delayRespRecv l t4) s = .next t ∧ t.counter.exchange = none ∧ od t 0x1C00 0x23 = toCode 32 delay ∧
        (s.counter.batch + 1 ≠ 16 → t.counter.offsets = os.drop (os.length - 16) ∧
          t.counter.batch = s.counter.batch + 1 ∧ t.counter.gt = s.counter.gt ∧ t.counter.slew = s.counter.slew) ∧
        (s.counter.batch + 1 = 16 → s.counter.acquired = true →
          t.counter.slew = average (os.drop (os.length - 16)) ∧ t.counter.gt = s.counter.gt ∧
          t.counter.lastSlew = (if s.counter.slew = 0 then s.counter.gt else s.counter.lastSlew)))) ∧
    (∀ root multiple, gcMode s = 2 → s.counter.batch + 1 ≠ 16 →
      (let offset : Int := root - (64 * 2 ^ 20 * (BitVec.toNat (multiple : Word)) - signed 32 (od s 0x1C00 0x25))
      let os := s.counter.offsets ++ [offset]
      ∃ t, exec (.ctrSyncEdge root multiple) s = .next t ∧ t.counter.offsets = os.drop (os.length - 16) ∧
        t.counter.batch = s.counter.batch + 1)) ∧
    (gcMode s ≠ 0 → (gcState s = 1 ∨ gcState s = 2) → s.counter.lastSync + 65536 ≤ s.counter.gt →
      ∃ t, exec .gcSyncLoss s = .next t ∧ gcState t = 3 ∧ t.counter = { s.counter with holdFrom := s.counter.gt }) ∧
    (gcState s = 3 → s.counter.holdFrom + od s 0x1C00 0x26 ≤ s.counter.gt →
      ∃ t, exec .gcHoldoverExpire s = .next t ∧ gcState t = 0 ∧ t.counter = s.counter) ∧
    (∀ w, s.counter.waitFrom = some w → gcMode s ≠ 0 → s.counter.acquired = false → s.counter.waitOver = false →
      w + od s 0x1C00 0x28 ≤ s.counter.gt →
      ∃ t e, exec .firstAcqTimeout s = .next t ∧ t.counter = { s.counter with waitOver := true } ∧ gcState t = gcState s ∧
        t.events.find? (od s 0x1E00 0x01 % 4096) = some e ∧ e.reason = 0x060E)

/-- TRANSFER_START, TRANSFER_ARRIVAL, HOLD_RELEASE and HOLD_LIMIT_EXPIRE complete: a triggered entry sends, one unit of a SEND as
one frame on its way, and one to its own node into the plan there that takes it; lost source data ends the job with MM-0x09 (log
94) and a peer without a RECV with LK-0x0D; a RECV's bytes land in its range and the last of them adds 1 to its arrival object's
COUNT; a hold whose conditions are met ends as a pace step begins, with the next fabric cycle; one past its limit aborts with
LK-0x05 (R223, R318 to R320, R322, R325). -/
def Obligations.TorusTransfers : Prop :=
  ∀ (s : State) (p : Nat), isPart p = true →
    (∀ pl e a ecc lacks, derivedRun s = true → s.plan p = some pl → dueEntry s p pl = some e → (s.part p).fault = none →
      outfallEmpty s p = true →
      (∃ t, exec (.transferStart ⟨p, a, ecc, lacks⟩) s = .next t ∧ ((t.part p).transfer (peChan e)).sending = true) ∧
      (recvLacking s e lacks = true → ∃ t, exec (.transferStart ⟨p, a, ecc, lacks⟩) s = .next t ∧ Aborted p 0x060D s t) ∧
      (peOp e ≠ opBarrier → recvLacking s e lacks = false → sourceLost s p e ecc = true →
        ∃ t, exec (.transferStart ⟨p, a, ecc, lacks⟩) s = .next t ∧ Aborted p 0x0509 s t ∧ t.links = s.links) ∧
      (peOp e = opSend → recvLacking s e lacks = false → sourceLost s p e ecc = false → 0 < peLen e → peLen e ≤ 512 →
        (objRead s p (peSobj e) (peSofs e) (peLen e)).length = peLen e →
        (∀ l, pePeer e ≠ ownNode s → wayOut s (pePeer e) 0 = some l →
          ∃ t f, exec (.transferStart ⟨p, a, ecc, lacks⟩) s = .next t ∧
            (t.link l).waiting = (s.link l).waiting ++ [f] ∧ f.typ = 1 ∧ f.dest.toNat = pePeer e ∧
            f.src.toNat = ownNode s ∧ f.chan.toNat = peChan e ∧ f.ofs = 0 ∧ f.len.toNat = peLen e ∧
            f.payload = objRead s p (peSobj e) (peSofs e) (peLen e) ∧ t.frames = s.frames ∧ t.sync = s.sync) ∧
        (pePeer e ≠ ownNode s → wayOut s (pePeer e) 0 = none →
          ∃ t, exec (.transferStart ⟨p, a, ecc, lacks⟩) s = .next t ∧ Aborted p 0x0601 s t ∧ t.pathDrops = s.pathDrops + 1) ∧
        (∀ q pl' e', pePeer e = ownNode s → q < 8 → (∀ r, r < q → taker s r (peChan e) (ownNode s) = none) →
          taker s q (peChan e) (ownNode s) = some (true, pl', e') → peOp e' = opRecv → peLen e ≤ peLen e' →
          ((s.part q).transfer (peChan e)).landed.any (fun l => l.1 == ownNode s * 2 ^ 28) = false →
          ∃ t, exec (.transferStart ⟨p, a, ecc, lacks⟩) s = .next t ∧
            t.frames = (objWrite s q (peDobj e') (peDofs e') (objRead s p (peSobj e) (peSofs e) (peLen e))).frames ∧
            (ownNode s * 2 ^ 28, peLen e) ∈ ((t.part q).transfer (peChan e)).landed))) ∧
    (∀ a ecc lacks, (s.plan p = none ∨ (∃ pl, s.plan p = some pl ∧ dueEntry s p pl = none) ∨ (s.part p).fault ≠ none ∨
        outfallEmpty s p = false ∨ derivedRun s = false) →
      exec (.transferStart ⟨p, a, ecc, lacks⟩) s = .next s) ∧
    (∀ m ofs bs pl e, derivedRun s = true → s.plan p = some pl → (s.part p).fault = none →
      taker s p (peChan e) m = some (true, pl, e) →
      peOp e = opRecv → pePeer e = m → ofs < 2 ^ 28 → 0 < List.length bs → 512 * ofs + bs.length ≤ peLen e →
      (let u := (s.part p).transfer (peChan e)
      u.landed.any (fun l => l.1 == m * 2 ^ 28 + ofs) = false → u.counted = false →
      ∃ t, exec (.transferArrival p (peChan e) m ofs bs) s = .next t ∧
        t.frames = (objWrite s p (peDobj e) (peDofs e + 512 * ofs) bs).frames ∧
        ((t.part p).transfer (peChan e)).landed = u.landed ++ [(m * 2 ^ 28 + ofs, bs.length)] ∧
        (memberLanded u m + bs.length ≠ peLen e → t.sync = s.sync ∧
          ((t.part p).transfer (peChan e)).counted = false) ∧
        (memberLanded u m + bs.length = peLen e → objCount (s.syncObj (peAdie e) (peAobj e)) + 1 < 2 ^ 32 →
          ((t.part p).transfer (peChan e)).counted = true ∧
          t.syncObj (peAdie e) (peAobj e) = s.syncObj (peAdie e) (peAobj e) + 1 ∧
          ∀ d o, 4096 * d + o ≠ 4096 * peAdie e + peAobj e → t.syncObj d o = s.syncObj d o))) ∧
    (∀ chan m ofs bs, (taker s p chan m = none ∨ derivedRun s = false) →
      exec (.transferArrival p chan m ofs bs) s = .next s) ∧
    ((jobRuns (s.part p) = true ∧ (s.part p).hold.isSome = true ∧ (s.part p).fault = none ∧ clocksRun s = true ∧
        s.clocks.edge = 0 ∧ arrivalsMet s p = true) →
      ∃ t, exec (.holdRelease p) s = .next t ∧ (t.part p).hold = none ∧ (t.part p).fc = (s.part p).fc + 1 ∧
        t.cells = s.cells ∧ t.sync = s.sync) ∧
    ((jobRuns (s.part p) = false ∨ (s.part p).hold = none ∨ (s.part p).fault ≠ none ∨ clocksRun s = false ∨
        s.clocks.edge ≠ 0 ∨ arrivalsMet s p = false) →
      exec (.holdRelease p) s = .next s) ∧
    (∀ h, (s.part p).hold = some h → jobRuns (s.part p) = true → (s.part p).fault = none →
      od s 0x1C00 0x11 p ≤ h.spent + (s.counter.gt - h.since) →
      ∃ t, exec (.holdLimitExpire p) s = .next t ∧ Aborted p 0x0605 s t) ∧
    (∀ h, (s.part p).hold = some h → h.spent + (s.counter.gt - h.since) < od s 0x1C00 0x11 p →
      exec (.holdLimitExpire p) s = .next s) ∧
    ((s.part p).hold = none → exec (.holdLimitExpire p) s = .next s)

/-- PACE_STEP_APPLY, ROOT_PLL_LOCK and ROOT_PLL_LOCK_LOSS complete: at a pace-step boundary the pace is the least term of R336, and
a lower one brings its lower voltages; within a step it stays; a released PLL locks; a loss of lock stops the derived clocks, is
counted, and is a breach of the management plane. While the derived clocks stand their commands do nothing, and after a trip the
warden's do not either (R16, R17, R20, R22, R335, R336, R346). BREACH_RAISE completes: the raises of one WCLK edge set their
plane bits, and a first one LATCHED and FIRST_CAUSE, which takes the data plane's cause before the control plane's before the
management plane's; a later one leaves FIRST_CAUSE; ALERT_N is asserted, the raises are logged, and with the next pace step no
fabric cycle is delivered any more and no job runs on (R17 to R19, R407); jobs end when the fabric has stopped, which is the
model's choice (log 90). -/
def Obligations.ClocksAndBreaches : Prop :=
  (∀ (s : State),
    (s.clocks.edge = 0 → clocksRun s = true →
      ∃ t, exec .paceStepApply s = .next t ∧
      t.clocks = { s.clocks with pace := paceTerm s, govPace := paceTerm s } ∧ 1 ≤ t.clocks.pace ∧
      (s.clocks.alert = true → t.clocks.pace = 1) ∧
      (1 < t.clocks.pace → t.clocks.pace ≤ s.clocks.govPace ∧ t.clocks.pace ≤ od s 0x1100 0x06 ∧
        t.clocks.pace ≤ s.thermal.ceiling) ∧
      (s.clocks.alert = false → 1 ≤ s.clocks.govPace → 1 ≤ od s 0x1100 0x06 → 1 ≤ s.thermal.ceiling →
        t.clocks.pace = s.clocks.govPace ∨ t.clocks.pace = od s 0x1100 0x06 ∨ t.clocks.pace = s.thermal.ceiling) ∧
      od t 0x1100 0x07 = od s 0x1100 0x07 + (if t.clocks.pace = s.clocks.pace then 0 else 1) ∧
      (∀ d, d < 4 → od t (0x4000 + 0x100 * d) 0x01 =
        if t.clocks.pace < s.clocks.pace then vidMv s d t.clocks.pace else od s (0x4000 + 0x100 * d) 0x01) ∧
      t.parts = s.parts ∧ t.cells = s.cells ∧ t.sync = s.sync) ∧
    ((s.clocks.edge ≠ 0 ∨ clocksRun s = false) → exec .paceStepApply s = .next s) ∧
    (s.clocks.pllOn = true → (bit s.breach 7 = false ∨ s.clocks.edge ≠ 0 ∨ s.clocks.tripStop = true) →
      exec .rootPllLock s = .next { s with clocks := { s.clocks with locked := true } }) ∧
    (s.clocks.pllOn = true → bit s.breach 7 = true → s.clocks.edge = 0 → s.clocks.tripStop = false →
      ∃ t, exec .rootPllLock s = .next t ∧ t.clocks = { s.clocks with locked := true } ∧
        ∀ p, p < 8 → (t.part p).job = none ∧ (t.part p).drained = none) ∧
    (s.clocks.pllOn = false → exec .rootPllLock s = .next s) ∧
    (s.clocks.locked = true → ∃ t, exec .rootPllLockLoss s = .next t ∧
      t.clocks = { s.clocks with locked := false, edge := 0 } ∧
      bit t.breach 7 = true ∧ bit t.breach 2 = true ∧ clocksRun t = false ∧ t.counter = s.counter ∧
      od t 0x1100 0x04 = min (od s 0x1100 0x04 + 1) (2 ^ 32 - 1)) ∧
    (s.clocks.locked = false → exec .rootPllLockLoss s = .next s) ∧
    (derivedRun s = false → ∀ p e f n r q sem v tail ecc a bs, isPart p = true → isEngine e = true → isFnId f = true →
      r < 4 → isRequester q = true → isSem sem = true →
      ∀ c ∈ [Instr.engineFetch e, .engineWordArrive e ⟨ecc, ecc⟩, .outfallWrite e ecc, .imageLoadDone p, .jobTake p, .jobEnd p,
          .preemptRequest q p v, .freeze p, .drainDone p, .refillStart p ecc, .alloc p, .free p, .clean p, .digest p,
          .zeroingWritten p n, .plotCopyDone p n a ecc, .writeBackDone p a ecc, .digestStored p n a ecc, .sluiceTableApply p,
          .bar4Read f a n, .bar4Write f a bs, .registerWrite f a v, .start p, .append p, .cancel p, .serveStepAdmit p,
          .serveStepComplete p, .ttlTick, .sqDoorbell q p r tail, .semReadAcquire q sem],
        exec c s = .next s) ∧
    (s.clocks.tripStop = true → ∀ x y z rs ts a w b m vs d,
      ∀ c ∈ [Instr.breachRaise x y z, .railPoll rs, .governorEvaluation a w b m, .governorStepPoint vs, .thermalReading ts,
          .firmwareVerify, .releaseStep, .devStateAccepting, .bulkReadDatagram, .openSession d],
        exec c s = .next s)) ∧
  (∀ (s : State) (data ctrl mgmt : Option (BitVec 16)), s.clocks.tripStop = false →
    (data.isSome || ctrl.isSome || mgmt.isSome) = true →
    ∃ t, exec (.breachRaise data ctrl mgmt) s = .next t ∧
      bit t.breach 0 = (data.isSome || (bit s.breach 7 && bit s.breach 0)) ∧
      bit t.breach 1 = (ctrl.isSome || (bit s.breach 7 && bit s.breach 1)) ∧
      bit t.breach 2 = (mgmt.isSome || (bit s.breach 7 && bit s.breach 2)) ∧ bit t.breach 7 = true ∧
      bits t.breach 31 16 =
        (if bit s.breach 7 then bits s.breach 31 16 else (((data.or ctrl).or mgmt).getD 0).toNat) ∧
      t.pins = { s.pins with alertN := false } ∧ t.clocks = s.clocks ∧
      clocksRun t = (derivedRun s && s.clocks.edge != 0) ∧
      od s 0x1E00 0x01 + [data, ctrl, mgmt].countP (·.isSome) ≤ od t 0x1E00 0x01 ∧
      ((s.clocks.edge ≠ 0 ∨ derivedRun s = false) → t.parts = s.parts ∧ t.frames = s.frames ∧
        ∀ c, data = some c → ∃ e, t.events.find? (od s 0x1E00 0x01 % 4096) = some e ∧ e.code = c ∧ e.eclass = 5) ∧
      (s.clocks.edge = 0 → derivedRun s = true → ∀ p, p < 8 → (t.part p).job = none ∧ (t.part p).drained = none) ∧
      t.sync = s.sync)

/-- RAIL_POLL, VRM_ALERT_ASSERT, VRM_ALERT_DEASSERT, GOVERNOR_EVALUATION and GOVERNOR_STEP_POINT complete: each rail's energy is
added, from its last power where it does not answer, and the polls of a step interval give the measured power; an alert clamps
the pace until it ends; an evaluation sets the highest pace within the envelope and commands a raise's voltages; the step point
applies it and the spillway, and defers a raise whose voltage has not settled (R330, R332, R334, R335, R338, R341, R342, R344,
R348; log 60). THERMAL_READING, THERMAL_TRIP and TRIP_CLOCK_STOP complete: a reading at its threshold lowers the thermal ceiling
by 1, to no less than 1, dies and stacks apart, and a run of cool readings goes on or ends; a DDR5 module's temperature is
shown; a trip latches, drives THERMTRIP_N and ALERT_N low and makes its record once; the clocks then stop and deliver nothing
(R216, R344 to R347). -/
def Obligations.PowerAndThermal : Prop :=
  (∀ (s : State), s.clocks.tripStop = false →
    (∀ rs, ∃ t, exec (.railPoll rs) s = .next t ∧
      t.power.pollSum = s.power.pollSum + ((List.range 12).map (fun n => od t 0x1400 0x05 n)).sum ∧
      t.power.pollCount = s.power.pollCount + 1 ∧ ∀ n, n < 12 →
      (∀ r, List.find? (fun r => r.rail == n) rs = some r → od t 0x1400 0x05 n = RailReading.pout r ∧
        od t 0x1400 0x06 n = od s 0x1400 0x06 n + r.pout / 10 ∧ railCount t.power.vout n = r.vout ∧
        railCount t.power.iout n = r.iout ∧ (r.fault = true → bit t.breach 7 = true)) ∧
      (List.find? (fun r => r.rail == n) rs = none → od t 0x1400 0x05 n = od s 0x1400 0x05 n ∧
        od t 0x1400 0x06 n = od s 0x1400 0x06 n + od s 0x1400 0x05 n / 10)) ∧
    (s.pins.pmbAlertN = true → ∃ t, exec .vrmAlertAssert s = .next t ∧ t.clocks = { s.clocks with alert := true } ∧
      t.pins = { s.pins with pmbAlertN := false } ∧ paceTerm t = 1) ∧
    (s.pins.pmbAlertN = false → exec .vrmAlertAssert s = .next s) ∧
    exec .vrmAlertDeassert s = .next { s with pins := { s.pins with pmbAlertN := true },
                                              clocks := { s.clocks with alert := false } } ∧
    (∀ activity static shelf busy, ∃ t, exec (.governorEvaluation activity static shelf busy) s = .next t ∧
      (let m := if s.power.pollCount = 0 then s.power.measured else s.power.pollSum / s.power.pollCount
      t.power.measured = m ∧ t.power.static = static ∧ t.pins.shelfOk = shelf ∧ t.power.evaluated = true ∧
      t.clocks = s.clocks ∧ od t 0x1400 0x01 = m ∧ t.parts = s.parts ∧
      (∀ i, i < 8 → od t (0x4000 + 0x100 * (i / 2)) 0x08 (i % 2) = nth 0 activity i % 2 ^ 32) ∧
      t.thermal = { s.thermal with coolEval := s.thermal.coolRun == some true } ∧
      (let k := t.power.nextPace
      let up := rampRate t 0x22 shelf
      let top := min (od t 0x1100 0x06) t.thermal.ceiling
      let fits := fun k => pAct t k ≤ t.power.envelope ∧ pHyp t k ≤ m + up
      (1 < k → k ≤ top ∧ fits k) ∧ 1 ≤ k ∧ (s.power.telLost = false → ∀ j, 1 ≤ j → j ≤ top → fits j → j ≤ k) ∧
      (s.power.telLost = false → t.power.envelope ≤ max (m - rampRate t 0x23 shelf) (m + up)) ∧
      (s.power.telLost = true → t.power.envelope = m ∧ k ≤ max 1 s.clocks.govPace) ∧
      (s.clocks.govPace < k → ∀ d, d < 4 → od t (0x4000 + 0x100 * d) 0x01 = vidMv t d k) ∧
      od t 0x1100 0x2B = (if pAct t k + smaxAll t < m - rampRate t 0x23 shelf
        then min (od s 0x1100 0x2B + 1) (2 ^ 32 - 1) else od s 0x1100 0x2B)))) ∧
    (∀ vout, s.power.evaluated = true → ∃ t, exec (.governorStepPoint vout) s = .next t ∧
      (let k := s.power.nextPace
      let settled := (List.range 4).all (railSettled (readVout s vout) k)
      t.power.evaluated = false ∧ t.power.pollSum = 0 ∧ t.power.pollCount = 0 ∧
      (s.clocks.govPace < k → s.power.telLost = false → settled = false → t.clocks = s.clocks ∧
        od t 0x1100 0x2A = min (od s 0x1100 0x2A + 1) (2 ^ 32 - 1)) ∧
      (s.clocks.govPace < k → s.power.telLost = true → t.clocks = s.clocks ∧ t.dict = s.dict) ∧
      ((k ≤ s.clocks.govPace ∨ s.power.telLost = false ∧ settled = true) →
        t.clocks = { s.clocks with govPace := k } ∧ t.dict = s.dict) ∧
      (∀ d, d < 4 → spillOf t d = if smaxMw s d = 0 then 0
        else min (tenthW (s.power.nextSpill / (List.range 4).countP (fun d => smaxMw s d != 0))) (smaxMw s d)) ∧
      t.thermal.ceiling =
        (if s.thermal.coolEval = true ∧ s.thermal.ceiling < 16 then s.thermal.ceiling + 1 else s.thermal.ceiling) ∧
      t.power.wasBusy = (List.range 8).filter (fun p => (s.part p).state == .busy))) ∧
    (∀ vout, s.power.evaluated = false → exec (.governorStepPoint vout) s = .next s)) ∧
  (∀ (s : State),
    (∀ rs, s.clocks.tripStop = false → s.thermal.excluded = [] → s.thermal.ceiling ≤ 16 →
      (∀ r ∈ rs, badSensor (List.foldl noteReading s rs) r = false ∧
        (r.kind = 0 ∧ r.unit < 4 ∧ r.sensor < 64 ∨ r.kind = 1 ∧ r.unit < 4 ∧ r.sensor < 16 ∨ r.kind = 2 ∧ r.unit < 8)) →
      (let hot := rs.any (fun r => r.kind != 2 && decide (od s 0x1400 0x10 * 1000 ≤ r.mc))
      let stack := rs.any (fun r => r.kind == 2 && decide (od s 0x1400 0x11 * 1000 ≤ r.mc))
      ∃ t, exec (.thermalReading rs) s = .next t ∧
        (1 ≤ s.thermal.ceiling → t.thermal.ceiling =
          max 1 (s.thermal.ceiling - (if hot then 1 else 0) - (if stack then 1 else 0))) ∧
        t.thermal.coolRun =
          some (rs.all (fun r => decide (r.mc ≤ threshold s r - 3000)) && s.thermal.coolRun.getD true) ∧
        (∀ r ∈ rs, r.kind = 0 → od s 0x1400 0x10 * 1000 ≤ r.mc → r.unit ∈ t.thermal.throttled) ∧
        t.thermal.excluded = [] ∧ t.thermal.latch = s.thermal.latch ∧ t.clocks = s.clocks)) ∧
    (∀ r, s.clocks.tripStop = false → s.thermal.excluded = [] → TempReading.kind r = 3 → r.unit < numChannels s.boot.assembly →
      ∃ t, exec (.thermalReading [r]) s = .next t ∧ od t (0x5000 + r.unit) 0x07 = toCode 32 r.mc ∧
        t.thermal.ceiling = s.thermal.ceiling) ∧
    (∀ source unit sensor, 1 ≤ source → source ≤ 3 →
      (s.thermal.latch = false → ∃ t, exec (.thermalTrip source unit sensor) s = .next t ∧ t.thermal.latch = true ∧
        t.pins = { s.pins with thermtripN := false, alertN := false } ∧
        t.thermal.record = leBytes 16 (s.counter.gt % 2 ^ 64 * 2 ^ 64 + source * 2 ^ 56 + unit % 256 * 2 ^ 48 +
          sensor % 256 * 2 ^ 40)) ∧
      (s.thermal.latch = true → exec (.thermalTrip source unit sensor) s = .next s)) ∧
    (s.thermal.latch = true → s.clocks.tripStop = false → ∃ t, exec .tripClockStop s = .next t ∧
      t.clocks = { s.clocks with tripStop := true, pllOn := false, locked := false } ∧ clocksRun t = false ∧
      t.thermal = s.thermal) ∧
    ((s.thermal.latch = false ∨ s.clocks.tripStop = true) → exec .tripClockStop s = .next s))

/-- Every request command completes: after a trip, or on a port that is down, nothing happens; an IPv4 frame, or one to another
address or UDP port, is counted, and so is a datagram of the wrong form; before the dictionary is ready STARTING answers, or
beyond 2,000 a second the datagram is counted; one of no session or with a wrong MAC is counted; a SEQ stored is answered by its
stored response, that of a BULK_READ by its series again; one not above the highest is counted, one after 0xFFFF_FFFF is
answered MG-0x09 and closes the session, one beyond the rate is answered MG-0x0B and counted, and one beyond the role MG-0x03,
each without being executed (R357 to R359, R362, R364, R365, R372, R373). NEIGHBOR_DISCOVERY, ICMPV6_ECHO and MG_PORT_UP
complete: a solicitation of an own address is answered with the port's MAC and an echo with its body, out of the port from an
own address; anything else is counted; a port that comes up is up (R357, R381). The bytes of the answers are the model's choice
(log 62). -/
def Obligations.ManagementAccess : Prop :=
  (∀ (s : State) (d : Dgram),
    (∀ r ∈ (3, Instr.openSession d) :: (0, Instr.starting d) :: (requestsOf d ++ execsOf d),
      ((s.clocks.tripStop = true ∨ mgUp s d.port = false) → exec r.2 s = .next s) ∧
      (s.clocks.tripStop = false → mgUp s d.port = true → foreignFrame s d = true →
        exec r.2 s = .next (odCount s 0x1F00 0x26 0 32)) ∧
      (s.clocks.tripStop = false → mgUp s d.port = true → foreignFrame s d = false → mdpForm d = false →
        exec r.2 s = .next (odCount s 0x1F00 0x21 0 32)) ∧
      (Reaches s d → dictReady s = false →
        (s.mgmt.stSecond ≠ s.counter.gt / 100000000 ∨ s.mgmt.stCount < 2000 →
          ∃ t, exec r.2 s = .next t ∧ t = { s with mgmt := t.mgmt, outputs := t.outputs } ∧
            t.mgmt = { s.mgmt with stSecond := t.mgmt.stSecond, stCount := t.mgmt.stCount } ∧
            t.outputs = s.outputs ++ [.datagram d.port d.addr d.udp (mdpHeader 5 0 (mdpOp d) 0 (mdpSeq d) 0 8 0 s.counter.gt ++
              leBytes 8 (startingStage s) ++ List.replicate 32 0)]) ∧
        (s.mgmt.stSecond = s.counter.gt / 100000000 → 2000 ≤ s.mgmt.stCount →
          exec r.2 s = .next (odCount s 0x1F00 0x25 0 32)))) ∧
    (Reaches s d → dictReady s = true → exec (.starting d) s = .next s) ∧
    (∀ r ∈ requestsOf d ++ execsOf d, Reaches s d → dictReady s = true → mdpKind d = 3 → exec r.2 s = .next s) ∧
    (∀ r ∈ requestsOf d ++ execsOf d, Reaches s d → dictReady s = true → mdpKind d ≠ 3 →
      (findSession (idleOut s) (mdpSession d) = none ∨
        (∃ slot x, findSession (idleOut s) (mdpSession d) = some (slot, x) ∧
          (macHolds x.kmac d = false ∨ mdpPlain x d = none))) →
      exec r.2 s = .next (odCount (idleOut s) 0x1F00 0x21 0 32)) ∧
    (∀ r slot x pl, r ∈ requestsOf d → mdpOp d = r.1 → Authentic s d slot x pl →
      (∀ b, b ≠ [] → x.stored.filter (fun e => e.1 == mdpSeq d) = [(mdpSeq d, b)] →
        exec r.2 s = .next ((idleOut s).send (.datagram d.port d.addr d.udp b))) ∧
      (∀ b bs, x.stored.filter (fun e => e.1 == mdpSeq d) = (mdpSeq d, []) :: b :: bs → (∀ e ∈ b :: bs, e.2 ≠ []) →
        ∃ t, exec r.2 s = .next t ∧ t = { idleOut s with mgmt := t.mgmt } ∧
          t.mgmt = { (idleOut s).mgmt with bulk := (idleOut s).mgmt.bulk ++
            [{ slot := slot, seq := mdpSeq d, gen := x.renewals, port := d.port, addr := d.addr, udp := d.udp,
               again := some ((b :: bs).map (·.2)), key := none, next := 0, left := 0, ofs := 0, sent := 0 }] }) ∧
      ((∀ e ∈ x.stored, e.1 ≠ mdpSeq d) →
        (x.seq = 0xFFFFFFFF → exec r.2 s = .next (endSession ((idleOut s).send (.datagram d.port d.addr d.udp
          (answerBytes (idleOut s) x d (mg 0x09) []))) slot)) ∧
        (x.seq ≠ 0xFFFFFFFF → mdpSeq d ≤ x.seq → exec r.2 s = .next (odCount (idleOut s) 0x1F00 0x22 0 32)) ∧
        (x.seq ≠ 0xFFFFFFFF → x.seq < mdpSeq d → rateSpent (idleOut s) = true →
          ∃ t, exec r.2 s = .next t ∧ t = { odCount (idleOut s) 0x1F00 0x23 0 32 with outputs := t.outputs } ∧
            ∃ bytes, t.outputs = (idleOut s).outputs ++ [.datagram d.port d.addr d.udp bytes] ∧ leAt bytes 16 2 = mg 0x0B)) ∧
      (s.boot.devState ≠ 0 → NewSeq s d x → mdpFlags d < 8 → x.role < (if r.1 = 2 ∨ r.1 = 4 ∨ r.1 = 5 ∨ r.1 = 6 then 2 else 1) →
        exec r.2 s = .next (answered slot x d (refuse (served s) (mg 0x03)))))) ∧
  (∀ (s : State) (port : Nat) (addr target : BitVec 128) (body : List Byte), port < 2 → s.clocks.tripStop = false →
    (∃ t, exec (.mgPortUp port) s = .next t ∧ mgUp t port = true ∧ t = { s with dict := t.dict }) ∧
    (mgUp s port = false → exec (.neighborDiscovery port addr target) s = .next s ∧
      exec (.icmpv6Echo port addr target body) s = .next s) ∧
    (mgUp s port = true → ownAddress s port target = false →
      exec (.neighborDiscovery port addr target) s = .next (odCount s 0x1F00 0x26 0 32) ∧
      exec (.icmpv6Echo port addr target body) s = .next (odCount s 0x1F00 0x26 0 32)) ∧
    (mgUp s port = true → ownAddress s port target = true →
      (∃ t m, exec (.neighborDiscovery port addr target) s = .next t ∧ t = { s with outputs := t.outputs } ∧
        t.outputs = s.outputs ++ [.datagram port addr 0 m] ∧ leAt m 0 1 = 136 ∧ slice m 26 6 = leBytes 6 (od s 0x1F00 0x03 port)) ∧
      (∃ t m, exec (.icmpv6Echo port addr target body) s = .next t ∧ t = { s with outputs := t.outputs } ∧
        t.outputs = s.outputs ++ [.datagram port addr 0 m] ∧ leAt m 0 1 = 129 ∧ m.drop 4 = body)) ∧
    ownAddress s port (linkLocal s port) = true)

/-- GET, TABLE_GET, BULK_READ and BULK_READ_DATAGRAM complete: a GET answers its items in order, an entry's value padded to 4 bytes
or the reason code of one that may not be read; TABLE_GET answers the count and the elements, or MG-0x0C beyond the table; a
BULK_READ is taken up without an answer of its own, and its datagrams, counted in the rate and sent to where it came from, carry
their offset and data, the last without MORE; a series asked for again goes in the same way; what exceeds the payload limit is
refused with MG-0x06 (R367, R370, R372). NOTIFY completes: a changed target is notified under the session's next NSEQ with the
subscription's number and the value in force, not sooner than the interval after the last; an unchanged one, or a session whose
NSEQ is used up, sends nothing; events go at most 40 at a time (R365, R369). A subscription or a session that is not there sends
nothing. -/
def Obligations.ManagementReads : Prop :=
  (∀ (s : State) (d : Dgram) (slot : Nat) (x : Session) (pl : List Byte),
    (Asks s d 1 1 true slot x pl → pl.length % 4 = 0 → pl.length ≤ 256 →
      (∀ it ∈ pieces 4 pl.length pl, leAt it 3 1 ≤ 1) →
      let r := (pieces 4 pl.length pl).foldl (getItem x.role) ([], served s)
      (r.1.length ≤ payloadLimit x → exec (.get d) s = .next (answered slot x d (reply r.2 0 r.1))) ∧
      (payloadLimit x < r.1.length → exec (.get d) s = .next (answered slot x d (refuse (served s) (mg 0x06))))) ∧
    (Asks s d 1 1 true slot x pl → pl.length % 4 ≠ 0 →
      exec (.get d) s = .next (answered slot x d (refuse (served s) (mg 0x06)))) ∧
    (∀ role (a : List Byte × State) it, leAt it 3 1 = 0 →
      (∀ e, findEntry (leAt it 0 2) (leAt it 2 1) = some e → a.2.boot.devState ≠ 0 → e.table = false →
        getItem role a it = (a.1 ++ [0, 0] ++
          leBytes 2 (valueBytes e (odView a.2 (leAt it 0 2) (leAt it 2 1) 0)).length ++
          pad4 (valueBytes e (odView a.2 (leAt it 0 2) (leAt it 2 1) 0)), a.2)) ∧
      (findEntry (leAt it 0 2) (leAt it 2 1) = none → a.2.boot.devState ≠ 0 → leAt it 0 2 < 0x7000 →
        getItem role a it = (a.1 ++ leBytes 2 (mg 0x01) ++ [0, 0], a.2))) ∧
    (∀ e, Asks s d 3 1 false slot x pl → pl.length = 10 → leAt pl 3 1 = 0 → findEntry (leAt pl 0 2) (leAt pl 2 1) = some e →
      (leAt pl 4 4 + leAt pl 8 2 ≤ entryCount e → ¬ (leAt pl 0 2 = 0x1E00 ∧ leAt pl 2 1 = 0x10) →
        let v := (range (leAt pl 4 4) (leAt pl 8 2)).flatMap (fun k =>
          pad4 (valueBytes e (odView (served s) (leAt pl 0 2) (leAt pl 2 1) k)))
        v.length + 4 ≤ payloadLimit x →
          exec (.tableGet d) s = .next (answered slot x d (reply (served s) 0 ([0, 0] ++ leBytes 2 (leAt pl 8 2) ++ v)))) ∧
      (entryCount e < leAt pl 4 4 + leAt pl 8 2 →
        exec (.tableGet d) s = .next (answered slot x d (reply (served s) (mg 0x0C) (leBytes 2 (mg 0x0C) ++ [0, 0]))))) ∧
    (∀ e k, Asks s d 9 1 false slot x pl → pl.length = 16 → leAt pl 0 1 = 0 → targetKey pl 0 = some k →
      findEntry (k / 256) (k % 256) = some e → leAt pl 4 8 + leAt pl 12 4 ≤ entryCount e →
      (served s).mgmt.sessions.find? slot = some x →
      ∃ t, exec (.bulkRead d) s = .next t ∧ t.outputs = (idleOut s).outputs ∧ t.dict = (idleOut s).dict ∧
        t.mgmt.bulk = (idleOut s).mgmt.bulk ++
          [{ slot := slot, seq := mdpSeq d, gen := x.renewals, port := d.port, addr := d.addr, udp := d.udp, again := none,
             key := some k, next := leAt pl 4 8, left := leAt pl 12 4, ofs := 0, sent := 0 }] ∧
        ∃ y, t.mgmt.sessions.find? slot = some y ∧ y.seq = mdpSeq d) ∧
    (s.mgmt.bulk = [] → exec .bulkReadDatagram s = .next s) ∧
    (∀ b bs, s.clocks.tripStop = false → s.mgmt.bulk = b :: bs → s.mgmt.sessions.find? b.slot = some x →
      (rateSpent s = true → exec .bulkReadDatagram s = .next s) ∧
      (rateSpent s = false → b.again = none → ∃ t, exec .bulkReadDatagram s = .next t ∧
        t = { s with mgmt := t.mgmt, outputs := t.outputs } ∧ t.mgmt.reqCount ≠ 0 ∧
        t.mgmt.bulk = (if bulkOver s (bulkData s x b).2 then bs else (bulkData s x b).2 :: bs) ∧
        t.outputs = s.outputs ++ [.datagram b.port b.addr b.udp (responseBytes s x b.seq 9 0
          (renewDue x.seq x.nseq + if bulkOver s (bulkData s x b).2 then 0 else 4) (leBytes 4 b.ofs ++ (bulkData s x b).1))]) ∧
      (∀ y ys, rateSpent s = false → b.again = some (y :: ys) → y ≠ [] → ∃ t, exec .bulkReadDatagram s = .next t ∧
        t = { s with mgmt := t.mgmt, outputs := t.outputs } ∧ t.mgmt.sessions = s.mgmt.sessions ∧
        t.mgmt.bulk = (if ys = [] then bs else { b with again := some ys } :: bs) ∧
        t.outputs = s.outputs ++ [.datagram b.port b.addr b.udp y])) ∧
    (∀ b bs, s.clocks.tripStop = false → s.mgmt.bulk = b :: bs → s.mgmt.sessions.find? b.slot = none →
      exec .bulkReadDatagram s = .next { s with mgmt := { s.mgmt with bulk := bs } }) ∧
    (∀ b, (bulkData s x b).1.length ≤ (if x.enc then 1368 else 1376))) ∧
  (∀ (s : State) (slot sub : Nat) (x : Session) (k : Subscription), slot < 32 → sub < 16 →
    (s.mgmt.sessions.find? slot = none → exec (.notify slot sub) s = .next s) ∧
    (s.mgmt.sessions.find? slot = some x → (x.subs.find? sub = none ∨ mgUp s x.port = false) →
      exec (.notify slot sub) s = .next s) ∧
    (s.clocks.tripStop = false → s.mgmt.sessions.find? slot = some x → x.subs.find? sub = some k → mgUp s x.port = true →
    (targetNow s k.key k.elem = k.sent ∨ x.nseq = 0xFFFFFFFF ∨ (k.last ≠ 0 ∧ s.counter.gt + 1 < k.last + k.interval) →
      exec (.notify slot sub) s = .next s) ∧
    (targetNow s k.key k.elem ≠ k.sent → x.nseq ≠ 0xFFFFFFFF → (k.last = 0 ∨ k.last + k.interval ≤ s.counter.gt + 1) →
      ∃ t, exec (.notify slot sub) s = .next t ∧ t = { s with mgmt := t.mgmt, outputs := t.outputs } ∧
        t.mgmt = { s.mgmt with sessions := t.mgmt.sessions } ∧
        t.outputs = s.outputs ++ [.datagram x.port x.addr x.udp (mdpSeal x.sendKeys 2 (renewDue x.seq (x.nseq + 1)) 0 x.sid.toNat 0 0
          (x.nseq + 1) s.counter.gt (leBytes 4 sub ++ (notifyBody s k).1))] ∧
        ∃ y, t.mgmt.sessions.find? slot = some y ∧ y.nseq = x.nseq + 1 ∧ y = { x with nseq := y.nseq, subs := y.subs } ∧
          y.subs.find? sub = some { k with last := s.counter.gt + 1, sent := (notifyBody s k).2 })) ∧
    (k.key = none → (notifyBody s k).1.length ≤ 40 * 32) ∧
    (∀ key e, k.key = some key → findEntry (key / 256) (key % 256) = some e →
      notifyBody s k = (pad4 (valueBytes e (targetNow s k.key k.elem)), targetNow s k.key k.elem)))

/-- SET and TABLE_SET complete: where every write passes its check all are stored in order and each answers 0; where any fails none
is stored, those that fail answer their own codes and the others MG-0x10 (R355, R368). -/
def Obligations.ManagementWrites : Prop :=
  ∀ (s : State) (d : Dgram) (slot : Nat) (x : Session) (pl : List Byte),
    (∀ items, Asks s d 2 2 false slot x pl → setItems pl.length pl = some items →
      let ws := items.flatMap itemWrites
      let r := applyWrites (served s) x ws
      (2 * items.length ≤ payloadLimit x → exec (.set d) s = .next (answered slot x d
        (reply r.1 (firstBad (itemCodes items r.2)) ((itemCodes items r.2).flatMap (leBytes 2))))) ∧
      ((∀ w ∈ checkWrites (served s) x ws, w = 0) →
        r.1 = ws.foldl (fun s w => storeElem (sessionOwner x) s w.index w.sub w.elem (leNat w.value)) (served s) ∧
        ∀ c ∈ r.2, c = 0) ∧
      ((∃ c ∈ checkWrites (served s) x ws, c ≠ 0) →
        r.2 = (checkWrites (served s) x ws).map (fun c => if c = 0 then mg 0x10 else c) ∧
        ∀ index sub k, index ≠ 0x1E00 → sub < 256 → k < 2 ^ 32 → od r.1 index sub k = od (served s) index sub k)) ∧
    (Asks s d 2 2 false slot x pl → setItems pl.length pl = none →
      exec (.set d) s = .next (answered slot x d (refuse (served s) (mg 0x06)))) ∧
    (∀ e, Asks s d 4 2 false slot x pl → leAt pl 3 1 = 0 → findEntry (leAt pl 0 2) (leAt pl 2 1) = some e →
      10 ≤ pl.length → pl.length = 10 + leAt pl 8 2 * e.size →
      let ws := (List.range (leAt pl 8 2)).map (fun k =>
        ({ index := leAt pl 0 2, sub := leAt pl 2 1, elem := leAt pl 4 4 + k,
           value := (pl.drop (10 + k * e.size)).take e.size } : Write))
      ((∀ c ∈ checkWrites (served s) x ws, c = 0) →
        exec (.tableSet d) s = .next (answered slot x d (reply
          (ws.foldl (fun s w => storeElem (sessionOwner x) s w.index w.sub w.elem (leNat w.value)) (served s)) 0
          (List.replicate 8 0)))) ∧
      (∀ c ws1 w ws2, ws = ws1 ++ w :: ws2 → (∀ b ∈ (checkWrites (served s) x ws).take ws1.length, b = 0) →
        (checkWrites (served s) x ws)[ws1.length]? = some c → c ≠ 0 → c ≠ mg 0x10 →
        ∃ st, exec (.tableSet d) s = .next (answered slot x d (reply st c (leBytes 2 c ++ [0, 0] ++ leBytes 4 w.elem))) ∧
          ∀ index sub k, index ≠ 0x1E00 → sub < 256 → k < 2 ^ 32 → od st index sub k = od (served s) index sub k)) ∧
    (∀ (w : Write) e, findEntry w.index w.sub = some e → w.elem < entryCount e →
      (w.value.length ≠ e.size → checkWrite s x w = mg 0x05) ∧
      (w.value.length = e.size → valueOk s e w.index w.sub w.elem (leNat w.value) = true →
        ((e.acc = .const ∨ e.acc = .ro) → checkWrite s x w = mg 0x02) ∧
        (accessRefused e x.role w.elem = false → x.role < writeRole e → checkWrite s x w = mg 0x03) ∧
        (accessRefused e x.role w.elem = false → writeRole e ≤ x.role → principalEntry e = false → (e.acc = .rws ∨ e.acc = .hw) →
          checkWrite s x w = if owns s (guardOf w.index w.sub w.elem) (sessionOwner x) then 0 else mg 0x04)))

/-- SEM_ACQ, SEM_REL, SUBSCRIBE and NOOP complete: SEM_ACQ acquires or renews for the session's owner id and answers the semaphore's
word, but in SINGLE mode MG-0x0F without the manager of record's principal; SEM_REL frees what the session owns, else answers
MG-0x04; SUBSCRIBE adds the lowest free number up to 16, then MG-0x0D, or removes one; NOOP changes nothing (R367, R369, R374). -/
def Obligations.SemaphoresAndSubscriptions : Prop :=
  ∀ (s : State) (d : Dgram) (slot : Nat) (x : Session) (pl : List Byte),
    (Asks s d 5 2 false slot x pl → pl.length = 1 →
      (leAt pl 0 1 < 64 → (od (served s) 0x1F00 0x0C ≠ 1 ∨ leAt pl 0 1 = 0 ∨ recordHolder (served s) x = true) →
        exec (.semAcq d) s = .next (answered slot x d (reply (semAcquire (served s) (leAt pl 0 1) (sessionOwner x)) 0
          (leBytes 8 (semWord (semAcquire (served s) (leAt pl 0 1) (sessionOwner x)) (leAt pl 0 1) (sessionOwner x)).toNat)))) ∧
      (leAt pl 0 1 < 64 → od (served s) 0x1F00 0x0C = 1 → leAt pl 0 1 ≠ 0 → recordHolder (served s) x = false →
        ∃ w, exec (.semAcq d) s = .next (answered slot x d (reply (served s) (mg 0x0F) (leBytes 8 w))) ∧ w < 2 ^ 63) ∧
      (64 ≤ leAt pl 0 1 → exec (.semAcq d) s = .next (answered slot x d (refuse (served s) (mg 0x05))))) ∧
    (Asks s d 6 2 false slot x pl → pl.length = 1 → leAt pl 0 1 < 64 →
      (owns (served s) (leAt pl 0 1) (sessionOwner x) = true →
        ∃ t, exec (.semRel d) s = .next (answered slot x d (statusOnly t 0)) ∧ semNow t (leAt pl 0 1) = none ∧
          t = { served s with sems := t.sems }) ∧
      (owns (served s) (leAt pl 0 1) (sessionOwner x) = false →
        exec (.semRel d) s = .next (answered slot x d (statusOnly (odCount (served s) 0x1800 0x06 0 32) (mg 0x04))))) ∧
    (Asks s d 7 1 false slot x pl → pl.length = 20 → leAt pl 1 3 = 0 →
      (∀ k e, leAt pl 0 1 = 1 → leAt pl 4 1 = 0 → targetKey pl 4 = some k → findEntry (k / 256) (k % 256) = some e →
        leAt pl 8 4 < entryCount e →
        (16 ≤ x.subs.length → exec (.subscribe d) s = .next (answered slot x d (refuse (served s) (mg 0x0D)))) ∧
        (∀ n, x.subs.length < 16 → n < 16 → x.subs.find? n = none → (∀ m, m < n → x.subs.find? m ≠ none) →
          (served s).mgmt.sessions.find? slot = some x →
          ∃ t, exec (.subscribe d) s = .next (answered slot x d (reply t 0 (leBytes 4 n))) ∧
            t = { served s with mgmt := t.mgmt } ∧ ∃ y, t.mgmt.sessions.find? slot = some y ∧
            y = { x with subs := y.subs } ∧ (∀ m, m ≠ n → y.subs.find? m = x.subs.find? m) ∧
            y.subs.find? n = some { key := some k, elem := leAt pl 8 4, interval := leAt pl 12 8, last := 0,
                                    sent := targetNow (served s) (some k) (leAt pl 8 4) })) ∧
      (leAt pl 0 1 = 2 → leAt pl 4 1 = 1 → (∀ e ∈ x.subs, e.2.key ≠ none) →
        exec (.subscribe d) s = .next (answered slot x d (refuse (served s) (mg 0x05))))) ∧
    (Asks s d 12 1 false slot x [] → exec (.noop d) s = .next (answered slot x d (reply (served s) 0 [0, 0])))

/-- OPEN, RENEW, CLOSE, SESSION_END, PRINCIPAL_END and SESSION_IDLE_TIMEOUT complete: a valid OPEN makes a session with fresh keys
and answers OPEN_REPLY, or is refused MG-0x0A or EY-0x01, dropped on a repeated nonce, counted on a wrong MAC; RENEW gives new
keys and restarts SEQ and NSEQ; the others end sessions, whose semaphores are freed (R359 to R366, R371). -/
def Obligations.ManagementSessions : Prop :=
  (∀ (s : State) (d : Dgram) (kp : List Byte), Reaches s d → dictReady s = true →
    let i := leAt (mdpBody d) 0 1
    let r := idleOut s
    (mdpKind d ≠ 3 ∨ mdpLen d ≠ 40 ∨ mdpSession d ≠ 0 ∨ mdpSeq d ≠ 0 ∨ 16 ≤ i ∨ principalKey r i = none ∨
        principalRole r i = 0 → exec (.openSession d) s = .next (odCount r 0x1F00 0x21 0 32)) ∧
    (mdpKind d = 3 → mdpLen d = 40 → mdpSession d = 0 → mdpSeq d = 0 → i < 16 → principalKey r i = some kp → macHolds kp d = false →
      exec (.openSession d) s = .next (odCount r 0x1F00 0x21 0 32)) ∧
    (mdpKind d = 3 → mdpLen d = 40 → mdpSession d = 0 → mdpSeq d = 0 → i < 16 → principalKey r i = some kp →
      principalRole r i ≠ 0 → macHolds kp d = true →
      let nc := slice (mdpBody d) 8 32
      (nc ∈ r.mgmt.nonces → exec (.openSession d) s = .next r) ∧
      (nc ∉ r.mgmt.nonces → 32 ≤ r.mgmt.sessions.length → exec (.openSession d) s = .next (openRefused r d kp i (mg 0x0A))) ∧
      (nc ∉ r.mgmt.nonces → r.mgmt.sessions.length < 32 → entropyUp r = false →
        exec (.openSession d) s = .next (openRefused r d kp i (reasonCode .ey 0x01))) ∧
      (∀ slot, nc ∉ r.mgmt.nonces → r.mgmt.sessions.length < 32 → entropyUp r = true → slot < 32 →
        r.mgmt.sessions.find? slot = none → (∀ m, m < slot → r.mgmt.sessions.find? m ≠ none) →
        ∃ t x nd, exec (.openSession d) s = .next t ∧ t = { r with dict := t.dict, mgmt := t.mgmt, outputs := t.outputs, free := t.free } ∧
          t.mgmt.sessions.find? slot = some x ∧ (∀ m, m ≠ slot → t.mgmt.sessions.find? m = r.mgmt.sessions.find? m) ∧
          x.principal = i ∧ x.role = principalRole r i ∧ x.enc = (leAt (mdpBody d) 1 1).testBit 0 ∧ x.seq = 0 ∧ x.nseq = 0 ∧
          bits x.sid 11 0 = (sessionNumber r).1 ∧ nd.length = 32 ∧ nc ∈ t.mgmt.nonces ∧ t.mgmt.nonces.length ≤ 64 ∧
          x.kmac = Crypto.hmac kp (ascii "MDPMAC01" ++ nc ++ nd ++ leBytes 4 x.sid.toNat) ∧
          x.kenc = Crypto.hmac kp (ascii "MDPENC01" ++ nc ++ nd ++ leBytes 4 x.sid.toNat) ∧
          t.outputs = r.outputs ++ [.datagram d.port d.addr d.udp (mdpSeal { mac := x.kmac, enc := none } 4 0 0 x.sid.toNat 0 0 0
            s.counter.gt (openPayload i x.role x.enc nd))] ∧
          (∀ n, 1 ≤ n → n ≤ 4095 → n ∉ r.mgmt.used → (∀ m, 1 ≤ m → m < n → m ∈ r.mgmt.used) →
            (sessionNumber r).1 = n ∧ n ∈ t.mgmt.used)))) ∧
  (∀ (s : State) (d : Dgram) (slot : Nat) (x : Session) (pl : List Byte),
    (Asks s d 10 1 false slot x pl → pl.length = 40 → leAt pl 0 1 = x.principal → leAt pl 1 1 ≤ 1 → leAt pl 2 6 = 0 →
      (entropyUp (served s) = false →
        exec (.renew d) s = .next (answered slot x d (refuse (served s) (reasonCode .ey 0x01)))) ∧
      (∀ kp, entropyUp (served s) = true → principalKey (served s) x.principal = some kp →
        (idleOut s).mgmt.sessions.find? slot = some x →
        ∃ t y nd, exec (.renew d) s = .next t ∧ nd.length = 32 ∧ t.mgmt.sessions.find? slot = some y ∧
          y.kmac = Crypto.hmac kp (ascii "MDPMAC01" ++ slice pl 8 32 ++ nd ++ leBytes 4 x.sid.toNat) ∧
          y.kenc = Crypto.hmac kp (ascii "MDPENC01" ++ slice pl 8 32 ++ nd ++ leBytes 4 x.sid.toNat) ∧
          y.seq = 0 ∧ y.nseq = 0 ∧ y.renewals = x.renewals + 1 ∧ y.sid = x.sid ∧ y.role = x.role ∧ y.subs = x.subs ∧ t.sems = (idleOut s).sems ∧
          t.outputs = (idleOut s).outputs ++ [.datagram d.port d.addr d.udp
            (answerBytes s x d 0 (openPayload x.principal x.role x.enc nd))])) ∧
    (Asks s d 11 1 false slot x [] →
      exec (.close d) s = .next (answered slot x d (reply (endSession (served s) slot) 0 [0, 0]))) ∧
    (∀ n, Asks s d 8 3 false slot x pl → pl.length = 6 → leAt pl 0 2 = 0x1F01 → leAt pl 2 2 = 2 → leAt pl 4 2 = n →
      (∀ e, List.find? (fun (e : Nat × Session) => bits e.2.sid 11 0 == n) (served s).mgmt.sessions = some e →
        exec (.sessionEnd d) s = .next (answered slot x d (reply (endSession (served s) e.1) 0 [0, 0]))) ∧
      ((∀ e ∈ (served s).mgmt.sessions, bits e.2.sid 11 0 ≠ n) →
        exec (.sessionEnd d) s = .next (answered slot x d (reply (served s) (mg 0x08) (leBytes 2 (mg 0x08)))))) ∧
    (Asks s d 8 1 false slot x pl → pl.length < 2 →
      exec (.sessionEnd d) s = .next (answered slot x d (refuse (served s) (mg 0x06)))) ∧
    (Asks s d 8 1 false slot x pl → 2 ≤ pl.length → leAt pl 0 2 ∉ execCodes →
      exec (.sessionEnd d) s = .next (answered slot x d (refuse (served s) (mg 0x13)))) ∧
    (Asks s d 8 3 false slot x pl → pl.length = 5 → leAt pl 0 2 = 0x1F02 → leAt pl 2 2 = 1 →
      exec (.principalEnd d) s = .next (answered slot x d (reply (endPrincipal (served s) (leAt pl 4 1)) 0 [0, 0]))) ∧
    (slot < 32 → s.mgmt.sessions.find? slot = none → exec (.sessionIdleTimeout slot) s = .next s) ∧
    (slot < 32 → s.clocks.tripStop = false → s.mgmt.sessions.find? slot = some x →
      (x.last + od s 0x1F00 0x09 ≤ s.counter.gt → exec (.sessionIdleTimeout slot) s = .next (endSession s slot)) ∧
      (s.counter.gt < x.last + od s 0x1F00 0x09 → exec (.sessionIdleTimeout slot) s = .next s)) ∧
    (s.mgmt.sessions.find? slot = some x →
      let t := endSession s slot
      t.mgmt.sessions.find? slot = none ∧ (∀ m, m ≠ slot → t.mgmt.sessions.find? m = s.mgmt.sessions.find? m) ∧
        (∀ n k, t.sems.find? n = some k → k.owner ≠ sessionOwner x) ∧ t = { s with mgmt := t.mgmt, sems := t.sems } ∧
        (∀ e ∈ s.sems, e.2.owner ≠ sessionOwner x → e ∈ t.sems)))

/-- RESET, LC_ADVANCE, OTP_WRITE, BOOT_WRITE, BOOT_GO and FLASH_WRITE complete: RESET answers and then asserts its level, or 0x03
for one that does not exist; LC_ADVANCE starts the write of the next state's intent record, or answers 0x03; OTP_WRITE starts
the write of a record that its state permits, 0x04 and EXHAUSTED without a blank generation; boot data goes to the boot buffer,
GO verifies it, and the running bundle goes to a flash slot (R387, R398, R399, R401). -/
def Obligations.ManagementCommands : Prop :=
  ∀ (s : State) (d : Dgram) (slot : Nat) (x : Session) (pl : List Byte), leAt pl 2 2 = pl.length - 4 →
    let r := served s
    let arg := pl.drop 4
    let results := fun (st : State) (v : Nat) => answered slot x d (reply st 0 ([0, 0, 0, 0] ++ leBytes 1 v))
    (∀ level target, Asks s d 8 1 false slot x pl → leAt pl 0 2 = 0x1201 → pl.length = 8 → leAt arg 0 1 = level →
      resetRole level ≤ x.role →
      (resetResult r level (leAt arg 1 1) (leAt arg 2 2) = (0, target) →
        exec (.reset d) s = .next (assertReset 8 level target (odCount (results r 0) 0x1200 0x03 8 32))) ∧
      (level = 0 ∨ 6 < level → exec (.reset d) s = .next (results r 3)) ∧
      (level = 5 → (8 ≤ leAt arg 1 1 ∨ shapeOf r (leAt arg 1 1) = 0) → exec (.reset d) s = .next (results r 1)) ∧
      (level = 6 → blockExists r (leAt arg 2 2) = true → blockIdle r (leAt arg 2 2) = false →
        exec (.reset d) s = .next (results r 2))) ∧
    (∀ level, Asks s d 8 1 false slot x pl → leAt pl 0 2 = 0x1201 → pl.length = 8 → leAt arg 0 1 = level → x.role < resetRole level →
      exec (.reset d) s = .next (answered slot x d (refuse r (mg 0x03)))) ∧
    (∀ n, Asks s d 8 3 false slot x pl → leAt pl 0 2 = 0x1202 → pl.length = 5 → leAt arg 0 1 = n →
      (n ≠ lcState r + 1 ∨ 4 < n → exec (.lcAdvance d) s = .next (results r 3)) ∧
      (n = lcState r + 1 → n ≤ 4 → r.power.aonFault = false → otpBusy r = false →
        (∀ g, blankGen r (0x10 + (n - 1)) = some g →
          ∃ t, exec (.lcAdvance d) s = .next (results t 0) ∧ t = { r with boot := t.boot } ∧
            t.boot = { r.boot with writing := t.boot.writing } ∧ t.boot.writing = 
              some ⟨0x10 + (n - 1), g, lcData (0x10 + (n - 1)), 2, some (0x18 + (n - 1))⟩) ∧
        (blankGen r (0x10 + (n - 1)) = none →
          ∃ t, exec (.lcAdvance d) s = .next (results t 4) ∧ 0x10 + (n - 1) ∈ t.boot.exhausted ∧
            t = { r with boot := t.boot } ∧
              t.boot = { r.boot with exhausted := t.boot.exhausted }))) ∧
    (∀ n v, Asks s d 8 3 false slot x pl → leAt pl 0 2 = 0x1203 → pl.length = 37 → leAt arg 0 1 = n → leAt arg 1 32 = v →
      (otpNamed n = true → otpWritable n (lcState r) = false →
        exec (.otpWrite d) s = .next (answered slot x d (refuse r (mg 0x12)))) ∧
      (n = 8 → otpWritable n (lcState r) = true → v < svnMin r →
        exec (.otpWrite d) s = .next (answered slot x d (refuse r (mg 0x05)))) ∧
      (otpWritable n (lcState r) = true → (n = 8 → v ≤ 63 ∧ svnMin r ≤ v) → otpNamed n = true →
        (r.power.aonFault = true → exec (.otpWrite d) s = .next (results r 5)) ∧
        (r.power.aonFault = false → otpBusy r = false →
          (∀ g, blankGen r n = some g →
            ∃ t, exec (.otpWrite d) s = .next (results t 0) ∧ t = { r with boot := t.boot } ∧
              t.boot = { r.boot with writing := t.boot.writing } ∧ t.boot.writing = some ⟨n, g, BitVec.ofNat 256 v, 2, none⟩) ∧
          (blankGen r n = none →
            ∃ t, exec (.otpWrite d) s = .next (results t 4) ∧ n ∈ t.boot.exhausted ∧
              t = { r with boot := t.boot } ∧
              t.boot = { r.boot with exhausted := t.boot.exhausted })))) ∧
    (Asks s d 8 3 true slot x pl → leAt pl 0 2 = 0x1301 → 8 ≤ pl.length → leAt arg 0 4 + (pl.length - 8) ≤ 16777216 →
      s.boot.devState ≠ 2 →
      ∃ t, exec (.bootWrite d) s = .next (answered slot x d (reply t 0 [0, 0])) ∧ t = { r with boot := t.boot } ∧
        t.boot = { r.boot with buffer := t.boot.buffer } ∧
        (∀ i, i < pl.length - 8 → some (t.boot.buffer.read (leAt arg 0 4 + i)) = pl[8 + i]?) ∧
        (∀ o, o < leAt arg 0 4 ∨ leAt arg 0 4 + (pl.length - 8) ≤ o → t.boot.buffer.read o = r.boot.buffer.read o)) ∧
    (Asks s d 8 3 true slot x pl → leAt pl 0 2 = 0x1302 → pl.length = 4 →
      (s.boot.devState = 0 → exec (.bootGo d) s = .next (results (verifyBuffer r) (verifyBuffer r).boot.result)) ∧
      (s.boot.devState ≠ 0 → exec (.bootGo d) s = .next (results r r.boot.result))) ∧
    (∀ k, Asks s d 8 3 true slot x pl → leAt pl 0 2 = 0x1303 → pl.length = 5 → leAt arg 0 1 = k →
      (1 < k → exec (.flashWrite d) s = .next (answered slot x d (refuse r (mg 0x05)))) ∧
      (k ≤ 1 → r.boot.running ≠ [] → slotOfs r k + r.boot.running.length ≤ r.boot.flashSize →
        ∃ t, exec (.flashWrite d) s = .next (answered slot x d (reply t 0 [0, 0])) ∧ t = { r with boot := t.boot } ∧
          t.boot = { r.boot with flash := t.boot.flash } ∧
          (∀ i, i < r.boot.running.length → some (t.boot.flash.read (slotOfs r k + i)) = r.boot.running[i]?) ∧
          (∀ o, o < slotOfs r k → t.boot.flash.read o = r.boot.flash.read o)))

/-- RESET_SOURCE_ASSERT, RESET_SOURCE_DEASSERT, FUNCTION_LEVEL_RESET, WARDEN_WATCHDOG_EXPIRE and KEEPER_WATCHDOG_EXPIRE complete: an
assertion is counted and, unless the source map ignores it, asserts the level that the map gives its source, after a pulse in
progress, even where it has ended by then; a function's reset frees its semaphores and unbinds its queues; the last source that
deasserts starts an episode's release at the first step of its level (R265, R385, R386, R388, R389); a port whose PERST rises
late trains then, which is the model's choice (log 44). -/
def Obligations.ResetSources : Prop :=
  ∀ (s : State) (source fn : Nat), source ≤ 10 →
    (exec (.resetSourceAssert 8 fn) s = .next s) ∧
    (source ≠ 8 → source ≠ 10 → srcMap s source = 0xFF →
      exec (.resetSourceAssert source fn) s = .next (odCount (setSourcePin s source false) 0x1200 0x03 source 32)) ∧
    (source ≠ 8 → source ≠ 10 → srcMap s source ≠ 0xFF → s.boot.writing = none →
      exec (.resetSourceAssert source fn) s =
        .next (odCount (assertLevel source (srcMap s source) 0 (setSourcePin s source false)) 0x1200 0x03 source 32)) ∧
    (source ≠ 8 → source ≠ 10 → srcMap s source ≠ 0xFF → s.boot.writing ≠ none →
      ∃ t, exec (.resetSourceAssert source fn) s = .next t ∧ t.boot.deferred = s.boot.deferred ++
        [{ source := source, level := srcMap s source, target := 0, released := false }] ∧
        t.episodes = s.episodes ∧ t = { setSourcePin s source false with dict := t.dict, boot := t.boot } ∧
        t.boot = { s.boot with deferred := t.boot.deferred }) ∧
    (exec .wardenWatchdogExpire s = exec (.resetSourceAssert 6 0) s) ∧
    (exec .keeperWatchdogExpire s = exec (.resetSourceAssert 7 0) s) ∧
    (isFnId fn = true → exec (.functionLevelReset fn) s = exec (.resetSourceAssert 10 fn) s ∧
      (srcMap s 10 = 0xFF ∨ fn % 0x1000 = 0 → exec (.functionLevelReset fn) s = .next (odCount (fnReset s fn) 0x1200 0x03 10 32)) ∧
      (∀ n k, (fnReset s fn).sems.find? n = some k → k.owner ≠ fn) ∧
      (∀ p q, p < 8 → q < 4 → queueOwner (s.part p) q = fn → keeperQueue s p q = false →
        (((fnReset s fn).part p).sq q).cfg = 0)) ∧
    (∃ t, exec (.resetSourceDeassert source fn) s = .next t ∧
      t = { setSourcePin s source true with episodes := t.episodes, boot := t.boot, dict := t.dict } ∧
      t.boot = { s.boot with
        releaseGt := t.boot.releaseGt,
        deferred := s.boot.deferred.map (fun d =>
          if d.source = source ∧ (source ≠ 10 ∨ d.target = fn % 4096 - 1) then { d with released := true } else d) } ∧
      (source ≠ 4 → source ≠ 5 → t.dict = s.dict) ∧
      (source = 4 ∨ source = 5 → s.episodes = [] → od s 0x1800 0x02 (source - 4) = 0 → od t 0x1800 0x02 (source - 4) = 1) ∧
      t.episodes.length = s.episodes.length ∧
      ∀ e ∈ s.episodes,
        (if source ≠ 10 ∨ e.level ≤ 2 ∨ e.target = fn % 4096 - 1 then e.deassert source else e) ∈ t.episodes) ∧
    (∀ e : Episode, e.sources = [source] → e.deassert source = { e with sources := [], running := true, step := match e.level with
      | 0 => 0 | 1 => 0 | 2 => 2 | _ => 9 })

/-- The effects of the levels that reach the whole package: the data and control planes return to their state after reset at each;
L2 keeps the stored dictionary, memory, sessions and logs; L1 keeps OTP, the event log and the counter; L0 keeps OTP, flash, the
trip record and the pins; a POR is an L0 without the trip record (the model's choice, log 89). The episode is shown and counted,
and every episode in progress is absorbed (R347, R383, R384, R388, R404). The effects of the narrower levels: an assertion joins
the episode of its target or starts one, which is counted; L3 resets every function of its port, L4 takes its partition to OFF
without a job, an L5 acts at its release; L4_RELEASE and L5_RELEASE complete and end an episode that no source holds (R383,
R388, R393, R394). -/
def Obligations.ResetEffects : Prop :=
  ((∀ s : State, (assertLevel 0 0 0 s).thermal.record = List.replicate 16 0 ∧
    assertLevel 0 0 0 s = assertWide 0 0 { s with thermal := { s.thermal with record := List.replicate 16 0 } }) ∧
  ∀ (s : State) (level source : Nat), level ≤ 2 → source ≤ 10 →
    let t := assertWide level source s
    (∃ e, t.episodes = [e] ∧ e.target = 0 ∧ e.running = false ∧ e.step = 0 ∧ source ∈ e.sources ∧ e.level ≤ level ∧
      (∀ f ∈ s.episodes, (∀ k ∈ f.sources, k ∈ e.sources) ∧ (f.level ≤ 2 → e.level ≤ f.level)) ∧
      od t 0x1200 0x01 = e.level ∧ od t 0x1200 0x02 = e.seen.toNat) ∧
    (∀ p, p < 8 → t.part p = Part.init) ∧ t.engines = [] ∧ t.sync = [] ∧ t.links = [] ∧ t.inForce = [] ∧ t.breach = 0 ∧
    (∀ n k, t.sems.find? n = some k → k.owner / 4096 = 4) ∧ t.clocks.locked = false ∧ t.boot.otp = s.boot.otp ∧
    t.boot.flash = s.boot.flash ∧ t.thermal.record = s.thermal.record ∧ t.outputs = s.outputs ∧ t.pending = s.pending ∧
    (s.episodes = [] →
      (level = 2 → t.mgmt = s.mgmt ∧ t.events = s.events ∧ t.counter = s.counter ∧ t.boot.devState = min s.boot.devState 1 ∧
        (∀ p, p < 8 → shapeOf t p = shapeOf s p) ∧ od t 0x1200 0x0B = min (od s 0x1200 0x0B + 1) (2 ^ 64 - 1)) ∧
      (level = 1 → t.mgmt = State.reset.mgmt ∧ t.events = s.events ∧ t.marks = s.marks ∧ t.counter.gt = s.counter.gt ∧
        t.objects = [] ∧ t.frames = [] ∧ t.boot.devState = 0 ∧ (∀ p, p < 8 → shapeOf t p = 0)) ∧
      (level = 0 → t.mgmt = State.reset.mgmt ∧ t.events = [] ∧ t.counter = State.reset.counter ∧ t.objects = [] ∧
        t.boot.devState = 0 ∧ t.pins.alertN = true ∧ t.pins.thermtripN = true))) ∧
  (∀ (s : State) (source target : Nat), source ≤ 10 →
    (s.episodes = [] →
      (∀ level, level = 3 ∨ level = 4 → ∃ t, assertLevel source level 0 s = t ∧
        t.episodes.map (fun e => (e.level, e.target, e.sources)) = [(level, 0, [source])] ∧ od t 0x1800 0x02 (level - 3) = 0 ∧
        (∀ n k, n < 9 → t.sems.find? k ≠ none → (t.sems.find? k).map (·.owner) ≠ some (fnId (level - 3) n)) ∧
        (∀ n, n < 9 → t.fns.find? (fnId (level - 3) n) = none)) ∧
      (target < 8 → ∃ t, assertLevel source 5 target s = t ∧
        t.episodes.map (fun e => (e.level, e.target, e.sources)) = [(5, target, [source])] ∧
        (t.part target).state = .off ∧ (t.part target).job = none ∧ (t.part target).drained = none) ∧
      (∃ t, assertLevel source 6 target s = t ∧ t = { s with episodes := t.episodes, dict := t.dict } ∧
        t.episodes.map (fun e => (e.level, e.target, e.sources)) = [(6, target, [source])] ∧
        od t 0x1200 0x0B = min (od s 0x1200 0x0B + 1) (2 ^ 64 - 1))) ∧
    (∀ e level, 3 ≤ level → level ≤ 6 → s.episodes = [e] → (e.level ≤ 2 ∨ e.level = level ∧ e.target = target) →
      ∃ f, (assertLevel source level target s).episodes = [f] ∧ f.level = e.level ∧ f.running = false ∧ source ∈ f.sources ∧
        (∀ k ∈ e.sources, k ∈ f.sources)) ∧
    (isPart target = true →
      (∀ e, s.episodes = [e] → e.level = 5 → e.target = target → e.sources = [] →
        exec (.l4Release target) s = .next { s with episodes := [] }) ∧
      ((∀ e ∈ s.episodes, ¬ (e.level = 5 ∧ e.target = target ∧ e.sources = [])) → exec (.l4Release target) s = .next s)) ∧
    (blockExists s target = true →
      (∀ e, s.episodes = [e] → e.level = 6 → e.target = target → e.sources = [] →
        exec (.l5Release target) s = .next (effectsL5 { s with episodes := [] } target)) ∧
      ((∀ e ∈ s.episodes, ¬ (e.level = 6 ∧ e.target = target ∧ e.sources = [])) → exec (.l5Release target) s = .next s)) ∧
    (∀ e, target / 4096 = 1 → e = target % 4096 → EngineBecomes e Engine.init s (effectsL5 s target)) ∧
    (∀ l, target / 4096 = 4 → l = target % 4096 → l < 14 →
      ((effectsL5 s target).link l).txSeq = 0 ∧ ((effectsL5 s target).link l).replay = [] ∧
        od (effectsL5 s target) (0x3000 + 0x20 * l) 0x01 = 2))

/-- RELEASE_STEP completes: the episode's next step is released with its effect where its condition holds, and nothing happens where
it does not; step 2 samples the straps, 4 waits for the clock, 5 starts the training firmware, which then shows its version, 7
writes tier 0 to zero, 10 waits for PERST and releases the ports where it is high, and the last ends the episode (R28, R390,
R391, R395; log 44). OTP_PULSE_END completes: the first pulse leaves the data, the second the marker, after which a read gives
the data; a life-cycle intent record is followed by its state record, unless VDD_AON has had a fault; an assertion that waited
takes effect, and is released at once where its source has deasserted, and abandons the write, whose generation is then neither
blank nor marked (R330, R388, R389, R399 to R401). -/
def Obligations.ReleaseSequence : Prop :=
  (∀ (s : State) (e : Episode), s.episodes = [e] →
    ((s.clocks.tripStop = true ∨ e.running = false ∨ 4 < e.level ∨ (2 < e.step + 1 ∧ lastStep s < e.step + 1) ∨
        (e.step = 3 ∧ s.clocks.locked = false ∧ s.clocks.clkMode ≠ 1) ∨ (e.step = 9 ∧ perstHigh s e.level = false)) →
      exec .releaseStep s = .next s) ∧
    (∀ n, s.clocks.tripStop = false → e.running = true → e.level ≤ 2 → n = e.step + 1 → 1 ≤ n → n ≤ 12 → (n ≤ 2 ∨ n ≤ lastStep s) →
      (n = 4 → s.clocks.locked = true ∨ s.clocks.clkMode = 1) → (n = 10 → s.pins.perstAN = true ∨ s.pins.perstBN = true) →
      ∃ t, exec .releaseStep s = .next t ∧ (n < 12 → ∃ f, t.episodes = [f] ∧ f = { e with step := n }) ∧
        (n = 12 → t.episodes = [] ∧ od t 0x1700 0x01 0 = 1 ∧ od t 0x1700 0x01 1 = 1) ∧
        (n = 1 ∨ n = 4 ∨ n = 8 → t = { s with episodes := t.episodes }) ∧
        (n = 2 → t.clocks.clkMode = s.pins.clkMode ∧ t.clocks.bootSel = s.pins.bootSel ∧ t.boot.map = otpRead s 0x02 ∧
          od t 0x1100 0x02 = s.pins.clkMode.toNat) ∧
        (n = 3 → t.clocks.pllOn = (s.clocks.clkMode != 1)) ∧
        (n = 5 → od t 0x1000 0x13 = s.boot.memFw.getD (od s 0x1000 0x10) ∧
          ∀ k, k < 8 → stackFitted s.boot.assembly k = true → od t (0x5010 + k) 0x01 = 1) ∧
        (n = 7 → ∀ c x, (c, x) ∈ t.cells → x.tier0 = Mem.zero) ∧
        (n = 10 → od t 0x1800 0x02 0 = (if s.pins.perstAN = true then 1 else od s 0x1800 0x02 0) ∧
          od t 0x1800 0x02 1 = (if s.pins.perstBN = true then 1 else od s 0x1800 0x02 1)) ∧
        (n = 11 → t.counter.waitFrom = some s.counter.gt ∧
          ∀ l, l < 14 → linkFitted s l = true → od t (0x3000 + 0x20 * l) 0x01 = 1)) ∧
    (∀ n, s.clocks.tripStop = false → e.running = true → (e.level = 3 ∨ e.level = 4) → e.step = 9 → n = e.level - 3 → 10 ≤ lastStep s → perstHigh s e.level = true →
      ∃ t, exec .releaseStep s = .next t ∧ t.episodes = [] ∧ od t 0x1800 0x02 n = 1)) ∧
  (∀ (s : State) (w : OtpWrite), (s.boot.writing = none → exec .otpPulseEnd s = .next s) ∧
    (s.boot.writing = some w → s.boot.deferred = [] →
      (w.pulses = 2 → ∃ t, exec .otpPulseEnd s = .next t ∧ t = { s with boot := t.boot } ∧
        otpGen t w.record w.gen = { otpGen s w.record w.gen with data := w.data } ∧ t.boot.writing = some { w with pulses := 1 } ∧
        t.boot = { s.boot with otp := t.boot.otp, writing := t.boot.writing }) ∧
      (w.pulses = 1 → w.then_ = none → w.gen < 4 → (otpGen s w.record w.gen).bad = false →
        (∀ g, g < 4 → w.gen < g → (otpGen s w.record g).marked = false) →
        ∃ t, exec .otpPulseEnd s = .next t ∧ t.boot.writing = none ∧ otpRead t w.record = w.data ∧
          (∀ r g, g < 4 → ¬ (r = w.record ∧ g = w.gen) → otpGen t r g = otpGen s r g)) ∧
      (∀ r, w.pulses = 1 → w.then_ = some r → s.power.aonFault = true →
        ∃ t, exec .otpPulseEnd s = .next t ∧ t = { s with boot := t.boot } ∧ t.boot.writing = none) ∧
      (∀ r g, w.pulses = 1 → w.then_ = some r → s.power.aonFault = false → r ≠ w.record → w.gen < 4 → blankGen s r = some g →
        ∃ t, exec .otpPulseEnd s = .next t ∧ (otpGen t w.record w.gen).marked = true ∧
          t.boot.writing = some ⟨r, g, lcData r, 2, none⟩)) ∧
    (∀ d, s.boot.writing = some w → w.pulses = 2 → s.boot.deferred = [d] → d.level ≤ 2 → w.gen < 4 →
      ∃ t, exec .otpPulseEnd s = .next t ∧ t.boot.writing = none ∧ t.boot.deferred = [] ∧
        (d.released = false → ∃ e, t.episodes = [e] ∧ d.source ∈ e.sources ∧ e.running = false) ∧
        (d.released = true → s.episodes = [] → ∃ e, t.episodes = [e] ∧ e.sources = [] ∧ e.running = true) ∧
        (w.data ≠ 0 → (otpGen s w.record w.gen).isBlank = true →
          (otpGen t w.record w.gen).isBlank = false ∧ (otpGen t w.record w.gen).marked = false)))

/-- FIRMWARE_VERIFY, DDR5_TRAINING_DONE, HBM_INITIALISATION_DONE, PCIE_TRAINING_DONE and DEV_STATE_ACCEPTING complete: a bundle is
accepted only with its warden and keeper images, from the buffer or slot A and then B; a unit that trains goes in service with
its capacity or out of it, no stack with an external root; ACCEPTING needs every condition of R392, releases the boot buffer and
records START_MS (R26, R180, R296, R384, R392, R397, R398). -/
def Obligations.BootAndTraining : Prop :=
  (∀ (s : State), romReady s = false → exec .firmwareVerify s = .next s) ∧
  (∀ (s : State), s.clocks.tripStop = false → romReady s = true → s.boot.result = 1 →
    let ms := fwImages s (readBuffer s) 4096 0
    ∃ t, exec .firmwareVerify s = .next t ∧
      (bundleOk ms = true → t.boot.result = 2 ∧ t.boot.devState = 1 ∧ t.boot.running = readBuffer s 0 (bundleLen ms)) ∧
      (bundleOk ms = false → t.boot.result = 3 ∧ t.boot.devState = 0 ∧ t.boot.running = s.boot.running)) ∧
  (∀ (s : State), s.clocks.tripStop = false → romReady s = true → s.boot.result ≠ 1 → s.clocks.bootSel = 0 → s.boot.waiting = false →
    let a := fwImages s (readSlot s 0) 4096 0
    ∃ t, exec .firmwareVerify s = .next t ∧
      (bundleOk a = true → t.boot.devState = 1 ∧ t.boot.running = readSlot s 0 0 (bundleLen a) ∧ od t 0x1300 0x01 = 0) ∧
      (bundleOk a = false → bundleOk (fwImages s (readSlot s 1) 4096 0) = false → t.boot.devState = 0 ∧ t.boot.waiting = true)) ∧
  (∀ ms : List FwImage, bundleOk ms = true →
    ∃ m ∈ ms, ∃ n ∈ ms, m.type = 1 ∧ m.result = 1 ∧ n.type = 2 ∧ n.result = 1) ∧
  (∀ (s : State) (ch : Nat), ch < numChannels s.boot.assembly → ch < 24 →
    (od s (0x5000 + ch) 0x01 ≠ 1 → ∀ ok, exec (.ddr5TrainingDone ch ok) s = .next s) ∧
    (derivedRun s = true → od s (0x5000 + ch) 0x01 = 1 →
      (∃ t, exec (.ddr5TrainingDone ch true) s = .next t ∧ od t (0x5000 + ch) 0x01 = 2 ∧
        od t (0x5000 + ch) 0x02 = (if Config.module128 ch then 128000000000 else 64000000000) ∧ t = { s with dict := t.dict }) ∧
      (∃ t, exec (.ddr5TrainingDone ch false) s = .next t ∧ od t (0x5000 + ch) 0x01 = 3))) ∧
  (∀ (s : State) (k : Nat), k < 8 → stackFitted s.boot.assembly k = true →
    (derivedRun s = true → s.clocks.clkMode ≠ 1 → od s (0x5010 + k) 0x01 = 1 → ∃ t, exec (.hbmInitialisationDone k) s = .next t ∧ od t (0x5010 + k) 0x01 = 2 ∧
      od t (0x5010 + k) 0x02 = (if s.boot.assembly = 5 then 16000000000 else 24000000000) ∧ t = { s with dict := t.dict }) ∧
    ((od s (0x5010 + k) 0x01 ≠ 1 ∨ s.clocks.clkMode = 1) → exec (.hbmInitialisationDone k) s = .next s)) ∧
  (∀ (s : State) (port gen width : Nat), port < 2 →
    (derivedRun s = true → od s 0x1800 0x02 port = 1 → ∃ t, exec (.pcieTrainingDone port gen width) s = .next t ∧ od t 0x1800 0x02 port = 2 ∧
      od t 0x1800 0x03 port = gen % 16 * 16 + Nat.log2 width ∧ t = { s with dict := t.dict }) ∧
    (od s 0x1800 0x02 port ≠ 1 → exec (.pcieTrainingDone port gen width) s = .next s)) ∧
  (∀ (s : State), s.clocks.tripStop = false → mayAccept s = true → ∃ t, exec .devStateAccepting s = .next t ∧ t.boot.devState = 2 ∧ t.boot.buffer = Mem.zero ∧
    od t 0x1300 0x05 = (s.counter.gt - s.boot.releaseGt) / 100000) ∧
  (∀ (s : State), (s.boot.devState ≠ 1 ∨ wideEpisode s ≠ none ∨ s.boot.keepersOk = false ∨ trained s = false ∨
    (s.counter.acquired = false ∧ s.counter.waitOver = false ∧ od s 0x1C00 0x21 ≠ 0)) → exec .devStateAccepting s = .next s)
end

