-- ==== Sys2Proof/Laws/Assoc.lean ====
section
/-! SUPPORT. What reading a sparse table or a byte memory gives after an update, and that every update keeps the canonical
form. -/
namespace Sys2Proof.Machine

namespace Assoc
variable {α : Type}

@[simp] theorem find?_insert_same (m : Assoc α) (k : Nat) (v : α) : (m.insert k v).find? k = some v := by
  induction m with
  | nil => simp [insert, find?]
  | cons e m ih =>
    obtain ⟨a, b⟩ := e
    simp only [insert]
    split
    · simp [find?]
    · split
      · simp [find?]
      · rename_i h
        simp [find?, h, ih]

@[simp] theorem find?_insert_ne (m : Assoc α) {k j : Nat} (v : α) (h : j ≠ k) : (m.insert k v).find? j = m.find? j := by
  induction m with
  | nil => simp [insert, find?, h]
  | cons e m ih =>
    obtain ⟨a, b⟩ := e
    simp only [insert]
    split
    · simp [find?, h]
    · split
      · rename_i h2; subst h2; simp [find?, h]
      · simp only [find?, ih]

@[simp] theorem find?_erase_same (m : Assoc α) (k : Nat) : (m.erase k).find? k = none := by
  induction m with
  | nil => simp [erase, find?]
  | cons e m ih =>
    obtain ⟨a, b⟩ := e
    simp only [erase]
    split
    · exact ih
    · rename_i h; simp [find?, h, ih]

@[simp] theorem find?_erase_ne (m : Assoc α) {k j : Nat} (h : j ≠ k) : (m.erase k).find? j = m.find? j := by
  induction m with
  | nil => simp [erase]
  | cons e m ih =>
    obtain ⟨a, b⟩ := e
    simp only [erase]
    split
    · rename_i h2; subst h2; simp [find?, h, ih]
    · simp only [find?, ih]

@[simp] theorem get_set_same [DecidableEq α] (d : Nat → α) (m : Assoc α) (k : Nat) (v : α) :
    get d (set d m k v) k = v := by
  unfold get set
  split
  · rename_i h; simp [h]
  · simp

@[simp] theorem get_set_ne [DecidableEq α] (d : Nat → α) (m : Assoc α) {k j : Nat} (v : α) (h : j ≠ k) :
    get d (set d m k v) j = get d m j := by
  unfold get set
  split
  · simp [h]
  · simp [h]

/-- A read of a table that has been updated, at any key. -/
theorem get_set [DecidableEq α] (d : Nat → α) (m : Assoc α) (k j : Nat) (v : α) :
    get d (set d m k v) j = if j = k then v else get d m j := by
  split
  · rename_i h; subst h; simp
  · rename_i h; simp [h]

/-! ### The canonical form -/

theorem sortedFrom_weaken {m : Assoc α} {lo : Option Nat} {k : Nat} (h : sortedFrom (some k) m = true)
    (hlo : above lo k = true) : sortedFrom lo m = true := by
  cases m with
  | nil => rfl
  | cons e m =>
    obtain ⟨a, b⟩ := e
    simp only [sortedFrom, Bool.and_eq_true, above, decide_eq_true_eq] at h ⊢
    refine ⟨?_, h.2⟩
    cases lo with
    | none => rfl
    | some l => simp [above] at hlo ⊢; omega

theorem sortedFrom_insert {m : Assoc α} (lo : Option Nat) (k : Nat) (v : α) (h : sortedFrom lo m = true)
    (hk : above lo k = true) : sortedFrom lo (m.insert k v) = true := by
  induction m generalizing lo with
  | nil => simp [insert, sortedFrom, hk]
  | cons e m ih =>
    obtain ⟨a, b⟩ := e
    simp only [sortedFrom, Bool.and_eq_true] at h
    simp only [insert]
    split
    · rename_i hka
      simp only [sortedFrom, hk, h.2, Bool.true_and, Bool.and_true]
      simpa [above] using hka
    · split
      · rename_i h2; subst h2
        simp [sortedFrom, h.1, h.2]
      · rename_i h1 h2
        simp only [sortedFrom, Bool.and_eq_true]
        exact ⟨h.1, ih (some a) h.2 (by simp [above]; omega)⟩

theorem sortedFrom_erase {m : Assoc α} (lo : Option Nat) (k : Nat) (h : sortedFrom lo m = true) :
    sortedFrom lo (m.erase k) = true := by
  induction m generalizing lo with
  | nil => simpa [erase] using h
  | cons e m ih =>
    obtain ⟨a, b⟩ := e
    simp only [sortedFrom, Bool.and_eq_true] at h
    simp only [erase]
    split
    · exact ih lo (sortedFrom_weaken h.2 h.1)
    · simp only [sortedFrom, Bool.and_eq_true]
      exact ⟨h.1, ih (some a) h.2⟩

/-- An update keeps the keys strictly rising. -/
theorem sorted_set [DecidableEq α] (d : Nat → α) {m : Assoc α} (k : Nat) (v : α) (h : sorted m = true) :
    sorted (set d m k v) = true := by
  unfold set
  split
  · exact sortedFrom_erase none k h
  · exact sortedFrom_insert none k v h rfl

theorem all_insert {m : Assoc α} {p : Nat × α → Bool} {k : Nat} {v : α} (h : m.all p = true) (hv : p (k, v) = true) :
    (m.insert k v).all p = true := by
  induction m with
  | nil => simp [insert, hv]
  | cons e m ih =>
    obtain ⟨a, b⟩ := e
    simp only [List.all_cons, Bool.and_eq_true] at h
    simp only [insert]
    split
    · simp [hv, h.1, h.2]
    · split
      · simp [hv, h.2]
      · simp [h.1, ih h.2]

theorem all_erase {m : Assoc α} {p : Nat × α → Bool} {k : Nat} (h : m.all p = true) : (m.erase k).all p = true := by
  induction m with
  | nil => simp [erase]
  | cons e m ih =>
    obtain ⟨a, b⟩ := e
    simp only [List.all_cons, Bool.and_eq_true] at h
    simp only [erase]
    split
    · exact ih h.2
    · simp [h.1, ih h.2]

end Assoc

/-! ### Byte memories -/

namespace Mem

/-- A byte reads back as it was written. -/
@[simp] theorem read_write_same (m : Mem) (a : Nat) (b : Byte) : (m.write a b).read a = b := by
  simp [read, write]

/-- A write leaves every other byte alone. -/
@[simp] theorem read_write_ne (m : Mem) {a j : Nat} (b : Byte) (h : j ≠ a) : (m.write a b).read j = m.read j := by
  simp [read, write, h]

@[simp] theorem write_bad (m : Mem) (a : Nat) (b : Byte) : (m.write a b).bad = m.bad := rfl
@[simp] theorem write_fill (m : Mem) (a : Nat) (b : Byte) : (m.write a b).fill = m.fill := rfl

/-- A write keeps the canonical form. -/
theorem write_wf {m : Mem} (a : Nat) (b : Byte) (h : m.wf = true) : (m.write a b).wf = true := by
  unfold wf write at *
  simp only [Bool.and_eq_true] at h ⊢
  refine ⟨Assoc.sorted_set _ _ _ h.1, ?_⟩
  unfold Assoc.set
  split
  · exact Assoc.all_erase h.2
  · rename_i hb
    exact Assoc.all_insert h.2 (by simpa using hb)

/-- A write of several bytes keeps the canonical form. -/
theorem writeN_wf (size : Nat) (bs : List Byte) {m : Mem} (a : Nat) (h : m.wf = true) : (m.writeN size a bs).wf = true := by
  induction bs generalizing m a with
  | nil => exact h
  | cons b bs ih => exact ih (a + 1) (write_wf _ b h)

theorem zero_wf : Mem.zero.wf = true := rfl
theorem undef_wf (n : Nat) : (Mem.undef n).wf = true := rfl

@[simp] theorem writeN_fill (size : Nat) (bs : List Byte) (m : Mem) (a : Nat) : (m.writeN size a bs).fill = m.fill := by
  induction bs generalizing m a with
  | nil => rfl
  | cons b bs ih => simp [writeN, ih]

/-- Bytes written below an address leave it alone (no wrap). -/
theorem read_writeN_lt (bs : List Byte) (m : Mem) {a j : Nat} (h : j < a) : (m.writeN 0 a bs).read j = m.read j := by
  induction bs generalizing m a with
  | nil => rfl
  | cons b bs ih =>
    simp only [writeN, if_true]
    rw [ih _ (by omega), read_write_ne _ _ (by omega)]

/-- Bytes past the end of a write are left alone (no wrap). -/
theorem read_writeN_ge (bs : List Byte) (m : Mem) {a j : Nat} (h : a + bs.length ≤ j) :
    (m.writeN 0 a bs).read j = m.read j := by
  induction bs generalizing m a with
  | nil => rfl
  | cons b bs ih =>
    simp only [writeN, if_true, List.length_cons] at h ⊢
    rw [ih _ (by omega), read_write_ne _ _ (by omega)]

/-- Bytes read back as they were written (no wrap). -/
theorem readN_writeN (bs : List Byte) (m : Mem) (a : Nat) : (m.writeN 0 a bs).readN 0 a bs.length = bs := by
  induction bs generalizing m a with
  | nil => rfl
  | cons b bs ih =>
    simp only [writeN, if_true, List.length_cons, readN]
    rw [read_writeN_lt _ _ (by omega), read_write_same, ih]

end Mem
end Sys2Proof.Machine
end

