-- ==== Sys2Proof/Laws/Exec.lean ====
section
/-! SUPPORT. Each command runs its own meaning: one equation per arm, so that no proof unfolds the whole dispatch. -/
namespace Sys2Proof.Machine

@[simp] theorem exec_nop (cell : Nat) (s : State) : exec (.nop cell) s = execNop cell s := rfl
@[simp] theorem exec_endFiring (cell : Nat) (s : State) : exec (.endFiring cell) s = execEndFiring cell s := rfl
@[simp] theorem exec_emit (cell : Nat) (s : State) : exec (.emit cell) s = execEmit cell s := rfl
@[simp] theorem exec_select (cell : Nat) (s : State) : exec (.select cell) s = execSelect cell s := rfl
@[simp] theorem exec_smovi (cell : Nat) (s : State) : exec (.smovi cell) s = execSmovi cell s := rfl
@[simp] theorem exec_salu (cell : Nat) (s : State) : exec (.salu cell) s = execSalu cell s := rfl
@[simp] theorem exec_scmp (cell : Nat) (s : State) : exec (.scmp cell) s = execScmp cell s := rfl
@[simp] theorem exec_pmov (cell : Nat) (s : State) : exec (.pmov cell) s = execPmov cell s := rfl
@[simp] theorem exec_opld (cell : Nat) (s : State) : exec (.opld cell) s = execOpld cell s := rfl
@[simp] theorem exec_tagrd (cell : Nat) (s : State) : exec (.tagrd cell) s = execTagrd cell s := rfl
@[simp] theorem exec_spld (cell : Nat) (s : State) : exec (.spld cell) s = execSpld cell s := rfl
@[simp] theorem exec_spst (cell : Nat) (s : State) : exec (.spst cell) s = execSpst cell s := rfl
@[simp] theorem exec_chadraw (cell : Nat) (s : State) : exec (.chadraw cell) s = execChadraw cell s := rfl
@[simp] theorem exec_entdraw (cell : Nat) (s : State) : exec (.entdraw cell) s = execEntdraw cell s := rfl
@[simp] theorem exec_gtread (cell : Nat) (s : State) : exec (.gtread cell) s = execGtread cell s := rfl
@[simp] theorem exec_nrgread (cell : Nat) (s : State) : exec (.nrgread cell) s = execNrgread cell s := rfl
@[simp] theorem exec_syadd (cell : Nat) (s : State) : exec (.syadd cell) s = execSyadd cell s := rfl
@[simp] theorem exec_symax (cell : Nat) (s : State) : exec (.symax cell) s = execSymax cell s := rfl
@[simp] theorem exec_sywait (cell : Nat) (s : State) : exec (.sywait cell) s = execSywait cell s := rfl
@[simp] theorem exec_syrd (cell : Nat) (s : State) : exec (.syrd cell) s = execSyrd cell s := rfl
@[simp] theorem exec_syset (cell : Nat) (s : State) : exec (.syset cell) s = execSyset cell s := rfl
@[simp] theorem exec_syarr (cell : Nat) (s : State) : exec (.syarr cell) s = execSyarr cell s := rfl
@[simp] theorem exec_xpread (cell : Nat) (s : State) : exec (.xpread cell) s = execXpread cell s := rfl
@[simp] theorem exec_stld (cell : Nat) (s : State) : exec (.stld cell) s = execStld cell s := rfl
@[simp] theorem exec_stst (cell : Nat) (s : State) : exec (.stst cell) s = execStst cell s := rfl
@[simp] theorem exec_flow (cell : Nat) (s : State) : exec (.flow cell) s = execFlow cell s := rfl
@[simp] theorem exec_stin (cell : Nat) (s : State) : exec (.stin cell) s = execStin cell s := rfl
@[simp] theorem exec_stidx (cell : Nat) (s : State) : exec (.stidx cell) s = execStidx cell s := rfl
@[simp] theorem exec_stptr (cell : Nat) (s : State) : exec (.stptr cell) s = execStptr cell s := rfl
@[simp] theorem exec_swap (cell : Nat) (s : State) : exec (.swap cell) s = execSwap cell s := rfl
@[simp] theorem exec_sandbag (cell : Nat) (s : State) : exec (.sandbag cell) s = execSandbag cell s := rfl
@[simp] theorem exec_stwait (cell : Nat) (s : State) : exec (.stwait cell) s = execStwait cell s := rfl
@[simp] theorem exec_mldw (cell : CellRead) (s : State) : exec (.mldw cell) s = execMldw cell s := rfl
@[simp] theorem exec_mmul (cell : CellRead) (s : State) : exec (.mmul cell) s = execMmul cell s := rfl
@[simp] theorem exec_macc (cell : CellRead) (s : State) : exec (.macc cell) s = execMacc cell s := rfl
@[simp] theorem exec_mmulProbe (cell : CellRead) (s : State) : exec (.mmulProbe cell) s = execMmulProbe cell s := rfl
@[simp] theorem exec_mout (cell : Nat) (s : State) : exec (.mout cell) s = execMout cell s := rfl
@[simp] theorem exec_manchSetMode (cell : Nat) (s : State) : exec (.manchSetMode cell) s = execManchSetMode cell s := rfl
@[simp] theorem exec_manchReadProbe (cell : Nat) (s : State) : exec (.manchReadProbe cell) s = execManchReadProbe cell s := rfl
@[simp] theorem exec_manchReadStatus (cell : Nat) (s : State) : exec (.manchReadStatus cell) s = execManchReadStatus cell s := rfl
@[simp] theorem exec_vcfg (cell : Nat) (s : State) : exec (.vcfg cell) s = execVcfg cell s := rfl
@[simp] theorem exec_vrun (cell : CellRead) (s : State) : exec (.vrun cell) s = execVrun cell s := rfl
@[simp] theorem exec_vrunt (cell : CellRead) (s : State) : exec (.vrunt cell) s = execVrunt cell s := rfl
@[simp] theorem exec_vstatRead (cell : Nat) (s : State) : exec (.vstatRead cell) s = execVstatRead cell s := rfl
@[simp] theorem exec_vstatLast (cell : Nat) (s : State) : exec (.vstatLast cell) s = execVstatLast cell s := rfl
@[simp] theorem exec_vstatReadClear (cell : Nat) (s : State) : exec (.vstatReadClear cell) s = execVstatReadClear cell s := rfl
@[simp] theorem exec_tokenInject (cell : Nat) (s : State) : exec (.tokenInject cell) s = execTokenInject cell s := rfl
@[simp] theorem exec_flitArrive (flit : FlitRead) (s : State) : exec (.flitArrive flit) s = execFlitArrive flit s := rfl
@[simp] theorem exec_tokenMatch (cell : Nat) (s : State) : exec (.tokenMatch cell) s = execTokenMatch cell s := rfl
@[simp] theorem exec_firingSelect (cell : Nat) (s : State) : exec (.firingSelect cell) s = execFiringSelect cell s := rfl
@[simp] theorem exec_dwellEnd (cell : Nat) (s : State) : exec (.dwellEnd cell) s = execDwellEnd cell s := rfl
@[simp] theorem exec_foldSwitchDone (cell : Nat) (s : State) : exec (.foldSwitchDone cell) s = execFoldSwitchDone cell s := rfl
@[simp] theorem exec_flowFlitInject (cell : CellRead) (route : Nat) (s : State) : exec (.flowFlitInject cell route) s = execFlowFlitInject cell route s := rfl
@[simp] theorem exec_flowHeadArrive (cell : Nat) (s : State) : exec (.flowHeadArrive cell) s = execFlowHeadArrive cell s := rfl
@[simp] theorem exec_flowFlitLand (cell : Nat) (s : State) : exec (.flowFlitLand cell) s = execFlowFlitLand cell s := rfl
@[simp] theorem exec_chainSourceRead (cell : CellRead) (s : State) : exec (.chainSourceRead cell) s = execChainSourceRead cell s := rfl
@[simp] theorem exec_chainFlitArrive (cell : Nat) (s : State) : exec (.chainFlitArrive cell) s = execChainFlitArrive cell s := rfl
@[simp] theorem exec_localStreamStart (cell : Nat) (s : State) : exec (.localStreamStart cell) s = execLocalStreamStart cell s := rfl
@[simp] theorem exec_localStreamWordWrite (cell : CellRead) (s : State) : exec (.localStreamWordWrite cell) s = execLocalStreamWordWrite cell s := rfl
@[simp] theorem exec_localStreamEnd (cell : Nat) (s : State) : exec (.localStreamEnd cell) s = execLocalStreamEnd cell s := rfl
@[simp] theorem exec_engineFetch (engine : Nat) (s : State) : exec (.engineFetch engine) s = execEngineFetch engine s := rfl
@[simp] theorem exec_engineWordArrive (engine : Nat) (word : WordRead) (s : State) : exec (.engineWordArrive engine word) s = execEngineWordArrive engine word s := rfl
@[simp] theorem exec_wordRelease (engine : Nat) (s : State) : exec (.wordRelease engine) s = execWordRelease engine s := rfl
@[simp] theorem exec_egressHeadArrive (engine : Nat) (s : State) : exec (.egressHeadArrive engine) s = execEgressHeadArrive engine s := rfl
@[simp] theorem exec_egressFlitArrive (engine : Nat) (s : State) : exec (.egressFlitArrive engine) s = execEgressFlitArrive engine s := rfl
@[simp] theorem exec_outfallWrite (engine : Nat) (culvert : EccResult) (s : State) : exec (.outfallWrite engine culvert) s = execOutfallWrite engine culvert s := rfl
@[simp] theorem exec_matrixOpDone (cell : Nat) (s : State) : exec (.matrixOpDone cell) s = execMatrixOpDone cell s := rfl
@[simp] theorem exec_tileQueuePush (cell : Nat) (s : State) : exec (.tileQueuePush cell) s = execTileQueuePush cell s := rfl
@[simp] theorem exec_vcfgLoadDone (cell : Nat) (s : State) : exec (.vcfgLoadDone cell) s = execVcfgLoadDone cell s := rfl
@[simp] theorem exec_vectorRunDone (cell : Nat) (s : State) : exec (.vectorRunDone cell) s = execVectorRunDone cell s := rfl
@[simp] theorem exec_syncOpAct (part : Nat) (s : State) : exec (.syncOpAct part) s = execSyncOpAct part s := rfl
@[simp] theorem exec_syncResultReturn (cell : Nat) (s : State) : exec (.syncResultReturn cell) s = execSyncResultReturn cell s := rfl
@[simp] theorem exec_syncWaitDone (cell : Nat) (s : State) : exec (.syncWaitDone cell) s = execSyncWaitDone cell s := rfl
@[simp] theorem exec_syncWaitTimeout (cell : Nat) (s : State) : exec (.syncWaitTimeout cell) s = execSyncWaitTimeout cell s := rfl
@[simp] theorem exec_jobEnd (part : Nat) (s : State) : exec (.jobEnd part) s = execJobEnd part s := rfl
@[simp] theorem exec_fcLimitReached (part : Nat) (s : State) : exec (.fcLimitReached part) s = execFcLimitReached part s := rfl
@[simp] theorem exec_launchStateRestoreDone (part : Nat) (s : State) : exec (.launchStateRestoreDone part) s = execLaunchStateRestoreDone part s := rfl
@[simp] theorem exec_paceStepApply (s : State) : exec .paceStepApply s = execPaceStepApply s := rfl
@[simp] theorem exec_breachRaise (data ctrl mgmt : Option (BitVec 16)) (s : State) : exec (.breachRaise data ctrl mgmt) s = execBreachRaise data ctrl mgmt s := rfl
@[simp] theorem exec_rootPllLock (s : State) : exec .rootPllLock s = execRootPllLock s := rfl
@[simp] theorem exec_rootPllLockLoss (s : State) : exec .rootPllLockLoss s = execRootPllLockLoss s := rfl
@[simp] theorem exec_mirrorUpdate (index sub element : Nat) (s : State) : exec (.mirrorUpdate index sub element) s = execMirrorUpdate index sub element s := rfl
@[simp] theorem exec_bar2HwWrite (fn offset : Nat) (value : Word) (s : State) : exec (.bar2HwWrite fn offset value) s = execBar2HwWrite fn offset value s := rfl
@[simp] theorem exec_bar2CollectionTimeout (fn : Nat) (s : State) : exec (.bar2CollectionTimeout fn) s = execBar2CollectionTimeout fn s := rfl
@[simp] theorem exec_hwWriteApply (fn : Nat) (s : State) : exec (.hwWriteApply fn) s = execHwWriteApply fn s := rfl
@[simp] theorem exec_partCtlEnable (src part : Nat) (image : BitVec 16) (s : State) : exec (.partCtlEnable src part image) s = execPartCtlEnable src part image s := rfl
@[simp] theorem exec_partCtlDisable (src part : Nat) (s : State) : exec (.partCtlDisable src part) s = execPartCtlDisable src part s := rfl
@[simp] theorem exec_imageLoadDone (part : Nat) (s : State) : exec (.imageLoadDone part) s = execImageLoadDone part s := rfl
@[simp] theorem exec_checkVerdict (part : Nat) (micros : Nat) (s : State) : exec (.checkVerdict part micros) s = execCheckVerdict part micros s := rfl
@[simp] theorem exec_tier0FillDone (part : Nat) (fill : FillRead) (s : State) : exec (.tier0FillDone part fill) s = execTier0FillDone part fill s := rfl
@[simp] theorem exec_sluiceRecheck (part : Nat) (s : State) : exec (.sluiceRecheck part) s = execSluiceRecheck part s := rfl
@[simp] theorem exec_mcDoorbell (src part tail : Nat) (s : State) : exec (.mcDoorbell src part tail) s = execMcDoorbell src part tail s := rfl
@[simp] theorem exec_alloc (part : Nat) (s : State) : exec (.alloc part) s = execAlloc part s := rfl
@[simp] theorem exec_free (part : Nat) (s : State) : exec (.free part) s = execFree part s := rfl
@[simp] theorem exec_move (part : Nat) (s : State) : exec (.move part) s = execMove part s := rfl
@[simp] theorem exec_clean (part : Nat) (s : State) : exec (.clean part) s = execClean part s := rfl
@[simp] theorem exec_place (part : Nat) (s : State) : exec (.place part) s = execPlace part s := rfl
@[simp] theorem exec_ingest (part : Nat) (s : State) : exec (.ingest part) s = execIngest part s := rfl
@[simp] theorem exec_digest (part : Nat) (s : State) : exec (.digest part) s = execDigest part s := rfl
@[simp] theorem exec_plotCopyDone (part vpn offset : Nat) (ecc : EccResult) (s : State) : exec (.plotCopyDone part vpn offset ecc) s = execPlotCopyDone part vpn offset ecc s := rfl
@[simp] theorem exec_commit (part : Nat) (s : State) : exec (.commit part) s = execCommit part s := rfl
@[simp] theorem exec_ttlTick (s : State) : exec .ttlTick s = execTtlTick s := rfl
@[simp] theorem exec_scrubRead (channel part frame offset : Nat) (ecc : EccResult) (s : State) : exec (.scrubRead channel part frame offset ecc) s = execScrubRead channel part frame offset ecc s := rfl
@[simp] theorem exec_channelOutOfService (channel : Nat) (s : State) : exec (.channelOutOfService channel) s = execChannelOutOfService channel s := rfl
@[simp] theorem exec_sluiceTableApply (part : Nat) (s : State) : exec (.sluiceTableApply part) s = execSluiceTableApply part s := rfl
@[simp] theorem exec_bar4Read (fn offset len : Nat) (s : State) : exec (.bar4Read fn offset len) s = execBar4Read fn offset len s := rfl
@[simp] theorem exec_bar4Write (fn offset : Nat) (data : List Byte) (s : State) : exec (.bar4Write fn offset data) s = execBar4Write fn offset data s := rfl
@[simp] theorem exec_rdmaReadResponse (port : Nat) (head : RdmaHead) (answer : Option (List Byte)) (s : State) : exec (.rdmaReadResponse port head answer) s = execRdmaReadResponse port head answer s := rfl
@[simp] theorem exec_rdmaWriteRecv (port : Nat) (head : RdmaHead) (va : Word) (rkey : BitVec 32) (data : List Byte) (s : State) : exec (.rdmaWriteRecv port head va rkey data) s = execRdmaWriteRecv port head va rkey data s := rfl
@[simp] theorem exec_qpAckTimeout (qp : Nat) (s : State) : exec (.qpAckTimeout qp) s = execQpAckTimeout qp s := rfl
@[simp] theorem exec_ingestPortLoss (port : Nat) (s : State) : exec (.ingestPortLoss port) s = execIngestPortLoss port s := rfl
@[simp] theorem exec_srDoorbell (src part tail : Nat) (s : State) : exec (.srDoorbell src part tail) s = execSrDoorbell src part tail s := rfl
@[simp] theorem exec_start (part : Nat) (s : State) : exec (.start part) s = execStart part s := rfl
@[simp] theorem exec_append (part : Nat) (s : State) : exec (.append part) s = execAppend part s := rfl
@[simp] theorem exec_park (part : Nat) (s : State) : exec (.park part) s = execPark part s := rfl
@[simp] theorem exec_parkMove (part req : Nat) (s : State) : exec (.parkMove part req) s = execParkMove part req s := rfl
@[simp] theorem exec_resume (part : Nat) (s : State) : exec (.resume part) s = execResume part s := rfl
@[simp] theorem exec_resumeMoveDone (part req : Nat) (s : State) : exec (.resumeMoveDone part req) s = execResumeMoveDone part req s := rfl
@[simp] theorem exec_cancel (part : Nat) (s : State) : exec (.cancel part) s = execCancel part s := rfl
@[simp] theorem exec_tree (part : Nat) (s : State) : exec (.tree part) s = execTree part s := rfl
@[simp] theorem exec_serveStepAdmit (part : Nat) (s : State) : exec (.serveStepAdmit part) s = execServeStepAdmit part s := rfl
@[simp] theorem exec_serveStepComplete (part : Nat) (s : State) : exec (.serveStepComplete part) s = execServeStepComplete part s := rfl
@[simp] theorem exec_prefixHash (part : Nat) (cmd : BitVec 512) (s : State) : exec (.prefixHash part cmd) s = execPrefixHash part cmd s := rfl
@[simp] theorem exec_prefixLookup (part : Nat) (cmd : BitVec 512) (s : State) : exec (.prefixLookup part cmd) s = execPrefixLookup part cmd s := rfl
@[simp] theorem exec_prefixInsert (part : Nat) (cmd : BitVec 512) (s : State) : exec (.prefixInsert part cmd) s = execPrefixInsert part cmd s := rfl
@[simp] theorem exec_prefixInval (part : Nat) (cmd : BitVec 512) (s : State) : exec (.prefixInval part cmd) s = execPrefixInval part cmd s := rfl
@[simp] theorem exec_prefixRelease (part : Nat) (cmd : BitVec 512) (s : State) : exec (.prefixRelease part cmd) s = execPrefixRelease part cmd s := rfl
@[simp] theorem exec_sqDoorbell (src part queue tail : Nat) (s : State) : exec (.sqDoorbell src part queue tail) s = execSqDoorbell src part queue tail s := rfl
@[simp] theorem exec_sqCfgWrite (src part queue : Nat) (value : Word) (s : State) : exec (.sqCfgWrite src part queue value) s = execSqCfgWrite src part queue value s := rfl
@[simp] theorem exec_jobTake (part : Nat) (s : State) : exec (.jobTake part) s = execJobTake part s := rfl
@[simp] theorem exec_jobLaunch (part : Nat) (s : State) : exec (.jobLaunch part) s = execJobLaunch part s := rfl
@[simp] theorem exec_stopAck (src part : Nat) (value : Word) (s : State) : exec (.stopAck src part value) s = execStopAck src part value s := rfl
@[simp] theorem exec_preemptRequest (src part : Nat) (value : Word) (s : State) : exec (.preemptRequest src part value) s = execPreemptRequest src part value s := rfl
@[simp] theorem exec_freeze (part : Nat) (s : State) : exec (.freeze part) s = execFreeze part s := rfl
@[simp] theorem exec_cheapPointTimeout (part : Nat) (s : State) : exec (.cheapPointTimeout part) s = execCheapPointTimeout part s := rfl
@[simp] theorem exec_drainDone (part : Nat) (s : State) : exec (.drainDone part) s = execDrainDone part s := rfl
@[simp] theorem exec_refillStart (part : Nat) (ecc : EccResult) (s : State) : exec (.refillStart part ecc) s = execRefillStart part ecc s := rfl
@[simp] theorem exec_refillResume (part : Nat) (s : State) : exec (.refillResume part) s = execRefillResume part s := rfl
@[simp] theorem exec_semReadAcquire (src n : Nat) (s : State) : exec (.semReadAcquire src n) s = execSemReadAcquire src n s := rfl
@[simp] theorem exec_semWriteRelease (src n : Nat) (value : Word) (s : State) : exec (.semWriteRelease src n value) s = execSemWriteRelease src n value s := rfl
@[simp] theorem exec_semLeaseExpire (n : Nat) (s : State) : exec (.semLeaseExpire n) s = execSemLeaseExpire n s := rfl
@[simp] theorem exec_functionLevelReset (fn : Nat) (s : State) : exec (.functionLevelReset fn) s = execFunctionLevelReset fn s := rfl
@[simp] theorem exec_bootCtlGo (fn : Nat) (s : State) : exec (.bootCtlGo fn) s = execBootCtlGo fn s := rfl
@[simp] theorem exec_registerWrite (fn offset : Nat) (value : Word) (s : State) : exec (.registerWrite fn offset value) s = execRegisterWrite fn offset value s := rfl
@[simp] theorem exec_linkFrameSend (link : Nat) (s : State) : exec (.linkFrameSend link) s = execLinkFrameSend link s := rfl
@[simp] theorem exec_linkFrameRecv (link : Nat) (arrival : LinkArrival) (s : State) : exec (.linkFrameRecv link arrival) s = execLinkFrameRecv link arrival s := rfl
@[simp] theorem exec_linkAckSend (link : Nat) (s : State) : exec (.linkAckSend link) s = execLinkAckSend link s := rfl
@[simp] theorem exec_linkReplayTimeout (link : Nat) (s : State) : exec (.linkReplayTimeout link) s = execLinkReplayTimeout link s := rfl
@[simp] theorem exec_linkRetrain (link : Nat) (cause : RetrainCause) (s : State) : exec (.linkRetrain link cause) s = execLinkRetrain link cause s := rfl
@[simp] theorem exec_linkTrainDone (link : Nat) (s : State) : exec (.linkTrainDone link) s = execLinkTrainDone link s := rfl
@[simp] theorem exec_linkDownTimeout (link : Nat) (s : State) : exec (.linkDownTimeout link) s = execLinkDownTimeout link s := rfl
@[simp] theorem exec_syncMsgRecv (link : Nat) (t1 t2 t3 : Int) (s : State) : exec (.syncMsgRecv link t1 t2 t3) s = execSyncMsgRecv link t1 t2 t3 s := rfl
@[simp] theorem exec_delayRespRecv (link : Nat) (t4 : Int) (s : State) : exec (.delayRespRecv link t4) s = execDelayRespRecv link t4 s := rfl
@[simp] theorem exec_launchMsgRecv (link : Nat) (src msg : Nat) (body : List Byte) (s : State) : exec (.launchMsgRecv link src msg body) s = execLaunchMsgRecv link src msg body s := rfl
@[simp] theorem exec_barrierMsgRecv (link : Nat) (src msg : Nat) (plan : Word) (chan : Nat) (s : State) : exec (.barrierMsgRecv link src msg plan chan) s = execBarrierMsgRecv link src msg plan chan s := rfl
@[simp] theorem exec_abortMsgRecv (link : Nat) (src msg : Nat) (plan step : Word) (s : State) : exec (.abortMsgRecv link src msg plan step) s = execAbortMsgRecv link src msg plan step s := rfl
@[simp] theorem exec_breachMsgRecv (link : Nat) (src msg : Nat) (plan step : Word) (s : State) : exec (.breachMsgRecv link src msg plan step) s = execBreachMsgRecv link src msg plan step s := rfl
@[simp] theorem exec_keeperMsgRecv (link : Nat) (src msg mailbox : Nat) (body : List Byte) (s : State) : exec (.keeperMsgRecv link src msg mailbox body) s = execKeeperMsgRecv link src msg mailbox body s := rfl
@[simp] theorem exec_switchPortReset (link : Nat) (frame : List Byte) (s : State) : exec (.switchPortReset link frame) s = execSwitchPortReset link frame s := rfl
@[simp] theorem exec_ctrSyncEdge (rootCycles : Int) (multiple : Word) (s : State) : exec (.ctrSyncEdge rootCycles multiple) s = execCtrSyncEdge rootCycles multiple s := rfl
@[simp] theorem exec_gcTick (n : Nat) (s : State) : exec (.gcTick n) s = execGcTick n s := rfl
@[simp] theorem exec_gcSyncLoss (s : State) : exec .gcSyncLoss s = execGcSyncLoss s := rfl
@[simp] theorem exec_gcHoldoverExpire (s : State) : exec .gcHoldoverExpire s = execGcHoldoverExpire s := rfl
@[simp] theorem exec_firstAcqTimeout (s : State) : exec .firstAcqTimeout s = execFirstAcqTimeout s := rfl
@[simp] theorem exec_transferStart (transfer : TransferRead) (s : State) : exec (.transferStart transfer) s = execTransferStart transfer s := rfl
@[simp] theorem exec_transferArrival (part chan member ofs : Nat) (data : List Byte) (s : State) : exec (.transferArrival part chan member ofs data) s = execTransferArrival part chan member ofs data s := rfl
@[simp] theorem exec_holdRelease (part : Nat) (s : State) : exec (.holdRelease part) s = execHoldRelease part s := rfl
@[simp] theorem exec_holdLimitExpire (part : Nat) (s : State) : exec (.holdLimitExpire part) s = execHoldLimitExpire part s := rfl
@[simp] theorem exec_railPoll (readings : List RailReading) (s : State) : exec (.railPoll readings) s = execRailPoll readings s := rfl
@[simp] theorem exec_vrmAlertAssert (s : State) : exec .vrmAlertAssert s = execVrmAlertAssert s := rfl
@[simp] theorem exec_vrmAlertDeassert (s : State) : exec .vrmAlertDeassert s = execVrmAlertDeassert s := rfl
@[simp] theorem exec_governorEvaluation (activity : List Nat) (staticMw : Nat) (shelfOk : Bool) (busyMw : List (Nat × Nat)) (s : State) : exec (.governorEvaluation activity staticMw shelfOk busyMw) s = execGovernorEvaluation activity staticMw shelfOk busyMw s := rfl
@[simp] theorem exec_governorStepPoint (vout : List Nat) (s : State) : exec (.governorStepPoint vout) s = execGovernorStepPoint vout s := rfl
@[simp] theorem exec_thermalReading (readings : List TempReading) (s : State) : exec (.thermalReading readings) s = execThermalReading readings s := rfl
@[simp] theorem exec_thermalTrip (source unit sensor : Nat) (s : State) : exec (.thermalTrip source unit sensor) s = execThermalTrip source unit sensor s := rfl
@[simp] theorem exec_tripClockStop (s : State) : exec .tripClockStop s = execTripClockStop s := rfl
@[simp] theorem exec_openSession (d : Dgram) (s : State) : exec (.openSession d) s = execOpenSession d s := rfl
@[simp] theorem exec_get (d : Dgram) (s : State) : exec (.get d) s = execGet d s := rfl
@[simp] theorem exec_set (d : Dgram) (s : State) : exec (.set d) s = execSet d s := rfl
@[simp] theorem exec_tableGet (d : Dgram) (s : State) : exec (.tableGet d) s = execTableGet d s := rfl
@[simp] theorem exec_tableSet (d : Dgram) (s : State) : exec (.tableSet d) s = execTableSet d s := rfl
@[simp] theorem exec_semAcq (d : Dgram) (s : State) : exec (.semAcq d) s = execSemAcq d s := rfl
@[simp] theorem exec_semRel (d : Dgram) (s : State) : exec (.semRel d) s = execSemRel d s := rfl
@[simp] theorem exec_subscribe (d : Dgram) (s : State) : exec (.subscribe d) s = execSubscribe d s := rfl
@[simp] theorem exec_sessionEnd (d : Dgram) (s : State) : exec (.sessionEnd d) s = execSessionEnd d s := rfl
@[simp] theorem exec_principalEnd (d : Dgram) (s : State) : exec (.principalEnd d) s = execPrincipalEnd d s := rfl
@[simp] theorem exec_reset (d : Dgram) (s : State) : exec (.reset d) s = execReset d s := rfl
@[simp] theorem exec_lcAdvance (d : Dgram) (s : State) : exec (.lcAdvance d) s = execLcAdvance d s := rfl
@[simp] theorem exec_otpWrite (d : Dgram) (s : State) : exec (.otpWrite d) s = execOtpWrite d s := rfl
@[simp] theorem exec_bootWrite (d : Dgram) (s : State) : exec (.bootWrite d) s = execBootWrite d s := rfl
@[simp] theorem exec_bootGo (d : Dgram) (s : State) : exec (.bootGo d) s = execBootGo d s := rfl
@[simp] theorem exec_flashWrite (d : Dgram) (s : State) : exec (.flashWrite d) s = execFlashWrite d s := rfl
@[simp] theorem exec_bulkRead (d : Dgram) (s : State) : exec (.bulkRead d) s = execBulkRead d s := rfl
@[simp] theorem exec_bulkReadDatagram (s : State) : exec .bulkReadDatagram s = execBulkReadDatagram s := rfl
@[simp] theorem exec_renew (d : Dgram) (s : State) : exec (.renew d) s = execRenew d s := rfl
@[simp] theorem exec_close (d : Dgram) (s : State) : exec (.close d) s = execClose d s := rfl
@[simp] theorem exec_noop (d : Dgram) (s : State) : exec (.noop d) s = execNoop d s := rfl
@[simp] theorem exec_notify (slot sub : Nat) (s : State) : exec (.notify slot sub) s = execNotify slot sub s := rfl
@[simp] theorem exec_sessionIdleTimeout (slot : Nat) (s : State) : exec (.sessionIdleTimeout slot) s = execSessionIdleTimeout slot s := rfl
@[simp] theorem exec_starting (d : Dgram) (s : State) : exec (.starting d) s = execStarting d s := rfl
@[simp] theorem exec_neighborDiscovery (port : Nat) (addr target : BitVec 128) (s : State) : exec (.neighborDiscovery port addr target) s = execNeighborDiscovery port addr target s := rfl
@[simp] theorem exec_icmpv6Echo (port : Nat) (addr target : BitVec 128) (body : List Byte) (s : State) : exec (.icmpv6Echo port addr target body) s = execIcmpv6Echo port addr target body s := rfl
@[simp] theorem exec_resetSourceAssert (source fn : Nat) (s : State) : exec (.resetSourceAssert source fn) s = execResetSourceAssert source fn s := rfl
@[simp] theorem exec_resetSourceDeassert (source fn : Nat) (s : State) : exec (.resetSourceDeassert source fn) s = execResetSourceDeassert source fn s := rfl
@[simp] theorem exec_wardenWatchdogExpire (s : State) : exec .wardenWatchdogExpire s = execWardenWatchdogExpire s := rfl
@[simp] theorem exec_keeperWatchdogExpire (s : State) : exec .keeperWatchdogExpire s = execKeeperWatchdogExpire s := rfl
@[simp] theorem exec_otpPulseEnd (s : State) : exec .otpPulseEnd s = execOtpPulseEnd s := rfl
@[simp] theorem exec_releaseStep (s : State) : exec .releaseStep s = execReleaseStep s := rfl
@[simp] theorem exec_firmwareVerify (s : State) : exec .firmwareVerify s = execFirmwareVerify s := rfl
@[simp] theorem exec_ddr5TrainingDone (channel : Nat) (ok : Bool) (s : State) : exec (.ddr5TrainingDone channel ok) s = execDdr5TrainingDone channel ok s := rfl
@[simp] theorem exec_devStateAccepting (s : State) : exec .devStateAccepting s = execDevStateAccepting s := rfl
@[simp] theorem exec_l4Release (part : Nat) (s : State) : exec (.l4Release part) s = execL4Release part s := rfl
@[simp] theorem exec_l5Release (block : Nat) (s : State) : exec (.l5Release block) s = execL5Release block s := rfl
@[simp] theorem exec_entropyStartupTest (pass : Bool) (s : State) : exec (.entropyStartupTest pass) s = execEntropyStartupTest pass s := rfl
@[simp] theorem exec_entropyHealthFail (s : State) : exec .entropyHealthFail s = execEntropyHealthFail s := rfl
@[simp] theorem exec_entropyRetest (pass : Bool) (s : State) : exec (.entropyRetest pass) s = execEntropyRetest pass s := rfl
@[simp] theorem exec_entropyBufferFill (die : Nat) (word : Word) (s : State) : exec (.entropyBufferFill die word) s = execEntropyBufferFill die word s := rfl
@[simp] theorem exec_loopbackTokenDelivery (cell : Nat) (s : State) : exec (.loopbackTokenDelivery cell) s = execLoopbackTokenDelivery cell s := rfl
@[simp] theorem exec_generatorFree (cell : Nat) (s : State) : exec (.generatorFree cell) s = execGeneratorFree cell s := rfl
@[simp] theorem exec_zeroingWritten (part vpn : Nat) (s : State) : exec (.zeroingWritten part vpn) s = execZeroingWritten part vpn s := rfl
@[simp] theorem exec_writeBackDone (part addr : Nat) (ecc : EccResult) (s : State) : exec (.writeBackDone part addr ecc) s = execWriteBackDone part addr ecc s := rfl
@[simp] theorem exec_digestStored (part obj addr : Nat) (ecc : EccResult) (s : State) : exec (.digestStored part obj addr ecc) s = execDigestStored part obj addr ecc s := rfl
@[simp] theorem exec_hbmInitialisationDone (stack : Nat) (s : State) : exec (.hbmInitialisationDone stack) s = execHbmInitialisationDone stack s := rfl
@[simp] theorem exec_pcieTrainingDone (port : Nat) (gen width : Nat) (s : State) : exec (.pcieTrainingDone port gen width) s = execPcieTrainingDone port gen width s := rfl
@[simp] theorem exec_ingestPortUp (port : Nat) (s : State) : exec (.ingestPortUp port) s = execIngestPortUp port s := rfl
@[simp] theorem exec_mgPortUp (port : Nat) (s : State) : exec (.mgPortUp port) s = execMgPortUp port s := rfl

end Sys2Proof.Machine
end

