-- ==== Sys2Proof/Laws/State.lean ====
section
/-! SUPPORT. What each update of the state leaves alone, one lemma per field, and what reading the updated part gives. -/
namespace Sys2Proof.Machine

/-! ### State.setCell -/

@[simp] theorem State.setCell_pending (s : State) (c : Nat) (x : Cell) : (s.setCell c x).pending = s.pending := rfl
@[simp] theorem State.setCell_dict (s : State) (c : Nat) (x : Cell) : (s.setCell c x).dict = s.dict := rfl
@[simp] theorem State.setCell_inForce (s : State) (c : Nat) (x : Cell) : (s.setCell c x).inForce = s.inForce := rfl
@[simp] theorem State.setCell_mirror (s : State) (c : Nat) (x : Cell) : (s.setCell c x).mirror = s.mirror := rfl
@[simp] theorem State.setCell_mirrorGt (s : State) (c : Nat) (x : Cell) : (s.setCell c x).mirrorGt = s.mirrorGt := rfl
@[simp] theorem State.setCell_engines (s : State) (c : Nat) (x : Cell) : (s.setCell c x).engines = s.engines := rfl
@[simp] theorem State.setCell_sync (s : State) (c : Nat) (x : Cell) : (s.setCell c x).sync = s.sync := rfl
@[simp] theorem State.setCell_parts (s : State) (c : Nat) (x : Cell) : (s.setCell c x).parts = s.parts := rfl
@[simp] theorem State.setCell_objects (s : State) (c : Nat) (x : Cell) : (s.setCell c x).objects = s.objects := rfl
@[simp] theorem State.setCell_plots (s : State) (c : Nat) (x : Cell) : (s.setCell c x).plots = s.plots := rfl
@[simp] theorem State.setCell_frames (s : State) (c : Nat) (x : Cell) : (s.setCell c x).frames = s.frames := rfl
@[simp] theorem State.setCell_qps (s : State) (c : Nat) (x : Cell) : (s.setCell c x).qps = s.qps := rfl
@[simp] theorem State.setCell_windowNak (s : State) (c : Nat) (x : Cell) : (s.setCell c x).windowNak = s.windowNak := rfl
@[simp] theorem State.setCell_shareWait (s : State) (c : Nat) (x : Cell) : (s.setCell c x).shareWait = s.shareWait := rfl
@[simp] theorem State.setCell_pathDrops (s : State) (c : Nat) (x : Cell) : (s.setCell c x).pathDrops = s.pathDrops := rfl
@[simp] theorem State.setCell_ttlGt (s : State) (c : Nat) (x : Cell) : (s.setCell c x).ttlGt = s.ttlGt := rfl
@[simp] theorem State.setCell_bar4Bad (s : State) (c : Nat) (x : Cell) : (s.setCell c x).bar4Bad = s.bar4Bad := rfl
@[simp] theorem State.setCell_refillL (s : State) (c : Nat) (x : Cell) : (s.setCell c x).refillL = s.refillL := rfl
@[simp] theorem State.setCell_lastSecond (s : State) (c : Nat) (x : Cell) : (s.setCell c x).lastSecond = s.lastSecond := rfl
@[simp] theorem State.setCell_privLogged (s : State) (c : Nat) (x : Cell) : (s.setCell c x).privLogged = s.privLogged := rfl
@[simp] theorem State.setCell_sems (s : State) (c : Nat) (x : Cell) : (s.setCell c x).sems = s.sems := rfl
@[simp] theorem State.setCell_fns (s : State) (c : Nat) (x : Cell) : (s.setCell c x).fns = s.fns := rfl
@[simp] theorem State.setCell_breach (s : State) (c : Nat) (x : Cell) : (s.setCell c x).breach = s.breach := rfl
@[simp] theorem State.setCell_clocks (s : State) (c : Nat) (x : Cell) : (s.setCell c x).clocks = s.clocks := rfl
@[simp] theorem State.setCell_counter (s : State) (c : Nat) (x : Cell) : (s.setCell c x).counter = s.counter := rfl
@[simp] theorem State.setCell_links (s : State) (c : Nat) (x : Cell) : (s.setCell c x).links = s.links := rfl
@[simp] theorem State.setCell_seenMsgs (s : State) (c : Nat) (x : Cell) : (s.setCell c x).seenMsgs = s.seenMsgs := rfl
@[simp] theorem State.setCell_msgSeq (s : State) (c : Nat) (x : Cell) : (s.setCell c x).msgSeq = s.msgSeq := rfl
@[simp] theorem State.setCell_mailbox (s : State) (c : Nat) (x : Cell) : (s.setCell c x).mailbox = s.mailbox := rfl
@[simp] theorem State.setCell_power (s : State) (c : Nat) (x : Cell) : (s.setCell c x).power = s.power := rfl
@[simp] theorem State.setCell_thermal (s : State) (c : Nat) (x : Cell) : (s.setCell c x).thermal = s.thermal := rfl
@[simp] theorem State.setCell_mgmt (s : State) (c : Nat) (x : Cell) : (s.setCell c x).mgmt = s.mgmt := rfl
@[simp] theorem State.setCell_episodes (s : State) (c : Nat) (x : Cell) : (s.setCell c x).episodes = s.episodes := rfl
@[simp] theorem State.setCell_boot (s : State) (c : Nat) (x : Cell) : (s.setCell c x).boot = s.boot := rfl
@[simp] theorem State.setCell_pins (s : State) (c : Nat) (x : Cell) : (s.setCell c x).pins = s.pins := rfl
@[simp] theorem State.setCell_entropy (s : State) (c : Nat) (x : Cell) : (s.setCell c x).entropy = s.entropy := rfl
@[simp] theorem State.setCell_events (s : State) (c : Nat) (x : Cell) : (s.setCell c x).events = s.events := rfl
@[simp] theorem State.setCell_marks (s : State) (c : Nat) (x : Cell) : (s.setCell c x).marks = s.marks := rfl
@[simp] theorem State.setCell_outputs (s : State) (c : Nat) (x : Cell) : (s.setCell c x).outputs = s.outputs := rfl
@[simp] theorem State.setCell_free (s : State) (c : Nat) (x : Cell) : (s.setCell c x).free = s.free := rfl

/-! ### State.updCell -/

@[simp] theorem State.updCell_pending (s : State) (c : Nat) (f : Cell → Cell) : (s.updCell c f).pending = s.pending := rfl
@[simp] theorem State.updCell_dict (s : State) (c : Nat) (f : Cell → Cell) : (s.updCell c f).dict = s.dict := rfl
@[simp] theorem State.updCell_inForce (s : State) (c : Nat) (f : Cell → Cell) : (s.updCell c f).inForce = s.inForce := rfl
@[simp] theorem State.updCell_mirror (s : State) (c : Nat) (f : Cell → Cell) : (s.updCell c f).mirror = s.mirror := rfl
@[simp] theorem State.updCell_mirrorGt (s : State) (c : Nat) (f : Cell → Cell) : (s.updCell c f).mirrorGt = s.mirrorGt := rfl
@[simp] theorem State.updCell_engines (s : State) (c : Nat) (f : Cell → Cell) : (s.updCell c f).engines = s.engines := rfl
@[simp] theorem State.updCell_sync (s : State) (c : Nat) (f : Cell → Cell) : (s.updCell c f).sync = s.sync := rfl
@[simp] theorem State.updCell_parts (s : State) (c : Nat) (f : Cell → Cell) : (s.updCell c f).parts = s.parts := rfl
@[simp] theorem State.updCell_objects (s : State) (c : Nat) (f : Cell → Cell) : (s.updCell c f).objects = s.objects := rfl
@[simp] theorem State.updCell_plots (s : State) (c : Nat) (f : Cell → Cell) : (s.updCell c f).plots = s.plots := rfl
@[simp] theorem State.updCell_frames (s : State) (c : Nat) (f : Cell → Cell) : (s.updCell c f).frames = s.frames := rfl
@[simp] theorem State.updCell_qps (s : State) (c : Nat) (f : Cell → Cell) : (s.updCell c f).qps = s.qps := rfl
@[simp] theorem State.updCell_windowNak (s : State) (c : Nat) (f : Cell → Cell) : (s.updCell c f).windowNak = s.windowNak := rfl
@[simp] theorem State.updCell_shareWait (s : State) (c : Nat) (f : Cell → Cell) : (s.updCell c f).shareWait = s.shareWait := rfl
@[simp] theorem State.updCell_pathDrops (s : State) (c : Nat) (f : Cell → Cell) : (s.updCell c f).pathDrops = s.pathDrops := rfl
@[simp] theorem State.updCell_ttlGt (s : State) (c : Nat) (f : Cell → Cell) : (s.updCell c f).ttlGt = s.ttlGt := rfl
@[simp] theorem State.updCell_bar4Bad (s : State) (c : Nat) (f : Cell → Cell) : (s.updCell c f).bar4Bad = s.bar4Bad := rfl
@[simp] theorem State.updCell_refillL (s : State) (c : Nat) (f : Cell → Cell) : (s.updCell c f).refillL = s.refillL := rfl
@[simp] theorem State.updCell_lastSecond (s : State) (c : Nat) (f : Cell → Cell) : (s.updCell c f).lastSecond = s.lastSecond := rfl
@[simp] theorem State.updCell_privLogged (s : State) (c : Nat) (f : Cell → Cell) : (s.updCell c f).privLogged = s.privLogged := rfl
@[simp] theorem State.updCell_sems (s : State) (c : Nat) (f : Cell → Cell) : (s.updCell c f).sems = s.sems := rfl
@[simp] theorem State.updCell_fns (s : State) (c : Nat) (f : Cell → Cell) : (s.updCell c f).fns = s.fns := rfl
@[simp] theorem State.updCell_breach (s : State) (c : Nat) (f : Cell → Cell) : (s.updCell c f).breach = s.breach := rfl
@[simp] theorem State.updCell_clocks (s : State) (c : Nat) (f : Cell → Cell) : (s.updCell c f).clocks = s.clocks := rfl
@[simp] theorem State.updCell_counter (s : State) (c : Nat) (f : Cell → Cell) : (s.updCell c f).counter = s.counter := rfl
@[simp] theorem State.updCell_links (s : State) (c : Nat) (f : Cell → Cell) : (s.updCell c f).links = s.links := rfl
@[simp] theorem State.updCell_seenMsgs (s : State) (c : Nat) (f : Cell → Cell) : (s.updCell c f).seenMsgs = s.seenMsgs := rfl
@[simp] theorem State.updCell_msgSeq (s : State) (c : Nat) (f : Cell → Cell) : (s.updCell c f).msgSeq = s.msgSeq := rfl
@[simp] theorem State.updCell_mailbox (s : State) (c : Nat) (f : Cell → Cell) : (s.updCell c f).mailbox = s.mailbox := rfl
@[simp] theorem State.updCell_power (s : State) (c : Nat) (f : Cell → Cell) : (s.updCell c f).power = s.power := rfl
@[simp] theorem State.updCell_thermal (s : State) (c : Nat) (f : Cell → Cell) : (s.updCell c f).thermal = s.thermal := rfl
@[simp] theorem State.updCell_mgmt (s : State) (c : Nat) (f : Cell → Cell) : (s.updCell c f).mgmt = s.mgmt := rfl
@[simp] theorem State.updCell_episodes (s : State) (c : Nat) (f : Cell → Cell) : (s.updCell c f).episodes = s.episodes := rfl
@[simp] theorem State.updCell_boot (s : State) (c : Nat) (f : Cell → Cell) : (s.updCell c f).boot = s.boot := rfl
@[simp] theorem State.updCell_pins (s : State) (c : Nat) (f : Cell → Cell) : (s.updCell c f).pins = s.pins := rfl
@[simp] theorem State.updCell_entropy (s : State) (c : Nat) (f : Cell → Cell) : (s.updCell c f).entropy = s.entropy := rfl
@[simp] theorem State.updCell_events (s : State) (c : Nat) (f : Cell → Cell) : (s.updCell c f).events = s.events := rfl
@[simp] theorem State.updCell_marks (s : State) (c : Nat) (f : Cell → Cell) : (s.updCell c f).marks = s.marks := rfl
@[simp] theorem State.updCell_outputs (s : State) (c : Nat) (f : Cell → Cell) : (s.updCell c f).outputs = s.outputs := rfl
@[simp] theorem State.updCell_free (s : State) (c : Nat) (f : Cell → Cell) : (s.updCell c f).free = s.free := rfl

/-! ### State.setPart -/

@[simp] theorem State.setPart_pending (s : State) (p : Nat) (x : Part) : (s.setPart p x).pending = s.pending := rfl
@[simp] theorem State.setPart_dict (s : State) (p : Nat) (x : Part) : (s.setPart p x).dict = s.dict := rfl
@[simp] theorem State.setPart_inForce (s : State) (p : Nat) (x : Part) : (s.setPart p x).inForce = s.inForce := rfl
@[simp] theorem State.setPart_mirror (s : State) (p : Nat) (x : Part) : (s.setPart p x).mirror = s.mirror := rfl
@[simp] theorem State.setPart_mirrorGt (s : State) (p : Nat) (x : Part) : (s.setPart p x).mirrorGt = s.mirrorGt := rfl
@[simp] theorem State.setPart_cells (s : State) (p : Nat) (x : Part) : (s.setPart p x).cells = s.cells := rfl
@[simp] theorem State.setPart_engines (s : State) (p : Nat) (x : Part) : (s.setPart p x).engines = s.engines := rfl
@[simp] theorem State.setPart_sync (s : State) (p : Nat) (x : Part) : (s.setPart p x).sync = s.sync := rfl
@[simp] theorem State.setPart_objects (s : State) (p : Nat) (x : Part) : (s.setPart p x).objects = s.objects := rfl
@[simp] theorem State.setPart_plots (s : State) (p : Nat) (x : Part) : (s.setPart p x).plots = s.plots := rfl
@[simp] theorem State.setPart_frames (s : State) (p : Nat) (x : Part) : (s.setPart p x).frames = s.frames := rfl
@[simp] theorem State.setPart_qps (s : State) (p : Nat) (x : Part) : (s.setPart p x).qps = s.qps := rfl
@[simp] theorem State.setPart_windowNak (s : State) (p : Nat) (x : Part) : (s.setPart p x).windowNak = s.windowNak := rfl
@[simp] theorem State.setPart_shareWait (s : State) (p : Nat) (x : Part) : (s.setPart p x).shareWait = s.shareWait := rfl
@[simp] theorem State.setPart_pathDrops (s : State) (p : Nat) (x : Part) : (s.setPart p x).pathDrops = s.pathDrops := rfl
@[simp] theorem State.setPart_ttlGt (s : State) (p : Nat) (x : Part) : (s.setPart p x).ttlGt = s.ttlGt := rfl
@[simp] theorem State.setPart_bar4Bad (s : State) (p : Nat) (x : Part) : (s.setPart p x).bar4Bad = s.bar4Bad := rfl
@[simp] theorem State.setPart_refillL (s : State) (p : Nat) (x : Part) : (s.setPart p x).refillL = s.refillL := rfl
@[simp] theorem State.setPart_lastSecond (s : State) (p : Nat) (x : Part) : (s.setPart p x).lastSecond = s.lastSecond := rfl
@[simp] theorem State.setPart_privLogged (s : State) (p : Nat) (x : Part) : (s.setPart p x).privLogged = s.privLogged := rfl
@[simp] theorem State.setPart_sems (s : State) (p : Nat) (x : Part) : (s.setPart p x).sems = s.sems := rfl
@[simp] theorem State.setPart_fns (s : State) (p : Nat) (x : Part) : (s.setPart p x).fns = s.fns := rfl
@[simp] theorem State.setPart_breach (s : State) (p : Nat) (x : Part) : (s.setPart p x).breach = s.breach := rfl
@[simp] theorem State.setPart_clocks (s : State) (p : Nat) (x : Part) : (s.setPart p x).clocks = s.clocks := rfl
@[simp] theorem State.setPart_counter (s : State) (p : Nat) (x : Part) : (s.setPart p x).counter = s.counter := rfl
@[simp] theorem State.setPart_links (s : State) (p : Nat) (x : Part) : (s.setPart p x).links = s.links := rfl
@[simp] theorem State.setPart_seenMsgs (s : State) (p : Nat) (x : Part) : (s.setPart p x).seenMsgs = s.seenMsgs := rfl
@[simp] theorem State.setPart_msgSeq (s : State) (p : Nat) (x : Part) : (s.setPart p x).msgSeq = s.msgSeq := rfl
@[simp] theorem State.setPart_mailbox (s : State) (p : Nat) (x : Part) : (s.setPart p x).mailbox = s.mailbox := rfl
@[simp] theorem State.setPart_power (s : State) (p : Nat) (x : Part) : (s.setPart p x).power = s.power := rfl
@[simp] theorem State.setPart_thermal (s : State) (p : Nat) (x : Part) : (s.setPart p x).thermal = s.thermal := rfl
@[simp] theorem State.setPart_mgmt (s : State) (p : Nat) (x : Part) : (s.setPart p x).mgmt = s.mgmt := rfl
@[simp] theorem State.setPart_episodes (s : State) (p : Nat) (x : Part) : (s.setPart p x).episodes = s.episodes := rfl
@[simp] theorem State.setPart_boot (s : State) (p : Nat) (x : Part) : (s.setPart p x).boot = s.boot := rfl
@[simp] theorem State.setPart_pins (s : State) (p : Nat) (x : Part) : (s.setPart p x).pins = s.pins := rfl
@[simp] theorem State.setPart_entropy (s : State) (p : Nat) (x : Part) : (s.setPart p x).entropy = s.entropy := rfl
@[simp] theorem State.setPart_events (s : State) (p : Nat) (x : Part) : (s.setPart p x).events = s.events := rfl
@[simp] theorem State.setPart_marks (s : State) (p : Nat) (x : Part) : (s.setPart p x).marks = s.marks := rfl
@[simp] theorem State.setPart_outputs (s : State) (p : Nat) (x : Part) : (s.setPart p x).outputs = s.outputs := rfl
@[simp] theorem State.setPart_free (s : State) (p : Nat) (x : Part) : (s.setPart p x).free = s.free := rfl

/-! ### State.updPart -/

@[simp] theorem State.updPart_pending (s : State) (p : Nat) (f : Part → Part) : (s.updPart p f).pending = s.pending := rfl
@[simp] theorem State.updPart_dict (s : State) (p : Nat) (f : Part → Part) : (s.updPart p f).dict = s.dict := rfl
@[simp] theorem State.updPart_inForce (s : State) (p : Nat) (f : Part → Part) : (s.updPart p f).inForce = s.inForce := rfl
@[simp] theorem State.updPart_mirror (s : State) (p : Nat) (f : Part → Part) : (s.updPart p f).mirror = s.mirror := rfl
@[simp] theorem State.updPart_mirrorGt (s : State) (p : Nat) (f : Part → Part) : (s.updPart p f).mirrorGt = s.mirrorGt := rfl
@[simp] theorem State.updPart_cells (s : State) (p : Nat) (f : Part → Part) : (s.updPart p f).cells = s.cells := rfl
@[simp] theorem State.updPart_engines (s : State) (p : Nat) (f : Part → Part) : (s.updPart p f).engines = s.engines := rfl
@[simp] theorem State.updPart_sync (s : State) (p : Nat) (f : Part → Part) : (s.updPart p f).sync = s.sync := rfl
@[simp] theorem State.updPart_objects (s : State) (p : Nat) (f : Part → Part) : (s.updPart p f).objects = s.objects := rfl
@[simp] theorem State.updPart_plots (s : State) (p : Nat) (f : Part → Part) : (s.updPart p f).plots = s.plots := rfl
@[simp] theorem State.updPart_frames (s : State) (p : Nat) (f : Part → Part) : (s.updPart p f).frames = s.frames := rfl
@[simp] theorem State.updPart_qps (s : State) (p : Nat) (f : Part → Part) : (s.updPart p f).qps = s.qps := rfl
@[simp] theorem State.updPart_windowNak (s : State) (p : Nat) (f : Part → Part) : (s.updPart p f).windowNak = s.windowNak := rfl
@[simp] theorem State.updPart_shareWait (s : State) (p : Nat) (f : Part → Part) : (s.updPart p f).shareWait = s.shareWait := rfl
@[simp] theorem State.updPart_pathDrops (s : State) (p : Nat) (f : Part → Part) : (s.updPart p f).pathDrops = s.pathDrops := rfl
@[simp] theorem State.updPart_ttlGt (s : State) (p : Nat) (f : Part → Part) : (s.updPart p f).ttlGt = s.ttlGt := rfl
@[simp] theorem State.updPart_bar4Bad (s : State) (p : Nat) (f : Part → Part) : (s.updPart p f).bar4Bad = s.bar4Bad := rfl
@[simp] theorem State.updPart_refillL (s : State) (p : Nat) (f : Part → Part) : (s.updPart p f).refillL = s.refillL := rfl
@[simp] theorem State.updPart_lastSecond (s : State) (p : Nat) (f : Part → Part) : (s.updPart p f).lastSecond = s.lastSecond := rfl
@[simp] theorem State.updPart_privLogged (s : State) (p : Nat) (f : Part → Part) : (s.updPart p f).privLogged = s.privLogged := rfl
@[simp] theorem State.updPart_sems (s : State) (p : Nat) (f : Part → Part) : (s.updPart p f).sems = s.sems := rfl
@[simp] theorem State.updPart_fns (s : State) (p : Nat) (f : Part → Part) : (s.updPart p f).fns = s.fns := rfl
@[simp] theorem State.updPart_breach (s : State) (p : Nat) (f : Part → Part) : (s.updPart p f).breach = s.breach := rfl
@[simp] theorem State.updPart_clocks (s : State) (p : Nat) (f : Part → Part) : (s.updPart p f).clocks = s.clocks := rfl
@[simp] theorem State.updPart_counter (s : State) (p : Nat) (f : Part → Part) : (s.updPart p f).counter = s.counter := rfl
@[simp] theorem State.updPart_links (s : State) (p : Nat) (f : Part → Part) : (s.updPart p f).links = s.links := rfl
@[simp] theorem State.updPart_seenMsgs (s : State) (p : Nat) (f : Part → Part) : (s.updPart p f).seenMsgs = s.seenMsgs := rfl
@[simp] theorem State.updPart_msgSeq (s : State) (p : Nat) (f : Part → Part) : (s.updPart p f).msgSeq = s.msgSeq := rfl
@[simp] theorem State.updPart_mailbox (s : State) (p : Nat) (f : Part → Part) : (s.updPart p f).mailbox = s.mailbox := rfl
@[simp] theorem State.updPart_power (s : State) (p : Nat) (f : Part → Part) : (s.updPart p f).power = s.power := rfl
@[simp] theorem State.updPart_thermal (s : State) (p : Nat) (f : Part → Part) : (s.updPart p f).thermal = s.thermal := rfl
@[simp] theorem State.updPart_mgmt (s : State) (p : Nat) (f : Part → Part) : (s.updPart p f).mgmt = s.mgmt := rfl
@[simp] theorem State.updPart_episodes (s : State) (p : Nat) (f : Part → Part) : (s.updPart p f).episodes = s.episodes := rfl
@[simp] theorem State.updPart_boot (s : State) (p : Nat) (f : Part → Part) : (s.updPart p f).boot = s.boot := rfl
@[simp] theorem State.updPart_pins (s : State) (p : Nat) (f : Part → Part) : (s.updPart p f).pins = s.pins := rfl
@[simp] theorem State.updPart_entropy (s : State) (p : Nat) (f : Part → Part) : (s.updPart p f).entropy = s.entropy := rfl
@[simp] theorem State.updPart_events (s : State) (p : Nat) (f : Part → Part) : (s.updPart p f).events = s.events := rfl
@[simp] theorem State.updPart_marks (s : State) (p : Nat) (f : Part → Part) : (s.updPart p f).marks = s.marks := rfl
@[simp] theorem State.updPart_outputs (s : State) (p : Nat) (f : Part → Part) : (s.updPart p f).outputs = s.outputs := rfl
@[simp] theorem State.updPart_free (s : State) (p : Nat) (f : Part → Part) : (s.updPart p f).free = s.free := rfl

/-! ### State.updEngine -/

@[simp] theorem State.updEngine_pending (s : State) (e : Nat) (f : Engine → Engine) : (s.updEngine e f).pending = s.pending := rfl
@[simp] theorem State.updEngine_dict (s : State) (e : Nat) (f : Engine → Engine) : (s.updEngine e f).dict = s.dict := rfl
@[simp] theorem State.updEngine_inForce (s : State) (e : Nat) (f : Engine → Engine) : (s.updEngine e f).inForce = s.inForce := rfl
@[simp] theorem State.updEngine_mirror (s : State) (e : Nat) (f : Engine → Engine) : (s.updEngine e f).mirror = s.mirror := rfl
@[simp] theorem State.updEngine_mirrorGt (s : State) (e : Nat) (f : Engine → Engine) : (s.updEngine e f).mirrorGt = s.mirrorGt := rfl
@[simp] theorem State.updEngine_cells (s : State) (e : Nat) (f : Engine → Engine) : (s.updEngine e f).cells = s.cells := rfl
@[simp] theorem State.updEngine_sync (s : State) (e : Nat) (f : Engine → Engine) : (s.updEngine e f).sync = s.sync := rfl
@[simp] theorem State.updEngine_parts (s : State) (e : Nat) (f : Engine → Engine) : (s.updEngine e f).parts = s.parts := rfl
@[simp] theorem State.updEngine_objects (s : State) (e : Nat) (f : Engine → Engine) : (s.updEngine e f).objects = s.objects := rfl
@[simp] theorem State.updEngine_plots (s : State) (e : Nat) (f : Engine → Engine) : (s.updEngine e f).plots = s.plots := rfl
@[simp] theorem State.updEngine_frames (s : State) (e : Nat) (f : Engine → Engine) : (s.updEngine e f).frames = s.frames := rfl
@[simp] theorem State.updEngine_qps (s : State) (e : Nat) (f : Engine → Engine) : (s.updEngine e f).qps = s.qps := rfl
@[simp] theorem State.updEngine_windowNak (s : State) (e : Nat) (f : Engine → Engine) : (s.updEngine e f).windowNak = s.windowNak := rfl
@[simp] theorem State.updEngine_shareWait (s : State) (e : Nat) (f : Engine → Engine) : (s.updEngine e f).shareWait = s.shareWait := rfl
@[simp] theorem State.updEngine_pathDrops (s : State) (e : Nat) (f : Engine → Engine) : (s.updEngine e f).pathDrops = s.pathDrops := rfl
@[simp] theorem State.updEngine_ttlGt (s : State) (e : Nat) (f : Engine → Engine) : (s.updEngine e f).ttlGt = s.ttlGt := rfl
@[simp] theorem State.updEngine_bar4Bad (s : State) (e : Nat) (f : Engine → Engine) : (s.updEngine e f).bar4Bad = s.bar4Bad := rfl
@[simp] theorem State.updEngine_refillL (s : State) (e : Nat) (f : Engine → Engine) : (s.updEngine e f).refillL = s.refillL := rfl
@[simp] theorem State.updEngine_lastSecond (s : State) (e : Nat) (f : Engine → Engine) : (s.updEngine e f).lastSecond = s.lastSecond := rfl
@[simp] theorem State.updEngine_privLogged (s : State) (e : Nat) (f : Engine → Engine) : (s.updEngine e f).privLogged = s.privLogged := rfl
@[simp] theorem State.updEngine_sems (s : State) (e : Nat) (f : Engine → Engine) : (s.updEngine e f).sems = s.sems := rfl
@[simp] theorem State.updEngine_fns (s : State) (e : Nat) (f : Engine → Engine) : (s.updEngine e f).fns = s.fns := rfl
@[simp] theorem State.updEngine_breach (s : State) (e : Nat) (f : Engine → Engine) : (s.updEngine e f).breach = s.breach := rfl
@[simp] theorem State.updEngine_clocks (s : State) (e : Nat) (f : Engine → Engine) : (s.updEngine e f).clocks = s.clocks := rfl
@[simp] theorem State.updEngine_counter (s : State) (e : Nat) (f : Engine → Engine) : (s.updEngine e f).counter = s.counter := rfl
@[simp] theorem State.updEngine_links (s : State) (e : Nat) (f : Engine → Engine) : (s.updEngine e f).links = s.links := rfl
@[simp] theorem State.updEngine_seenMsgs (s : State) (e : Nat) (f : Engine → Engine) : (s.updEngine e f).seenMsgs = s.seenMsgs := rfl
@[simp] theorem State.updEngine_msgSeq (s : State) (e : Nat) (f : Engine → Engine) : (s.updEngine e f).msgSeq = s.msgSeq := rfl
@[simp] theorem State.updEngine_mailbox (s : State) (e : Nat) (f : Engine → Engine) : (s.updEngine e f).mailbox = s.mailbox := rfl
@[simp] theorem State.updEngine_power (s : State) (e : Nat) (f : Engine → Engine) : (s.updEngine e f).power = s.power := rfl
@[simp] theorem State.updEngine_thermal (s : State) (e : Nat) (f : Engine → Engine) : (s.updEngine e f).thermal = s.thermal := rfl
@[simp] theorem State.updEngine_mgmt (s : State) (e : Nat) (f : Engine → Engine) : (s.updEngine e f).mgmt = s.mgmt := rfl
@[simp] theorem State.updEngine_episodes (s : State) (e : Nat) (f : Engine → Engine) : (s.updEngine e f).episodes = s.episodes := rfl
@[simp] theorem State.updEngine_boot (s : State) (e : Nat) (f : Engine → Engine) : (s.updEngine e f).boot = s.boot := rfl
@[simp] theorem State.updEngine_pins (s : State) (e : Nat) (f : Engine → Engine) : (s.updEngine e f).pins = s.pins := rfl
@[simp] theorem State.updEngine_entropy (s : State) (e : Nat) (f : Engine → Engine) : (s.updEngine e f).entropy = s.entropy := rfl
@[simp] theorem State.updEngine_events (s : State) (e : Nat) (f : Engine → Engine) : (s.updEngine e f).events = s.events := rfl
@[simp] theorem State.updEngine_marks (s : State) (e : Nat) (f : Engine → Engine) : (s.updEngine e f).marks = s.marks := rfl
@[simp] theorem State.updEngine_outputs (s : State) (e : Nat) (f : Engine → Engine) : (s.updEngine e f).outputs = s.outputs := rfl
@[simp] theorem State.updEngine_free (s : State) (e : Nat) (f : Engine → Engine) : (s.updEngine e f).free = s.free := rfl

/-! ### State.updLink -/

@[simp] theorem State.updLink_pending (s : State) (l : Nat) (f : Link → Link) : (s.updLink l f).pending = s.pending := rfl
@[simp] theorem State.updLink_dict (s : State) (l : Nat) (f : Link → Link) : (s.updLink l f).dict = s.dict := rfl
@[simp] theorem State.updLink_inForce (s : State) (l : Nat) (f : Link → Link) : (s.updLink l f).inForce = s.inForce := rfl
@[simp] theorem State.updLink_mirror (s : State) (l : Nat) (f : Link → Link) : (s.updLink l f).mirror = s.mirror := rfl
@[simp] theorem State.updLink_mirrorGt (s : State) (l : Nat) (f : Link → Link) : (s.updLink l f).mirrorGt = s.mirrorGt := rfl
@[simp] theorem State.updLink_cells (s : State) (l : Nat) (f : Link → Link) : (s.updLink l f).cells = s.cells := rfl
@[simp] theorem State.updLink_engines (s : State) (l : Nat) (f : Link → Link) : (s.updLink l f).engines = s.engines := rfl
@[simp] theorem State.updLink_sync (s : State) (l : Nat) (f : Link → Link) : (s.updLink l f).sync = s.sync := rfl
@[simp] theorem State.updLink_parts (s : State) (l : Nat) (f : Link → Link) : (s.updLink l f).parts = s.parts := rfl
@[simp] theorem State.updLink_objects (s : State) (l : Nat) (f : Link → Link) : (s.updLink l f).objects = s.objects := rfl
@[simp] theorem State.updLink_plots (s : State) (l : Nat) (f : Link → Link) : (s.updLink l f).plots = s.plots := rfl
@[simp] theorem State.updLink_frames (s : State) (l : Nat) (f : Link → Link) : (s.updLink l f).frames = s.frames := rfl
@[simp] theorem State.updLink_qps (s : State) (l : Nat) (f : Link → Link) : (s.updLink l f).qps = s.qps := rfl
@[simp] theorem State.updLink_windowNak (s : State) (l : Nat) (f : Link → Link) : (s.updLink l f).windowNak = s.windowNak := rfl
@[simp] theorem State.updLink_shareWait (s : State) (l : Nat) (f : Link → Link) : (s.updLink l f).shareWait = s.shareWait := rfl
@[simp] theorem State.updLink_pathDrops (s : State) (l : Nat) (f : Link → Link) : (s.updLink l f).pathDrops = s.pathDrops := rfl
@[simp] theorem State.updLink_ttlGt (s : State) (l : Nat) (f : Link → Link) : (s.updLink l f).ttlGt = s.ttlGt := rfl
@[simp] theorem State.updLink_bar4Bad (s : State) (l : Nat) (f : Link → Link) : (s.updLink l f).bar4Bad = s.bar4Bad := rfl
@[simp] theorem State.updLink_refillL (s : State) (l : Nat) (f : Link → Link) : (s.updLink l f).refillL = s.refillL := rfl
@[simp] theorem State.updLink_lastSecond (s : State) (l : Nat) (f : Link → Link) : (s.updLink l f).lastSecond = s.lastSecond := rfl
@[simp] theorem State.updLink_privLogged (s : State) (l : Nat) (f : Link → Link) : (s.updLink l f).privLogged = s.privLogged := rfl
@[simp] theorem State.updLink_sems (s : State) (l : Nat) (f : Link → Link) : (s.updLink l f).sems = s.sems := rfl
@[simp] theorem State.updLink_fns (s : State) (l : Nat) (f : Link → Link) : (s.updLink l f).fns = s.fns := rfl
@[simp] theorem State.updLink_breach (s : State) (l : Nat) (f : Link → Link) : (s.updLink l f).breach = s.breach := rfl
@[simp] theorem State.updLink_clocks (s : State) (l : Nat) (f : Link → Link) : (s.updLink l f).clocks = s.clocks := rfl
@[simp] theorem State.updLink_counter (s : State) (l : Nat) (f : Link → Link) : (s.updLink l f).counter = s.counter := rfl
@[simp] theorem State.updLink_seenMsgs (s : State) (l : Nat) (f : Link → Link) : (s.updLink l f).seenMsgs = s.seenMsgs := rfl
@[simp] theorem State.updLink_msgSeq (s : State) (l : Nat) (f : Link → Link) : (s.updLink l f).msgSeq = s.msgSeq := rfl
@[simp] theorem State.updLink_mailbox (s : State) (l : Nat) (f : Link → Link) : (s.updLink l f).mailbox = s.mailbox := rfl
@[simp] theorem State.updLink_power (s : State) (l : Nat) (f : Link → Link) : (s.updLink l f).power = s.power := rfl
@[simp] theorem State.updLink_thermal (s : State) (l : Nat) (f : Link → Link) : (s.updLink l f).thermal = s.thermal := rfl
@[simp] theorem State.updLink_mgmt (s : State) (l : Nat) (f : Link → Link) : (s.updLink l f).mgmt = s.mgmt := rfl
@[simp] theorem State.updLink_episodes (s : State) (l : Nat) (f : Link → Link) : (s.updLink l f).episodes = s.episodes := rfl
@[simp] theorem State.updLink_boot (s : State) (l : Nat) (f : Link → Link) : (s.updLink l f).boot = s.boot := rfl
@[simp] theorem State.updLink_pins (s : State) (l : Nat) (f : Link → Link) : (s.updLink l f).pins = s.pins := rfl
@[simp] theorem State.updLink_entropy (s : State) (l : Nat) (f : Link → Link) : (s.updLink l f).entropy = s.entropy := rfl
@[simp] theorem State.updLink_events (s : State) (l : Nat) (f : Link → Link) : (s.updLink l f).events = s.events := rfl
@[simp] theorem State.updLink_marks (s : State) (l : Nat) (f : Link → Link) : (s.updLink l f).marks = s.marks := rfl
@[simp] theorem State.updLink_outputs (s : State) (l : Nat) (f : Link → Link) : (s.updLink l f).outputs = s.outputs := rfl
@[simp] theorem State.updLink_free (s : State) (l : Nat) (f : Link → Link) : (s.updLink l f).free = s.free := rfl

/-! ### State.updFn -/

@[simp] theorem State.updFn_pending (s : State) (n : Nat) (f : HostFn → HostFn) : (s.updFn n f).pending = s.pending := rfl
@[simp] theorem State.updFn_dict (s : State) (n : Nat) (f : HostFn → HostFn) : (s.updFn n f).dict = s.dict := rfl
@[simp] theorem State.updFn_inForce (s : State) (n : Nat) (f : HostFn → HostFn) : (s.updFn n f).inForce = s.inForce := rfl
@[simp] theorem State.updFn_mirror (s : State) (n : Nat) (f : HostFn → HostFn) : (s.updFn n f).mirror = s.mirror := rfl
@[simp] theorem State.updFn_mirrorGt (s : State) (n : Nat) (f : HostFn → HostFn) : (s.updFn n f).mirrorGt = s.mirrorGt := rfl
@[simp] theorem State.updFn_cells (s : State) (n : Nat) (f : HostFn → HostFn) : (s.updFn n f).cells = s.cells := rfl
@[simp] theorem State.updFn_engines (s : State) (n : Nat) (f : HostFn → HostFn) : (s.updFn n f).engines = s.engines := rfl
@[simp] theorem State.updFn_sync (s : State) (n : Nat) (f : HostFn → HostFn) : (s.updFn n f).sync = s.sync := rfl
@[simp] theorem State.updFn_parts (s : State) (n : Nat) (f : HostFn → HostFn) : (s.updFn n f).parts = s.parts := rfl
@[simp] theorem State.updFn_objects (s : State) (n : Nat) (f : HostFn → HostFn) : (s.updFn n f).objects = s.objects := rfl
@[simp] theorem State.updFn_plots (s : State) (n : Nat) (f : HostFn → HostFn) : (s.updFn n f).plots = s.plots := rfl
@[simp] theorem State.updFn_frames (s : State) (n : Nat) (f : HostFn → HostFn) : (s.updFn n f).frames = s.frames := rfl
@[simp] theorem State.updFn_qps (s : State) (n : Nat) (f : HostFn → HostFn) : (s.updFn n f).qps = s.qps := rfl
@[simp] theorem State.updFn_windowNak (s : State) (n : Nat) (f : HostFn → HostFn) : (s.updFn n f).windowNak = s.windowNak := rfl
@[simp] theorem State.updFn_shareWait (s : State) (n : Nat) (f : HostFn → HostFn) : (s.updFn n f).shareWait = s.shareWait := rfl
@[simp] theorem State.updFn_pathDrops (s : State) (n : Nat) (f : HostFn → HostFn) : (s.updFn n f).pathDrops = s.pathDrops := rfl
@[simp] theorem State.updFn_ttlGt (s : State) (n : Nat) (f : HostFn → HostFn) : (s.updFn n f).ttlGt = s.ttlGt := rfl
@[simp] theorem State.updFn_bar4Bad (s : State) (n : Nat) (f : HostFn → HostFn) : (s.updFn n f).bar4Bad = s.bar4Bad := rfl
@[simp] theorem State.updFn_refillL (s : State) (n : Nat) (f : HostFn → HostFn) : (s.updFn n f).refillL = s.refillL := rfl
@[simp] theorem State.updFn_lastSecond (s : State) (n : Nat) (f : HostFn → HostFn) : (s.updFn n f).lastSecond = s.lastSecond := rfl
@[simp] theorem State.updFn_privLogged (s : State) (n : Nat) (f : HostFn → HostFn) : (s.updFn n f).privLogged = s.privLogged := rfl
@[simp] theorem State.updFn_sems (s : State) (n : Nat) (f : HostFn → HostFn) : (s.updFn n f).sems = s.sems := rfl
@[simp] theorem State.updFn_breach (s : State) (n : Nat) (f : HostFn → HostFn) : (s.updFn n f).breach = s.breach := rfl
@[simp] theorem State.updFn_clocks (s : State) (n : Nat) (f : HostFn → HostFn) : (s.updFn n f).clocks = s.clocks := rfl
@[simp] theorem State.updFn_counter (s : State) (n : Nat) (f : HostFn → HostFn) : (s.updFn n f).counter = s.counter := rfl
@[simp] theorem State.updFn_links (s : State) (n : Nat) (f : HostFn → HostFn) : (s.updFn n f).links = s.links := rfl
@[simp] theorem State.updFn_seenMsgs (s : State) (n : Nat) (f : HostFn → HostFn) : (s.updFn n f).seenMsgs = s.seenMsgs := rfl
@[simp] theorem State.updFn_msgSeq (s : State) (n : Nat) (f : HostFn → HostFn) : (s.updFn n f).msgSeq = s.msgSeq := rfl
@[simp] theorem State.updFn_mailbox (s : State) (n : Nat) (f : HostFn → HostFn) : (s.updFn n f).mailbox = s.mailbox := rfl
@[simp] theorem State.updFn_power (s : State) (n : Nat) (f : HostFn → HostFn) : (s.updFn n f).power = s.power := rfl
@[simp] theorem State.updFn_thermal (s : State) (n : Nat) (f : HostFn → HostFn) : (s.updFn n f).thermal = s.thermal := rfl
@[simp] theorem State.updFn_mgmt (s : State) (n : Nat) (f : HostFn → HostFn) : (s.updFn n f).mgmt = s.mgmt := rfl
@[simp] theorem State.updFn_episodes (s : State) (n : Nat) (f : HostFn → HostFn) : (s.updFn n f).episodes = s.episodes := rfl
@[simp] theorem State.updFn_boot (s : State) (n : Nat) (f : HostFn → HostFn) : (s.updFn n f).boot = s.boot := rfl
@[simp] theorem State.updFn_pins (s : State) (n : Nat) (f : HostFn → HostFn) : (s.updFn n f).pins = s.pins := rfl
@[simp] theorem State.updFn_entropy (s : State) (n : Nat) (f : HostFn → HostFn) : (s.updFn n f).entropy = s.entropy := rfl
@[simp] theorem State.updFn_events (s : State) (n : Nat) (f : HostFn → HostFn) : (s.updFn n f).events = s.events := rfl
@[simp] theorem State.updFn_marks (s : State) (n : Nat) (f : HostFn → HostFn) : (s.updFn n f).marks = s.marks := rfl
@[simp] theorem State.updFn_outputs (s : State) (n : Nat) (f : HostFn → HostFn) : (s.updFn n f).outputs = s.outputs := rfl
@[simp] theorem State.updFn_free (s : State) (n : Nat) (f : HostFn → HostFn) : (s.updFn n f).free = s.free := rfl

/-! ### State.updQp -/

@[simp] theorem State.updQp_pending (s : State) (q : Nat) (f : QueuePair → QueuePair) : (s.updQp q f).pending = s.pending := rfl
@[simp] theorem State.updQp_dict (s : State) (q : Nat) (f : QueuePair → QueuePair) : (s.updQp q f).dict = s.dict := rfl
@[simp] theorem State.updQp_inForce (s : State) (q : Nat) (f : QueuePair → QueuePair) : (s.updQp q f).inForce = s.inForce := rfl
@[simp] theorem State.updQp_mirror (s : State) (q : Nat) (f : QueuePair → QueuePair) : (s.updQp q f).mirror = s.mirror := rfl
@[simp] theorem State.updQp_mirrorGt (s : State) (q : Nat) (f : QueuePair → QueuePair) : (s.updQp q f).mirrorGt = s.mirrorGt := rfl
@[simp] theorem State.updQp_cells (s : State) (q : Nat) (f : QueuePair → QueuePair) : (s.updQp q f).cells = s.cells := rfl
@[simp] theorem State.updQp_engines (s : State) (q : Nat) (f : QueuePair → QueuePair) : (s.updQp q f).engines = s.engines := rfl
@[simp] theorem State.updQp_sync (s : State) (q : Nat) (f : QueuePair → QueuePair) : (s.updQp q f).sync = s.sync := rfl
@[simp] theorem State.updQp_parts (s : State) (q : Nat) (f : QueuePair → QueuePair) : (s.updQp q f).parts = s.parts := rfl
@[simp] theorem State.updQp_objects (s : State) (q : Nat) (f : QueuePair → QueuePair) : (s.updQp q f).objects = s.objects := rfl
@[simp] theorem State.updQp_plots (s : State) (q : Nat) (f : QueuePair → QueuePair) : (s.updQp q f).plots = s.plots := rfl
@[simp] theorem State.updQp_frames (s : State) (q : Nat) (f : QueuePair → QueuePair) : (s.updQp q f).frames = s.frames := rfl
@[simp] theorem State.updQp_windowNak (s : State) (q : Nat) (f : QueuePair → QueuePair) : (s.updQp q f).windowNak = s.windowNak := rfl
@[simp] theorem State.updQp_shareWait (s : State) (q : Nat) (f : QueuePair → QueuePair) : (s.updQp q f).shareWait = s.shareWait := rfl
@[simp] theorem State.updQp_pathDrops (s : State) (q : Nat) (f : QueuePair → QueuePair) : (s.updQp q f).pathDrops = s.pathDrops := rfl
@[simp] theorem State.updQp_ttlGt (s : State) (q : Nat) (f : QueuePair → QueuePair) : (s.updQp q f).ttlGt = s.ttlGt := rfl
@[simp] theorem State.updQp_bar4Bad (s : State) (q : Nat) (f : QueuePair → QueuePair) : (s.updQp q f).bar4Bad = s.bar4Bad := rfl
@[simp] theorem State.updQp_refillL (s : State) (q : Nat) (f : QueuePair → QueuePair) : (s.updQp q f).refillL = s.refillL := rfl
@[simp] theorem State.updQp_lastSecond (s : State) (q : Nat) (f : QueuePair → QueuePair) : (s.updQp q f).lastSecond = s.lastSecond := rfl
@[simp] theorem State.updQp_privLogged (s : State) (q : Nat) (f : QueuePair → QueuePair) : (s.updQp q f).privLogged = s.privLogged := rfl
@[simp] theorem State.updQp_sems (s : State) (q : Nat) (f : QueuePair → QueuePair) : (s.updQp q f).sems = s.sems := rfl
@[simp] theorem State.updQp_fns (s : State) (q : Nat) (f : QueuePair → QueuePair) : (s.updQp q f).fns = s.fns := rfl
@[simp] theorem State.updQp_breach (s : State) (q : Nat) (f : QueuePair → QueuePair) : (s.updQp q f).breach = s.breach := rfl
@[simp] theorem State.updQp_clocks (s : State) (q : Nat) (f : QueuePair → QueuePair) : (s.updQp q f).clocks = s.clocks := rfl
@[simp] theorem State.updQp_counter (s : State) (q : Nat) (f : QueuePair → QueuePair) : (s.updQp q f).counter = s.counter := rfl
@[simp] theorem State.updQp_links (s : State) (q : Nat) (f : QueuePair → QueuePair) : (s.updQp q f).links = s.links := rfl
@[simp] theorem State.updQp_seenMsgs (s : State) (q : Nat) (f : QueuePair → QueuePair) : (s.updQp q f).seenMsgs = s.seenMsgs := rfl
@[simp] theorem State.updQp_msgSeq (s : State) (q : Nat) (f : QueuePair → QueuePair) : (s.updQp q f).msgSeq = s.msgSeq := rfl
@[simp] theorem State.updQp_mailbox (s : State) (q : Nat) (f : QueuePair → QueuePair) : (s.updQp q f).mailbox = s.mailbox := rfl
@[simp] theorem State.updQp_power (s : State) (q : Nat) (f : QueuePair → QueuePair) : (s.updQp q f).power = s.power := rfl
@[simp] theorem State.updQp_thermal (s : State) (q : Nat) (f : QueuePair → QueuePair) : (s.updQp q f).thermal = s.thermal := rfl
@[simp] theorem State.updQp_mgmt (s : State) (q : Nat) (f : QueuePair → QueuePair) : (s.updQp q f).mgmt = s.mgmt := rfl
@[simp] theorem State.updQp_episodes (s : State) (q : Nat) (f : QueuePair → QueuePair) : (s.updQp q f).episodes = s.episodes := rfl
@[simp] theorem State.updQp_boot (s : State) (q : Nat) (f : QueuePair → QueuePair) : (s.updQp q f).boot = s.boot := rfl
@[simp] theorem State.updQp_pins (s : State) (q : Nat) (f : QueuePair → QueuePair) : (s.updQp q f).pins = s.pins := rfl
@[simp] theorem State.updQp_entropy (s : State) (q : Nat) (f : QueuePair → QueuePair) : (s.updQp q f).entropy = s.entropy := rfl
@[simp] theorem State.updQp_events (s : State) (q : Nat) (f : QueuePair → QueuePair) : (s.updQp q f).events = s.events := rfl
@[simp] theorem State.updQp_marks (s : State) (q : Nat) (f : QueuePair → QueuePair) : (s.updQp q f).marks = s.marks := rfl
@[simp] theorem State.updQp_outputs (s : State) (q : Nat) (f : QueuePair → QueuePair) : (s.updQp q f).outputs = s.outputs := rfl
@[simp] theorem State.updQp_free (s : State) (q : Nat) (f : QueuePair → QueuePair) : (s.updQp q f).free = s.free := rfl

/-! ### State.setSync -/

@[simp] theorem State.setSync_pending (s : State) (die obj : Nat) (v : Word) : (s.setSync die obj v).pending = s.pending := rfl
@[simp] theorem State.setSync_dict (s : State) (die obj : Nat) (v : Word) : (s.setSync die obj v).dict = s.dict := rfl
@[simp] theorem State.setSync_inForce (s : State) (die obj : Nat) (v : Word) : (s.setSync die obj v).inForce = s.inForce := rfl
@[simp] theorem State.setSync_mirror (s : State) (die obj : Nat) (v : Word) : (s.setSync die obj v).mirror = s.mirror := rfl
@[simp] theorem State.setSync_mirrorGt (s : State) (die obj : Nat) (v : Word) : (s.setSync die obj v).mirrorGt = s.mirrorGt := rfl
@[simp] theorem State.setSync_cells (s : State) (die obj : Nat) (v : Word) : (s.setSync die obj v).cells = s.cells := rfl
@[simp] theorem State.setSync_engines (s : State) (die obj : Nat) (v : Word) : (s.setSync die obj v).engines = s.engines := rfl
@[simp] theorem State.setSync_parts (s : State) (die obj : Nat) (v : Word) : (s.setSync die obj v).parts = s.parts := rfl
@[simp] theorem State.setSync_objects (s : State) (die obj : Nat) (v : Word) : (s.setSync die obj v).objects = s.objects := rfl
@[simp] theorem State.setSync_plots (s : State) (die obj : Nat) (v : Word) : (s.setSync die obj v).plots = s.plots := rfl
@[simp] theorem State.setSync_frames (s : State) (die obj : Nat) (v : Word) : (s.setSync die obj v).frames = s.frames := rfl
@[simp] theorem State.setSync_qps (s : State) (die obj : Nat) (v : Word) : (s.setSync die obj v).qps = s.qps := rfl
@[simp] theorem State.setSync_windowNak (s : State) (die obj : Nat) (v : Word) : (s.setSync die obj v).windowNak = s.windowNak := rfl
@[simp] theorem State.setSync_shareWait (s : State) (die obj : Nat) (v : Word) : (s.setSync die obj v).shareWait = s.shareWait := rfl
@[simp] theorem State.setSync_pathDrops (s : State) (die obj : Nat) (v : Word) : (s.setSync die obj v).pathDrops = s.pathDrops := rfl
@[simp] theorem State.setSync_ttlGt (s : State) (die obj : Nat) (v : Word) : (s.setSync die obj v).ttlGt = s.ttlGt := rfl
@[simp] theorem State.setSync_bar4Bad (s : State) (die obj : Nat) (v : Word) : (s.setSync die obj v).bar4Bad = s.bar4Bad := rfl
@[simp] theorem State.setSync_refillL (s : State) (die obj : Nat) (v : Word) : (s.setSync die obj v).refillL = s.refillL := rfl
@[simp] theorem State.setSync_lastSecond (s : State) (die obj : Nat) (v : Word) : (s.setSync die obj v).lastSecond = s.lastSecond := rfl
@[simp] theorem State.setSync_privLogged (s : State) (die obj : Nat) (v : Word) : (s.setSync die obj v).privLogged = s.privLogged := rfl
@[simp] theorem State.setSync_sems (s : State) (die obj : Nat) (v : Word) : (s.setSync die obj v).sems = s.sems := rfl
@[simp] theorem State.setSync_fns (s : State) (die obj : Nat) (v : Word) : (s.setSync die obj v).fns = s.fns := rfl
@[simp] theorem State.setSync_breach (s : State) (die obj : Nat) (v : Word) : (s.setSync die obj v).breach = s.breach := rfl
@[simp] theorem State.setSync_clocks (s : State) (die obj : Nat) (v : Word) : (s.setSync die obj v).clocks = s.clocks := rfl
@[simp] theorem State.setSync_counter (s : State) (die obj : Nat) (v : Word) : (s.setSync die obj v).counter = s.counter := rfl
@[simp] theorem State.setSync_links (s : State) (die obj : Nat) (v : Word) : (s.setSync die obj v).links = s.links := rfl
@[simp] theorem State.setSync_seenMsgs (s : State) (die obj : Nat) (v : Word) : (s.setSync die obj v).seenMsgs = s.seenMsgs := rfl
@[simp] theorem State.setSync_msgSeq (s : State) (die obj : Nat) (v : Word) : (s.setSync die obj v).msgSeq = s.msgSeq := rfl
@[simp] theorem State.setSync_mailbox (s : State) (die obj : Nat) (v : Word) : (s.setSync die obj v).mailbox = s.mailbox := rfl
@[simp] theorem State.setSync_power (s : State) (die obj : Nat) (v : Word) : (s.setSync die obj v).power = s.power := rfl
@[simp] theorem State.setSync_thermal (s : State) (die obj : Nat) (v : Word) : (s.setSync die obj v).thermal = s.thermal := rfl
@[simp] theorem State.setSync_mgmt (s : State) (die obj : Nat) (v : Word) : (s.setSync die obj v).mgmt = s.mgmt := rfl
@[simp] theorem State.setSync_episodes (s : State) (die obj : Nat) (v : Word) : (s.setSync die obj v).episodes = s.episodes := rfl
@[simp] theorem State.setSync_boot (s : State) (die obj : Nat) (v : Word) : (s.setSync die obj v).boot = s.boot := rfl
@[simp] theorem State.setSync_pins (s : State) (die obj : Nat) (v : Word) : (s.setSync die obj v).pins = s.pins := rfl
@[simp] theorem State.setSync_entropy (s : State) (die obj : Nat) (v : Word) : (s.setSync die obj v).entropy = s.entropy := rfl
@[simp] theorem State.setSync_events (s : State) (die obj : Nat) (v : Word) : (s.setSync die obj v).events = s.events := rfl
@[simp] theorem State.setSync_marks (s : State) (die obj : Nat) (v : Word) : (s.setSync die obj v).marks = s.marks := rfl
@[simp] theorem State.setSync_outputs (s : State) (die obj : Nat) (v : Word) : (s.setSync die obj v).outputs = s.outputs := rfl
@[simp] theorem State.setSync_free (s : State) (die obj : Nat) (v : Word) : (s.setSync die obj v).free = s.free := rfl

/-! ### State.send -/

@[simp] theorem State.send_pending (s : State) (o : Output) : (s.send o).pending = s.pending := rfl
@[simp] theorem State.send_dict (s : State) (o : Output) : (s.send o).dict = s.dict := rfl
@[simp] theorem State.send_inForce (s : State) (o : Output) : (s.send o).inForce = s.inForce := rfl
@[simp] theorem State.send_mirror (s : State) (o : Output) : (s.send o).mirror = s.mirror := rfl
@[simp] theorem State.send_mirrorGt (s : State) (o : Output) : (s.send o).mirrorGt = s.mirrorGt := rfl
@[simp] theorem State.send_cells (s : State) (o : Output) : (s.send o).cells = s.cells := rfl
@[simp] theorem State.send_engines (s : State) (o : Output) : (s.send o).engines = s.engines := rfl
@[simp] theorem State.send_sync (s : State) (o : Output) : (s.send o).sync = s.sync := rfl
@[simp] theorem State.send_parts (s : State) (o : Output) : (s.send o).parts = s.parts := rfl
@[simp] theorem State.send_objects (s : State) (o : Output) : (s.send o).objects = s.objects := rfl
@[simp] theorem State.send_plots (s : State) (o : Output) : (s.send o).plots = s.plots := rfl
@[simp] theorem State.send_frames (s : State) (o : Output) : (s.send o).frames = s.frames := rfl
@[simp] theorem State.send_qps (s : State) (o : Output) : (s.send o).qps = s.qps := rfl
@[simp] theorem State.send_windowNak (s : State) (o : Output) : (s.send o).windowNak = s.windowNak := rfl
@[simp] theorem State.send_shareWait (s : State) (o : Output) : (s.send o).shareWait = s.shareWait := rfl
@[simp] theorem State.send_pathDrops (s : State) (o : Output) : (s.send o).pathDrops = s.pathDrops := rfl
@[simp] theorem State.send_ttlGt (s : State) (o : Output) : (s.send o).ttlGt = s.ttlGt := rfl
@[simp] theorem State.send_bar4Bad (s : State) (o : Output) : (s.send o).bar4Bad = s.bar4Bad := rfl
@[simp] theorem State.send_refillL (s : State) (o : Output) : (s.send o).refillL = s.refillL := rfl
@[simp] theorem State.send_lastSecond (s : State) (o : Output) : (s.send o).lastSecond = s.lastSecond := rfl
@[simp] theorem State.send_privLogged (s : State) (o : Output) : (s.send o).privLogged = s.privLogged := rfl
@[simp] theorem State.send_sems (s : State) (o : Output) : (s.send o).sems = s.sems := rfl
@[simp] theorem State.send_fns (s : State) (o : Output) : (s.send o).fns = s.fns := rfl
@[simp] theorem State.send_breach (s : State) (o : Output) : (s.send o).breach = s.breach := rfl
@[simp] theorem State.send_clocks (s : State) (o : Output) : (s.send o).clocks = s.clocks := rfl
@[simp] theorem State.send_counter (s : State) (o : Output) : (s.send o).counter = s.counter := rfl
@[simp] theorem State.send_links (s : State) (o : Output) : (s.send o).links = s.links := rfl
@[simp] theorem State.send_seenMsgs (s : State) (o : Output) : (s.send o).seenMsgs = s.seenMsgs := rfl
@[simp] theorem State.send_msgSeq (s : State) (o : Output) : (s.send o).msgSeq = s.msgSeq := rfl
@[simp] theorem State.send_mailbox (s : State) (o : Output) : (s.send o).mailbox = s.mailbox := rfl
@[simp] theorem State.send_power (s : State) (o : Output) : (s.send o).power = s.power := rfl
@[simp] theorem State.send_thermal (s : State) (o : Output) : (s.send o).thermal = s.thermal := rfl
@[simp] theorem State.send_mgmt (s : State) (o : Output) : (s.send o).mgmt = s.mgmt := rfl
@[simp] theorem State.send_episodes (s : State) (o : Output) : (s.send o).episodes = s.episodes := rfl
@[simp] theorem State.send_boot (s : State) (o : Output) : (s.send o).boot = s.boot := rfl
@[simp] theorem State.send_pins (s : State) (o : Output) : (s.send o).pins = s.pins := rfl
@[simp] theorem State.send_entropy (s : State) (o : Output) : (s.send o).entropy = s.entropy := rfl
@[simp] theorem State.send_events (s : State) (o : Output) : (s.send o).events = s.events := rfl
@[simp] theorem State.send_marks (s : State) (o : Output) : (s.send o).marks = s.marks := rfl
@[simp] theorem State.send_free (s : State) (o : Output) : (s.send o).free = s.free := rfl

/-! ### State.fresh -/

@[simp] theorem State.fresh_pending (s : State) : s.fresh.2.pending = s.pending := rfl
@[simp] theorem State.fresh_dict (s : State) : s.fresh.2.dict = s.dict := rfl
@[simp] theorem State.fresh_inForce (s : State) : s.fresh.2.inForce = s.inForce := rfl
@[simp] theorem State.fresh_mirror (s : State) : s.fresh.2.mirror = s.mirror := rfl
@[simp] theorem State.fresh_mirrorGt (s : State) : s.fresh.2.mirrorGt = s.mirrorGt := rfl
@[simp] theorem State.fresh_cells (s : State) : s.fresh.2.cells = s.cells := rfl
@[simp] theorem State.fresh_engines (s : State) : s.fresh.2.engines = s.engines := rfl
@[simp] theorem State.fresh_sync (s : State) : s.fresh.2.sync = s.sync := rfl
@[simp] theorem State.fresh_parts (s : State) : s.fresh.2.parts = s.parts := rfl
@[simp] theorem State.fresh_objects (s : State) : s.fresh.2.objects = s.objects := rfl
@[simp] theorem State.fresh_plots (s : State) : s.fresh.2.plots = s.plots := rfl
@[simp] theorem State.fresh_frames (s : State) : s.fresh.2.frames = s.frames := rfl
@[simp] theorem State.fresh_qps (s : State) : s.fresh.2.qps = s.qps := rfl
@[simp] theorem State.fresh_windowNak (s : State) : s.fresh.2.windowNak = s.windowNak := rfl
@[simp] theorem State.fresh_shareWait (s : State) : s.fresh.2.shareWait = s.shareWait := rfl
@[simp] theorem State.fresh_pathDrops (s : State) : s.fresh.2.pathDrops = s.pathDrops := rfl
@[simp] theorem State.fresh_ttlGt (s : State) : s.fresh.2.ttlGt = s.ttlGt := rfl
@[simp] theorem State.fresh_bar4Bad (s : State) : s.fresh.2.bar4Bad = s.bar4Bad := rfl
@[simp] theorem State.fresh_refillL (s : State) : s.fresh.2.refillL = s.refillL := rfl
@[simp] theorem State.fresh_lastSecond (s : State) : s.fresh.2.lastSecond = s.lastSecond := rfl
@[simp] theorem State.fresh_privLogged (s : State) : s.fresh.2.privLogged = s.privLogged := rfl
@[simp] theorem State.fresh_sems (s : State) : s.fresh.2.sems = s.sems := rfl
@[simp] theorem State.fresh_fns (s : State) : s.fresh.2.fns = s.fns := rfl
@[simp] theorem State.fresh_breach (s : State) : s.fresh.2.breach = s.breach := rfl
@[simp] theorem State.fresh_clocks (s : State) : s.fresh.2.clocks = s.clocks := rfl
@[simp] theorem State.fresh_counter (s : State) : s.fresh.2.counter = s.counter := rfl
@[simp] theorem State.fresh_links (s : State) : s.fresh.2.links = s.links := rfl
@[simp] theorem State.fresh_seenMsgs (s : State) : s.fresh.2.seenMsgs = s.seenMsgs := rfl
@[simp] theorem State.fresh_msgSeq (s : State) : s.fresh.2.msgSeq = s.msgSeq := rfl
@[simp] theorem State.fresh_mailbox (s : State) : s.fresh.2.mailbox = s.mailbox := rfl
@[simp] theorem State.fresh_power (s : State) : s.fresh.2.power = s.power := rfl
@[simp] theorem State.fresh_thermal (s : State) : s.fresh.2.thermal = s.thermal := rfl
@[simp] theorem State.fresh_mgmt (s : State) : s.fresh.2.mgmt = s.mgmt := rfl
@[simp] theorem State.fresh_episodes (s : State) : s.fresh.2.episodes = s.episodes := rfl
@[simp] theorem State.fresh_boot (s : State) : s.fresh.2.boot = s.boot := rfl
@[simp] theorem State.fresh_pins (s : State) : s.fresh.2.pins = s.pins := rfl
@[simp] theorem State.fresh_entropy (s : State) : s.fresh.2.entropy = s.entropy := rfl
@[simp] theorem State.fresh_events (s : State) : s.fresh.2.events = s.events := rfl
@[simp] theorem State.fresh_marks (s : State) : s.fresh.2.marks = s.marks := rfl
@[simp] theorem State.fresh_outputs (s : State) : s.fresh.2.outputs = s.outputs := rfl

/-! ### odSet -/

@[simp] theorem odSet_pending (s : State) (index sub elem v : Nat) : (odSet s index sub elem v).pending = s.pending := rfl
@[simp] theorem odSet_inForce (s : State) (index sub elem v : Nat) : (odSet s index sub elem v).inForce = s.inForce := rfl
@[simp] theorem odSet_mirror (s : State) (index sub elem v : Nat) : (odSet s index sub elem v).mirror = s.mirror := rfl
@[simp] theorem odSet_mirrorGt (s : State) (index sub elem v : Nat) : (odSet s index sub elem v).mirrorGt = s.mirrorGt := rfl
@[simp] theorem odSet_cells (s : State) (index sub elem v : Nat) : (odSet s index sub elem v).cells = s.cells := rfl
@[simp] theorem odSet_engines (s : State) (index sub elem v : Nat) : (odSet s index sub elem v).engines = s.engines := rfl
@[simp] theorem odSet_sync (s : State) (index sub elem v : Nat) : (odSet s index sub elem v).sync = s.sync := rfl
@[simp] theorem odSet_parts (s : State) (index sub elem v : Nat) : (odSet s index sub elem v).parts = s.parts := rfl
@[simp] theorem odSet_objects (s : State) (index sub elem v : Nat) : (odSet s index sub elem v).objects = s.objects := rfl
@[simp] theorem odSet_plots (s : State) (index sub elem v : Nat) : (odSet s index sub elem v).plots = s.plots := rfl
@[simp] theorem odSet_frames (s : State) (index sub elem v : Nat) : (odSet s index sub elem v).frames = s.frames := rfl
@[simp] theorem odSet_qps (s : State) (index sub elem v : Nat) : (odSet s index sub elem v).qps = s.qps := rfl
@[simp] theorem odSet_windowNak (s : State) (index sub elem v : Nat) : (odSet s index sub elem v).windowNak = s.windowNak := rfl
@[simp] theorem odSet_shareWait (s : State) (index sub elem v : Nat) : (odSet s index sub elem v).shareWait = s.shareWait := rfl
@[simp] theorem odSet_pathDrops (s : State) (index sub elem v : Nat) : (odSet s index sub elem v).pathDrops = s.pathDrops := rfl
@[simp] theorem odSet_ttlGt (s : State) (index sub elem v : Nat) : (odSet s index sub elem v).ttlGt = s.ttlGt := rfl
@[simp] theorem odSet_bar4Bad (s : State) (index sub elem v : Nat) : (odSet s index sub elem v).bar4Bad = s.bar4Bad := rfl
@[simp] theorem odSet_refillL (s : State) (index sub elem v : Nat) : (odSet s index sub elem v).refillL = s.refillL := rfl
@[simp] theorem odSet_lastSecond (s : State) (index sub elem v : Nat) : (odSet s index sub elem v).lastSecond = s.lastSecond := rfl
@[simp] theorem odSet_privLogged (s : State) (index sub elem v : Nat) : (odSet s index sub elem v).privLogged = s.privLogged := rfl
@[simp] theorem odSet_sems (s : State) (index sub elem v : Nat) : (odSet s index sub elem v).sems = s.sems := rfl
@[simp] theorem odSet_fns (s : State) (index sub elem v : Nat) : (odSet s index sub elem v).fns = s.fns := rfl
@[simp] theorem odSet_breach (s : State) (index sub elem v : Nat) : (odSet s index sub elem v).breach = s.breach := rfl
@[simp] theorem odSet_clocks (s : State) (index sub elem v : Nat) : (odSet s index sub elem v).clocks = s.clocks := rfl
@[simp] theorem odSet_counter (s : State) (index sub elem v : Nat) : (odSet s index sub elem v).counter = s.counter := rfl
@[simp] theorem odSet_links (s : State) (index sub elem v : Nat) : (odSet s index sub elem v).links = s.links := rfl
@[simp] theorem odSet_seenMsgs (s : State) (index sub elem v : Nat) : (odSet s index sub elem v).seenMsgs = s.seenMsgs := rfl
@[simp] theorem odSet_msgSeq (s : State) (index sub elem v : Nat) : (odSet s index sub elem v).msgSeq = s.msgSeq := rfl
@[simp] theorem odSet_mailbox (s : State) (index sub elem v : Nat) : (odSet s index sub elem v).mailbox = s.mailbox := rfl
@[simp] theorem odSet_power (s : State) (index sub elem v : Nat) : (odSet s index sub elem v).power = s.power := rfl
@[simp] theorem odSet_thermal (s : State) (index sub elem v : Nat) : (odSet s index sub elem v).thermal = s.thermal := rfl
@[simp] theorem odSet_mgmt (s : State) (index sub elem v : Nat) : (odSet s index sub elem v).mgmt = s.mgmt := rfl
@[simp] theorem odSet_episodes (s : State) (index sub elem v : Nat) : (odSet s index sub elem v).episodes = s.episodes := rfl
@[simp] theorem odSet_boot (s : State) (index sub elem v : Nat) : (odSet s index sub elem v).boot = s.boot := rfl
@[simp] theorem odSet_pins (s : State) (index sub elem v : Nat) : (odSet s index sub elem v).pins = s.pins := rfl
@[simp] theorem odSet_entropy (s : State) (index sub elem v : Nat) : (odSet s index sub elem v).entropy = s.entropy := rfl
@[simp] theorem odSet_events (s : State) (index sub elem v : Nat) : (odSet s index sub elem v).events = s.events := rfl
@[simp] theorem odSet_marks (s : State) (index sub elem v : Nat) : (odSet s index sub elem v).marks = s.marks := rfl
@[simp] theorem odSet_outputs (s : State) (index sub elem v : Nat) : (odSet s index sub elem v).outputs = s.outputs := rfl
@[simp] theorem odSet_free (s : State) (index sub elem v : Nat) : (odSet s index sub elem v).free = s.free := rfl

/-! ### State.setObj -/

@[simp] theorem State.setObj_pending (s : State) (p o : Nat) (x : Obj) : (s.setObj p o x).pending = s.pending := rfl
@[simp] theorem State.setObj_dict (s : State) (p o : Nat) (x : Obj) : (s.setObj p o x).dict = s.dict := rfl
@[simp] theorem State.setObj_inForce (s : State) (p o : Nat) (x : Obj) : (s.setObj p o x).inForce = s.inForce := rfl
@[simp] theorem State.setObj_mirror (s : State) (p o : Nat) (x : Obj) : (s.setObj p o x).mirror = s.mirror := rfl
@[simp] theorem State.setObj_mirrorGt (s : State) (p o : Nat) (x : Obj) : (s.setObj p o x).mirrorGt = s.mirrorGt := rfl
@[simp] theorem State.setObj_cells (s : State) (p o : Nat) (x : Obj) : (s.setObj p o x).cells = s.cells := rfl
@[simp] theorem State.setObj_engines (s : State) (p o : Nat) (x : Obj) : (s.setObj p o x).engines = s.engines := rfl
@[simp] theorem State.setObj_sync (s : State) (p o : Nat) (x : Obj) : (s.setObj p o x).sync = s.sync := rfl
@[simp] theorem State.setObj_parts (s : State) (p o : Nat) (x : Obj) : (s.setObj p o x).parts = s.parts := rfl
@[simp] theorem State.setObj_plots (s : State) (p o : Nat) (x : Obj) : (s.setObj p o x).plots = s.plots := rfl
@[simp] theorem State.setObj_frames (s : State) (p o : Nat) (x : Obj) : (s.setObj p o x).frames = s.frames := rfl
@[simp] theorem State.setObj_qps (s : State) (p o : Nat) (x : Obj) : (s.setObj p o x).qps = s.qps := rfl
@[simp] theorem State.setObj_windowNak (s : State) (p o : Nat) (x : Obj) : (s.setObj p o x).windowNak = s.windowNak := rfl
@[simp] theorem State.setObj_shareWait (s : State) (p o : Nat) (x : Obj) : (s.setObj p o x).shareWait = s.shareWait := rfl
@[simp] theorem State.setObj_pathDrops (s : State) (p o : Nat) (x : Obj) : (s.setObj p o x).pathDrops = s.pathDrops := rfl
@[simp] theorem State.setObj_ttlGt (s : State) (p o : Nat) (x : Obj) : (s.setObj p o x).ttlGt = s.ttlGt := rfl
@[simp] theorem State.setObj_bar4Bad (s : State) (p o : Nat) (x : Obj) : (s.setObj p o x).bar4Bad = s.bar4Bad := rfl
@[simp] theorem State.setObj_refillL (s : State) (p o : Nat) (x : Obj) : (s.setObj p o x).refillL = s.refillL := rfl
@[simp] theorem State.setObj_lastSecond (s : State) (p o : Nat) (x : Obj) : (s.setObj p o x).lastSecond = s.lastSecond := rfl
@[simp] theorem State.setObj_privLogged (s : State) (p o : Nat) (x : Obj) : (s.setObj p o x).privLogged = s.privLogged := rfl
@[simp] theorem State.setObj_sems (s : State) (p o : Nat) (x : Obj) : (s.setObj p o x).sems = s.sems := rfl
@[simp] theorem State.setObj_fns (s : State) (p o : Nat) (x : Obj) : (s.setObj p o x).fns = s.fns := rfl
@[simp] theorem State.setObj_breach (s : State) (p o : Nat) (x : Obj) : (s.setObj p o x).breach = s.breach := rfl
@[simp] theorem State.setObj_clocks (s : State) (p o : Nat) (x : Obj) : (s.setObj p o x).clocks = s.clocks := rfl
@[simp] theorem State.setObj_counter (s : State) (p o : Nat) (x : Obj) : (s.setObj p o x).counter = s.counter := rfl
@[simp] theorem State.setObj_links (s : State) (p o : Nat) (x : Obj) : (s.setObj p o x).links = s.links := rfl
@[simp] theorem State.setObj_seenMsgs (s : State) (p o : Nat) (x : Obj) : (s.setObj p o x).seenMsgs = s.seenMsgs := rfl
@[simp] theorem State.setObj_msgSeq (s : State) (p o : Nat) (x : Obj) : (s.setObj p o x).msgSeq = s.msgSeq := rfl
@[simp] theorem State.setObj_mailbox (s : State) (p o : Nat) (x : Obj) : (s.setObj p o x).mailbox = s.mailbox := rfl
@[simp] theorem State.setObj_power (s : State) (p o : Nat) (x : Obj) : (s.setObj p o x).power = s.power := rfl
@[simp] theorem State.setObj_thermal (s : State) (p o : Nat) (x : Obj) : (s.setObj p o x).thermal = s.thermal := rfl
@[simp] theorem State.setObj_mgmt (s : State) (p o : Nat) (x : Obj) : (s.setObj p o x).mgmt = s.mgmt := rfl
@[simp] theorem State.setObj_episodes (s : State) (p o : Nat) (x : Obj) : (s.setObj p o x).episodes = s.episodes := rfl
@[simp] theorem State.setObj_boot (s : State) (p o : Nat) (x : Obj) : (s.setObj p o x).boot = s.boot := rfl
@[simp] theorem State.setObj_pins (s : State) (p o : Nat) (x : Obj) : (s.setObj p o x).pins = s.pins := rfl
@[simp] theorem State.setObj_entropy (s : State) (p o : Nat) (x : Obj) : (s.setObj p o x).entropy = s.entropy := rfl
@[simp] theorem State.setObj_events (s : State) (p o : Nat) (x : Obj) : (s.setObj p o x).events = s.events := rfl
@[simp] theorem State.setObj_marks (s : State) (p o : Nat) (x : Obj) : (s.setObj p o x).marks = s.marks := rfl
@[simp] theorem State.setObj_outputs (s : State) (p o : Nat) (x : Obj) : (s.setObj p o x).outputs = s.outputs := rfl
@[simp] theorem State.setObj_free (s : State) (p o : Nat) (x : Obj) : (s.setObj p o x).free = s.free := rfl

/-! ### State.setPlot -/

@[simp] theorem State.setPlot_pending (s : State) (p v : Nat) (x : Plot) : (s.setPlot p v x).pending = s.pending := rfl
@[simp] theorem State.setPlot_dict (s : State) (p v : Nat) (x : Plot) : (s.setPlot p v x).dict = s.dict := rfl
@[simp] theorem State.setPlot_inForce (s : State) (p v : Nat) (x : Plot) : (s.setPlot p v x).inForce = s.inForce := rfl
@[simp] theorem State.setPlot_mirror (s : State) (p v : Nat) (x : Plot) : (s.setPlot p v x).mirror = s.mirror := rfl
@[simp] theorem State.setPlot_mirrorGt (s : State) (p v : Nat) (x : Plot) : (s.setPlot p v x).mirrorGt = s.mirrorGt := rfl
@[simp] theorem State.setPlot_cells (s : State) (p v : Nat) (x : Plot) : (s.setPlot p v x).cells = s.cells := rfl
@[simp] theorem State.setPlot_engines (s : State) (p v : Nat) (x : Plot) : (s.setPlot p v x).engines = s.engines := rfl
@[simp] theorem State.setPlot_sync (s : State) (p v : Nat) (x : Plot) : (s.setPlot p v x).sync = s.sync := rfl
@[simp] theorem State.setPlot_parts (s : State) (p v : Nat) (x : Plot) : (s.setPlot p v x).parts = s.parts := rfl
@[simp] theorem State.setPlot_objects (s : State) (p v : Nat) (x : Plot) : (s.setPlot p v x).objects = s.objects := rfl
@[simp] theorem State.setPlot_frames (s : State) (p v : Nat) (x : Plot) : (s.setPlot p v x).frames = s.frames := rfl
@[simp] theorem State.setPlot_qps (s : State) (p v : Nat) (x : Plot) : (s.setPlot p v x).qps = s.qps := rfl
@[simp] theorem State.setPlot_windowNak (s : State) (p v : Nat) (x : Plot) : (s.setPlot p v x).windowNak = s.windowNak := rfl
@[simp] theorem State.setPlot_shareWait (s : State) (p v : Nat) (x : Plot) : (s.setPlot p v x).shareWait = s.shareWait := rfl
@[simp] theorem State.setPlot_pathDrops (s : State) (p v : Nat) (x : Plot) : (s.setPlot p v x).pathDrops = s.pathDrops := rfl
@[simp] theorem State.setPlot_ttlGt (s : State) (p v : Nat) (x : Plot) : (s.setPlot p v x).ttlGt = s.ttlGt := rfl
@[simp] theorem State.setPlot_bar4Bad (s : State) (p v : Nat) (x : Plot) : (s.setPlot p v x).bar4Bad = s.bar4Bad := rfl
@[simp] theorem State.setPlot_refillL (s : State) (p v : Nat) (x : Plot) : (s.setPlot p v x).refillL = s.refillL := rfl
@[simp] theorem State.setPlot_lastSecond (s : State) (p v : Nat) (x : Plot) : (s.setPlot p v x).lastSecond = s.lastSecond := rfl
@[simp] theorem State.setPlot_privLogged (s : State) (p v : Nat) (x : Plot) : (s.setPlot p v x).privLogged = s.privLogged := rfl
@[simp] theorem State.setPlot_sems (s : State) (p v : Nat) (x : Plot) : (s.setPlot p v x).sems = s.sems := rfl
@[simp] theorem State.setPlot_fns (s : State) (p v : Nat) (x : Plot) : (s.setPlot p v x).fns = s.fns := rfl
@[simp] theorem State.setPlot_breach (s : State) (p v : Nat) (x : Plot) : (s.setPlot p v x).breach = s.breach := rfl
@[simp] theorem State.setPlot_clocks (s : State) (p v : Nat) (x : Plot) : (s.setPlot p v x).clocks = s.clocks := rfl
@[simp] theorem State.setPlot_counter (s : State) (p v : Nat) (x : Plot) : (s.setPlot p v x).counter = s.counter := rfl
@[simp] theorem State.setPlot_links (s : State) (p v : Nat) (x : Plot) : (s.setPlot p v x).links = s.links := rfl
@[simp] theorem State.setPlot_seenMsgs (s : State) (p v : Nat) (x : Plot) : (s.setPlot p v x).seenMsgs = s.seenMsgs := rfl
@[simp] theorem State.setPlot_msgSeq (s : State) (p v : Nat) (x : Plot) : (s.setPlot p v x).msgSeq = s.msgSeq := rfl
@[simp] theorem State.setPlot_mailbox (s : State) (p v : Nat) (x : Plot) : (s.setPlot p v x).mailbox = s.mailbox := rfl
@[simp] theorem State.setPlot_power (s : State) (p v : Nat) (x : Plot) : (s.setPlot p v x).power = s.power := rfl
@[simp] theorem State.setPlot_thermal (s : State) (p v : Nat) (x : Plot) : (s.setPlot p v x).thermal = s.thermal := rfl
@[simp] theorem State.setPlot_mgmt (s : State) (p v : Nat) (x : Plot) : (s.setPlot p v x).mgmt = s.mgmt := rfl
@[simp] theorem State.setPlot_episodes (s : State) (p v : Nat) (x : Plot) : (s.setPlot p v x).episodes = s.episodes := rfl
@[simp] theorem State.setPlot_boot (s : State) (p v : Nat) (x : Plot) : (s.setPlot p v x).boot = s.boot := rfl
@[simp] theorem State.setPlot_pins (s : State) (p v : Nat) (x : Plot) : (s.setPlot p v x).pins = s.pins := rfl
@[simp] theorem State.setPlot_entropy (s : State) (p v : Nat) (x : Plot) : (s.setPlot p v x).entropy = s.entropy := rfl
@[simp] theorem State.setPlot_events (s : State) (p v : Nat) (x : Plot) : (s.setPlot p v x).events = s.events := rfl
@[simp] theorem State.setPlot_marks (s : State) (p v : Nat) (x : Plot) : (s.setPlot p v x).marks = s.marks := rfl
@[simp] theorem State.setPlot_outputs (s : State) (p v : Nat) (x : Plot) : (s.setPlot p v x).outputs = s.outputs := rfl
@[simp] theorem State.setPlot_free (s : State) (p v : Nat) (x : Plot) : (s.setPlot p v x).free = s.free := rfl

/-! ### State.setFrame -/

@[simp] theorem State.setFrame_pending (s : State) (k : Nat) (x : Frame) : (s.setFrame k x).pending = s.pending := rfl
@[simp] theorem State.setFrame_dict (s : State) (k : Nat) (x : Frame) : (s.setFrame k x).dict = s.dict := rfl
@[simp] theorem State.setFrame_inForce (s : State) (k : Nat) (x : Frame) : (s.setFrame k x).inForce = s.inForce := rfl
@[simp] theorem State.setFrame_mirror (s : State) (k : Nat) (x : Frame) : (s.setFrame k x).mirror = s.mirror := rfl
@[simp] theorem State.setFrame_mirrorGt (s : State) (k : Nat) (x : Frame) : (s.setFrame k x).mirrorGt = s.mirrorGt := rfl
@[simp] theorem State.setFrame_cells (s : State) (k : Nat) (x : Frame) : (s.setFrame k x).cells = s.cells := rfl
@[simp] theorem State.setFrame_engines (s : State) (k : Nat) (x : Frame) : (s.setFrame k x).engines = s.engines := rfl
@[simp] theorem State.setFrame_sync (s : State) (k : Nat) (x : Frame) : (s.setFrame k x).sync = s.sync := rfl
@[simp] theorem State.setFrame_parts (s : State) (k : Nat) (x : Frame) : (s.setFrame k x).parts = s.parts := rfl
@[simp] theorem State.setFrame_objects (s : State) (k : Nat) (x : Frame) : (s.setFrame k x).objects = s.objects := rfl
@[simp] theorem State.setFrame_plots (s : State) (k : Nat) (x : Frame) : (s.setFrame k x).plots = s.plots := rfl
@[simp] theorem State.setFrame_qps (s : State) (k : Nat) (x : Frame) : (s.setFrame k x).qps = s.qps := rfl
@[simp] theorem State.setFrame_windowNak (s : State) (k : Nat) (x : Frame) : (s.setFrame k x).windowNak = s.windowNak := rfl
@[simp] theorem State.setFrame_shareWait (s : State) (k : Nat) (x : Frame) : (s.setFrame k x).shareWait = s.shareWait := rfl
@[simp] theorem State.setFrame_pathDrops (s : State) (k : Nat) (x : Frame) : (s.setFrame k x).pathDrops = s.pathDrops := rfl
@[simp] theorem State.setFrame_ttlGt (s : State) (k : Nat) (x : Frame) : (s.setFrame k x).ttlGt = s.ttlGt := rfl
@[simp] theorem State.setFrame_bar4Bad (s : State) (k : Nat) (x : Frame) : (s.setFrame k x).bar4Bad = s.bar4Bad := rfl
@[simp] theorem State.setFrame_refillL (s : State) (k : Nat) (x : Frame) : (s.setFrame k x).refillL = s.refillL := rfl
@[simp] theorem State.setFrame_lastSecond (s : State) (k : Nat) (x : Frame) : (s.setFrame k x).lastSecond = s.lastSecond := rfl
@[simp] theorem State.setFrame_privLogged (s : State) (k : Nat) (x : Frame) : (s.setFrame k x).privLogged = s.privLogged := rfl
@[simp] theorem State.setFrame_sems (s : State) (k : Nat) (x : Frame) : (s.setFrame k x).sems = s.sems := rfl
@[simp] theorem State.setFrame_fns (s : State) (k : Nat) (x : Frame) : (s.setFrame k x).fns = s.fns := rfl
@[simp] theorem State.setFrame_breach (s : State) (k : Nat) (x : Frame) : (s.setFrame k x).breach = s.breach := rfl
@[simp] theorem State.setFrame_clocks (s : State) (k : Nat) (x : Frame) : (s.setFrame k x).clocks = s.clocks := rfl
@[simp] theorem State.setFrame_counter (s : State) (k : Nat) (x : Frame) : (s.setFrame k x).counter = s.counter := rfl
@[simp] theorem State.setFrame_links (s : State) (k : Nat) (x : Frame) : (s.setFrame k x).links = s.links := rfl
@[simp] theorem State.setFrame_seenMsgs (s : State) (k : Nat) (x : Frame) : (s.setFrame k x).seenMsgs = s.seenMsgs := rfl
@[simp] theorem State.setFrame_msgSeq (s : State) (k : Nat) (x : Frame) : (s.setFrame k x).msgSeq = s.msgSeq := rfl
@[simp] theorem State.setFrame_mailbox (s : State) (k : Nat) (x : Frame) : (s.setFrame k x).mailbox = s.mailbox := rfl
@[simp] theorem State.setFrame_power (s : State) (k : Nat) (x : Frame) : (s.setFrame k x).power = s.power := rfl
@[simp] theorem State.setFrame_thermal (s : State) (k : Nat) (x : Frame) : (s.setFrame k x).thermal = s.thermal := rfl
@[simp] theorem State.setFrame_mgmt (s : State) (k : Nat) (x : Frame) : (s.setFrame k x).mgmt = s.mgmt := rfl
@[simp] theorem State.setFrame_episodes (s : State) (k : Nat) (x : Frame) : (s.setFrame k x).episodes = s.episodes := rfl
@[simp] theorem State.setFrame_boot (s : State) (k : Nat) (x : Frame) : (s.setFrame k x).boot = s.boot := rfl
@[simp] theorem State.setFrame_pins (s : State) (k : Nat) (x : Frame) : (s.setFrame k x).pins = s.pins := rfl
@[simp] theorem State.setFrame_entropy (s : State) (k : Nat) (x : Frame) : (s.setFrame k x).entropy = s.entropy := rfl
@[simp] theorem State.setFrame_events (s : State) (k : Nat) (x : Frame) : (s.setFrame k x).events = s.events := rfl
@[simp] theorem State.setFrame_marks (s : State) (k : Nat) (x : Frame) : (s.setFrame k x).marks = s.marks := rfl
@[simp] theorem State.setFrame_outputs (s : State) (k : Nat) (x : Frame) : (s.setFrame k x).outputs = s.outputs := rfl
@[simp] theorem State.setFrame_free (s : State) (k : Nat) (x : Frame) : (s.setFrame k x).free = s.free := rfl

/-! ### Reading back -/

@[simp] theorem State.cell_setCell_same (s : State) (c : Nat) (x : Cell) : (s.setCell c x).cell c = x := by
  simp [State.cell, State.setCell]

@[simp] theorem State.cell_setCell_ne (s : State) {c d : Nat} (x : Cell) (h : d ≠ c) : (s.setCell c x).cell d = s.cell d := by
  simp [State.cell, State.setCell, h]

@[simp] theorem State.cell_updCell_same (s : State) (c : Nat) (f : Cell → Cell) : (s.updCell c f).cell c = f (s.cell c) := by
  simp [State.updCell]

@[simp] theorem State.cell_updCell_ne (s : State) {c d : Nat} (f : Cell → Cell) (h : d ≠ c) :
    (s.updCell c f).cell d = s.cell d := by
  simp [State.updCell, h]

@[simp] theorem State.part_setPart_same (s : State) (p : Nat) (x : Part) : (s.setPart p x).part p = x := by
  simp [State.part, State.setPart]

@[simp] theorem State.part_updPart_same (s : State) (p : Nat) (f : Part → Part) : (s.updPart p f).part p = f (s.part p) := by
  simp [State.updPart]

@[simp] theorem State.part_updPart_ne (s : State) {p q : Nat} (f : Part → Part) (h : q ≠ p) :
    (s.updPart p f).part q = s.part q := by
  simp [State.updPart, State.part, State.setPart, h]

@[simp] theorem State.engine_updEngine_same (s : State) (e : Nat) (f : Engine → Engine) :
    (s.updEngine e f).engine e = f (s.engine e) := by
  simp [State.updEngine, State.engine]

@[simp] theorem State.link_updLink_same (s : State) (l : Nat) (f : Link → Link) : (s.updLink l f).link l = f (s.link l) := by
  simp [State.updLink, State.link]

@[simp] theorem State.link_updLink_ne (s : State) {l k : Nat} (f : Link → Link) (h : k ≠ l) :
    (s.updLink l f).link k = s.link k := by
  simp [State.updLink, State.link, h]

@[simp] theorem State.fn_updFn_same (s : State) (n : Nat) (f : HostFn → HostFn) : (s.updFn n f).fn n = f (s.fn n) := by
  simp [State.updFn, State.fn]

@[simp] theorem State.qp_updQp_same (s : State) (q : Nat) (f : QueuePair → QueuePair) : (s.updQp q f).qp q = f (s.qp q) := by
  simp [State.updQp, State.qp]

@[simp] theorem State.syncObj_setSync_same (s : State) (d o : Nat) (v : Word) : (s.setSync d o v).syncObj d o = v := by
  simp [State.syncObj, State.setSync]

@[simp] theorem State.frame_setFrame_same (s : State) (k : Nat) (x : Frame) : (s.setFrame k x).frame k = x := by
  simp [State.frame, State.setFrame]

@[simp] theorem State.obj_setObj_same (s : State) (p o : Nat) (x : Obj) : (s.setObj p o x).obj p o = some x := by
  simp [State.obj, State.setObj]

theorem State.plotEntry_setPlot_same (s : State) (p v : Nat) (x : Plot) (h : v < 2 ^ 29) :
    (s.setPlot p v x).plotEntry p v = some x := by
  simp only [State.plotEntry, if_pos h, State.setPlot]
  simp

/-- A dictionary element reads back as it was stored. -/
@[simp] theorem od_odSet_same (s : State) (index sub elem v : Nat) : od (odSet s index sub elem v) index sub elem = v := by
  simp [od, odSet]

/-- A store leaves every other dictionary element alone. -/
theorem od_odSet_ne (s : State) {index sub elem i' s' e' : Nat} (v : Nat) (h : odKey i' s' e' ≠ odKey index sub elem) :
    od (odSet s index sub elem v) i' s' e' = od s i' s' e' := by
  simp [od, odSet, h]

/-- What every store in the dictionary leaves alone: the two ways of reading a default. -/
theorem od_of_dict {s t : State} (h : t.dict = s.dict) (hb : t.boot = s.boot) (index sub elem : Nat) :
    od t index sub elem = od s index sub elem := by
  simp [od, h, hb]

end Sys2Proof.Machine
end

