-- ==== Sys2Proof/Laws/Ops.lean ====
section
/-! SUPPORT. What each shared operation can do, said once: the event log, interrupts, partition states, fabric time, aborts,
and the issue of an instruction. -/
namespace Sys2Proof.Machine

/-- A fold of updates that each leave a part of the state alone leaves it alone. -/
theorem foldl_keeps {α β : Type} (g : State → β) (f : State → α → State) (h : ∀ s x, g (f s x) = g s) (l : List α) (s : State) :
    g (l.foldl f s) = g s := by
  induction l generalizing s with
  | nil => rfl
  | cons x l ih => rw [List.foldl_cons, ih, h]

/-! ### Counting -/

@[simp] theorem odCount_pending (s : State) (index sub elem w n : Nat) : (odCount s index sub elem w n).pending = s.pending := rfl
@[simp] theorem odCount_inForce (s : State) (index sub elem w n : Nat) : (odCount s index sub elem w n).inForce = s.inForce := rfl
@[simp] theorem odCount_mirror (s : State) (index sub elem w n : Nat) : (odCount s index sub elem w n).mirror = s.mirror := rfl
@[simp] theorem odCount_mirrorGt (s : State) (index sub elem w n : Nat) : (odCount s index sub elem w n).mirrorGt = s.mirrorGt := rfl
@[simp] theorem odCount_cells (s : State) (index sub elem w n : Nat) : (odCount s index sub elem w n).cells = s.cells := rfl
@[simp] theorem odCount_engines (s : State) (index sub elem w n : Nat) : (odCount s index sub elem w n).engines = s.engines := rfl
@[simp] theorem odCount_sync (s : State) (index sub elem w n : Nat) : (odCount s index sub elem w n).sync = s.sync := rfl
@[simp] theorem odCount_parts (s : State) (index sub elem w n : Nat) : (odCount s index sub elem w n).parts = s.parts := rfl
@[simp] theorem odCount_objects (s : State) (index sub elem w n : Nat) : (odCount s index sub elem w n).objects = s.objects := rfl
@[simp] theorem odCount_plots (s : State) (index sub elem w n : Nat) : (odCount s index sub elem w n).plots = s.plots := rfl
@[simp] theorem odCount_frames (s : State) (index sub elem w n : Nat) : (odCount s index sub elem w n).frames = s.frames := rfl
@[simp] theorem odCount_qps (s : State) (index sub elem w n : Nat) : (odCount s index sub elem w n).qps = s.qps := rfl
@[simp] theorem odCount_windowNak (s : State) (index sub elem w n : Nat) : (odCount s index sub elem w n).windowNak = s.windowNak := rfl
@[simp] theorem odCount_shareWait (s : State) (index sub elem w n : Nat) : (odCount s index sub elem w n).shareWait = s.shareWait := rfl
@[simp] theorem odCount_pathDrops (s : State) (index sub elem w n : Nat) : (odCount s index sub elem w n).pathDrops = s.pathDrops := rfl
@[simp] theorem odCount_ttlGt (s : State) (index sub elem w n : Nat) : (odCount s index sub elem w n).ttlGt = s.ttlGt := rfl
@[simp] theorem odCount_bar4Bad (s : State) (index sub elem w n : Nat) : (odCount s index sub elem w n).bar4Bad = s.bar4Bad := rfl
@[simp] theorem odCount_refillL (s : State) (index sub elem w n : Nat) : (odCount s index sub elem w n).refillL = s.refillL := rfl
@[simp] theorem odCount_lastSecond (s : State) (index sub elem w n : Nat) : (odCount s index sub elem w n).lastSecond = s.lastSecond := rfl
@[simp] theorem odCount_privLogged (s : State) (index sub elem w n : Nat) : (odCount s index sub elem w n).privLogged = s.privLogged := rfl
@[simp] theorem odCount_sems (s : State) (index sub elem w n : Nat) : (odCount s index sub elem w n).sems = s.sems := rfl
@[simp] theorem odCount_fns (s : State) (index sub elem w n : Nat) : (odCount s index sub elem w n).fns = s.fns := rfl
@[simp] theorem odCount_breach (s : State) (index sub elem w n : Nat) : (odCount s index sub elem w n).breach = s.breach := rfl
@[simp] theorem odCount_clocks (s : State) (index sub elem w n : Nat) : (odCount s index sub elem w n).clocks = s.clocks := rfl
@[simp] theorem odCount_counter (s : State) (index sub elem w n : Nat) : (odCount s index sub elem w n).counter = s.counter := rfl
@[simp] theorem odCount_links (s : State) (index sub elem w n : Nat) : (odCount s index sub elem w n).links = s.links := rfl
@[simp] theorem odCount_seenMsgs (s : State) (index sub elem w n : Nat) : (odCount s index sub elem w n).seenMsgs = s.seenMsgs := rfl
@[simp] theorem odCount_msgSeq (s : State) (index sub elem w n : Nat) : (odCount s index sub elem w n).msgSeq = s.msgSeq := rfl
@[simp] theorem odCount_mailbox (s : State) (index sub elem w n : Nat) : (odCount s index sub elem w n).mailbox = s.mailbox := rfl
@[simp] theorem odCount_power (s : State) (index sub elem w n : Nat) : (odCount s index sub elem w n).power = s.power := rfl
@[simp] theorem odCount_thermal (s : State) (index sub elem w n : Nat) : (odCount s index sub elem w n).thermal = s.thermal := rfl
@[simp] theorem odCount_mgmt (s : State) (index sub elem w n : Nat) : (odCount s index sub elem w n).mgmt = s.mgmt := rfl
@[simp] theorem odCount_episodes (s : State) (index sub elem w n : Nat) : (odCount s index sub elem w n).episodes = s.episodes := rfl
@[simp] theorem odCount_boot (s : State) (index sub elem w n : Nat) : (odCount s index sub elem w n).boot = s.boot := rfl
@[simp] theorem odCount_pins (s : State) (index sub elem w n : Nat) : (odCount s index sub elem w n).pins = s.pins := rfl
@[simp] theorem odCount_entropy (s : State) (index sub elem w n : Nat) : (odCount s index sub elem w n).entropy = s.entropy := rfl
@[simp] theorem odCount_events (s : State) (index sub elem w n : Nat) : (odCount s index sub elem w n).events = s.events := rfl
@[simp] theorem odCount_marks (s : State) (index sub elem w n : Nat) : (odCount s index sub elem w n).marks = s.marks := rfl
@[simp] theorem odCount_outputs (s : State) (index sub elem w n : Nat) : (odCount s index sub elem w n).outputs = s.outputs := rfl
@[simp] theorem odCount_free (s : State) (index sub elem w n : Nat) : (odCount s index sub elem w n).free = s.free := rfl

/-! ### The event log -/

@[simp] theorem logEvent_pending (s : State) (code reason ec pl : Nat) (p : Option Nat) (d : Nat) : (logEvent s code reason ec pl p d).pending = s.pending := by simp only [logEvent]; split <;> split <;> rfl
@[simp] theorem logEvent_inForce (s : State) (code reason ec pl : Nat) (p : Option Nat) (d : Nat) : (logEvent s code reason ec pl p d).inForce = s.inForce := by simp only [logEvent]; split <;> split <;> rfl
@[simp] theorem logEvent_mirror (s : State) (code reason ec pl : Nat) (p : Option Nat) (d : Nat) : (logEvent s code reason ec pl p d).mirror = s.mirror := by simp only [logEvent]; split <;> split <;> rfl
@[simp] theorem logEvent_mirrorGt (s : State) (code reason ec pl : Nat) (p : Option Nat) (d : Nat) : (logEvent s code reason ec pl p d).mirrorGt = s.mirrorGt := by simp only [logEvent]; split <;> split <;> rfl
@[simp] theorem logEvent_cells (s : State) (code reason ec pl : Nat) (p : Option Nat) (d : Nat) : (logEvent s code reason ec pl p d).cells = s.cells := by simp only [logEvent]; split <;> split <;> rfl
@[simp] theorem logEvent_engines (s : State) (code reason ec pl : Nat) (p : Option Nat) (d : Nat) : (logEvent s code reason ec pl p d).engines = s.engines := by simp only [logEvent]; split <;> split <;> rfl
@[simp] theorem logEvent_sync (s : State) (code reason ec pl : Nat) (p : Option Nat) (d : Nat) : (logEvent s code reason ec pl p d).sync = s.sync := by simp only [logEvent]; split <;> split <;> rfl
@[simp] theorem logEvent_parts (s : State) (code reason ec pl : Nat) (p : Option Nat) (d : Nat) : (logEvent s code reason ec pl p d).parts = s.parts := by simp only [logEvent]; split <;> split <;> rfl
@[simp] theorem logEvent_objects (s : State) (code reason ec pl : Nat) (p : Option Nat) (d : Nat) : (logEvent s code reason ec pl p d).objects = s.objects := by simp only [logEvent]; split <;> split <;> rfl
@[simp] theorem logEvent_plots (s : State) (code reason ec pl : Nat) (p : Option Nat) (d : Nat) : (logEvent s code reason ec pl p d).plots = s.plots := by simp only [logEvent]; split <;> split <;> rfl
@[simp] theorem logEvent_frames (s : State) (code reason ec pl : Nat) (p : Option Nat) (d : Nat) : (logEvent s code reason ec pl p d).frames = s.frames := by simp only [logEvent]; split <;> split <;> rfl
@[simp] theorem logEvent_qps (s : State) (code reason ec pl : Nat) (p : Option Nat) (d : Nat) : (logEvent s code reason ec pl p d).qps = s.qps := by simp only [logEvent]; split <;> split <;> rfl
@[simp] theorem logEvent_windowNak (s : State) (code reason ec pl : Nat) (p : Option Nat) (d : Nat) : (logEvent s code reason ec pl p d).windowNak = s.windowNak := by simp only [logEvent]; split <;> split <;> rfl
@[simp] theorem logEvent_shareWait (s : State) (code reason ec pl : Nat) (p : Option Nat) (d : Nat) : (logEvent s code reason ec pl p d).shareWait = s.shareWait := by simp only [logEvent]; split <;> split <;> rfl
@[simp] theorem logEvent_pathDrops (s : State) (code reason ec pl : Nat) (p : Option Nat) (d : Nat) : (logEvent s code reason ec pl p d).pathDrops = s.pathDrops := by simp only [logEvent]; split <;> split <;> rfl
@[simp] theorem logEvent_ttlGt (s : State) (code reason ec pl : Nat) (p : Option Nat) (d : Nat) : (logEvent s code reason ec pl p d).ttlGt = s.ttlGt := by simp only [logEvent]; split <;> split <;> rfl
@[simp] theorem logEvent_bar4Bad (s : State) (code reason ec pl : Nat) (p : Option Nat) (d : Nat) : (logEvent s code reason ec pl p d).bar4Bad = s.bar4Bad := by simp only [logEvent]; split <;> split <;> rfl
@[simp] theorem logEvent_refillL (s : State) (code reason ec pl : Nat) (p : Option Nat) (d : Nat) : (logEvent s code reason ec pl p d).refillL = s.refillL := by simp only [logEvent]; split <;> split <;> rfl
@[simp] theorem logEvent_lastSecond (s : State) (code reason ec pl : Nat) (p : Option Nat) (d : Nat) : (logEvent s code reason ec pl p d).lastSecond = s.lastSecond := by simp only [logEvent]; split <;> split <;> rfl
@[simp] theorem logEvent_privLogged (s : State) (code reason ec pl : Nat) (p : Option Nat) (d : Nat) : (logEvent s code reason ec pl p d).privLogged = s.privLogged := by simp only [logEvent]; split <;> split <;> rfl
@[simp] theorem logEvent_sems (s : State) (code reason ec pl : Nat) (p : Option Nat) (d : Nat) : (logEvent s code reason ec pl p d).sems = s.sems := by simp only [logEvent]; split <;> split <;> rfl
@[simp] theorem logEvent_fns (s : State) (code reason ec pl : Nat) (p : Option Nat) (d : Nat) : (logEvent s code reason ec pl p d).fns = s.fns := by simp only [logEvent]; split <;> split <;> rfl
@[simp] theorem logEvent_breach (s : State) (code reason ec pl : Nat) (p : Option Nat) (d : Nat) : (logEvent s code reason ec pl p d).breach = s.breach := by simp only [logEvent]; split <;> split <;> rfl
@[simp] theorem logEvent_clocks (s : State) (code reason ec pl : Nat) (p : Option Nat) (d : Nat) : (logEvent s code reason ec pl p d).clocks = s.clocks := by simp only [logEvent]; split <;> split <;> rfl
@[simp] theorem logEvent_counter (s : State) (code reason ec pl : Nat) (p : Option Nat) (d : Nat) : (logEvent s code reason ec pl p d).counter = s.counter := by simp only [logEvent]; split <;> split <;> rfl
@[simp] theorem logEvent_links (s : State) (code reason ec pl : Nat) (p : Option Nat) (d : Nat) : (logEvent s code reason ec pl p d).links = s.links := by simp only [logEvent]; split <;> split <;> rfl
@[simp] theorem logEvent_seenMsgs (s : State) (code reason ec pl : Nat) (p : Option Nat) (d : Nat) : (logEvent s code reason ec pl p d).seenMsgs = s.seenMsgs := by simp only [logEvent]; split <;> split <;> rfl
@[simp] theorem logEvent_msgSeq (s : State) (code reason ec pl : Nat) (p : Option Nat) (d : Nat) : (logEvent s code reason ec pl p d).msgSeq = s.msgSeq := by simp only [logEvent]; split <;> split <;> rfl
@[simp] theorem logEvent_mailbox (s : State) (code reason ec pl : Nat) (p : Option Nat) (d : Nat) : (logEvent s code reason ec pl p d).mailbox = s.mailbox := by simp only [logEvent]; split <;> split <;> rfl
@[simp] theorem logEvent_power (s : State) (code reason ec pl : Nat) (p : Option Nat) (d : Nat) : (logEvent s code reason ec pl p d).power = s.power := by simp only [logEvent]; split <;> split <;> rfl
@[simp] theorem logEvent_thermal (s : State) (code reason ec pl : Nat) (p : Option Nat) (d : Nat) : (logEvent s code reason ec pl p d).thermal = s.thermal := by simp only [logEvent]; split <;> split <;> rfl
@[simp] theorem logEvent_mgmt (s : State) (code reason ec pl : Nat) (p : Option Nat) (d : Nat) : (logEvent s code reason ec pl p d).mgmt = s.mgmt := by simp only [logEvent]; split <;> split <;> rfl
@[simp] theorem logEvent_episodes (s : State) (code reason ec pl : Nat) (p : Option Nat) (d : Nat) : (logEvent s code reason ec pl p d).episodes = s.episodes := by simp only [logEvent]; split <;> split <;> rfl
@[simp] theorem logEvent_boot (s : State) (code reason ec pl : Nat) (p : Option Nat) (d : Nat) : (logEvent s code reason ec pl p d).boot = s.boot := by simp only [logEvent]; split <;> split <;> rfl
@[simp] theorem logEvent_pins (s : State) (code reason ec pl : Nat) (p : Option Nat) (d : Nat) : (logEvent s code reason ec pl p d).pins = s.pins := by simp only [logEvent]; split <;> split <;> rfl
@[simp] theorem logEvent_entropy (s : State) (code reason ec pl : Nat) (p : Option Nat) (d : Nat) : (logEvent s code reason ec pl p d).entropy = s.entropy := by simp only [logEvent]; split <;> split <;> rfl
@[simp] theorem logEvent_marks (s : State) (code reason ec pl : Nat) (p : Option Nat) (d : Nat) : (logEvent s code reason ec pl p d).marks = s.marks := by simp only [logEvent]; split <;> split <;> rfl
@[simp] theorem logEvent_outputs (s : State) (code reason ec pl : Nat) (p : Option Nat) (d : Nat) : (logEvent s code reason ec pl p d).outputs = s.outputs := by simp only [logEvent]; split <;> split <;> rfl
@[simp] theorem logEvent_free (s : State) (code reason ec pl : Nat) (p : Option Nat) (d : Nat) : (logEvent s code reason ec pl p d).free = s.free := by simp only [logEvent]; split <;> split <;> rfl

/-! ### Reason events -/

@[simp] theorem logReason_pending (s : State) (c : Cls) (n ec pl : Nat) (p : Option Nat) (d : Nat) : (logReason s c n ec pl p d).pending = s.pending := by simp [logReason]
@[simp] theorem logReason_inForce (s : State) (c : Cls) (n ec pl : Nat) (p : Option Nat) (d : Nat) : (logReason s c n ec pl p d).inForce = s.inForce := by simp [logReason]
@[simp] theorem logReason_mirror (s : State) (c : Cls) (n ec pl : Nat) (p : Option Nat) (d : Nat) : (logReason s c n ec pl p d).mirror = s.mirror := by simp [logReason]
@[simp] theorem logReason_mirrorGt (s : State) (c : Cls) (n ec pl : Nat) (p : Option Nat) (d : Nat) : (logReason s c n ec pl p d).mirrorGt = s.mirrorGt := by simp [logReason]
@[simp] theorem logReason_cells (s : State) (c : Cls) (n ec pl : Nat) (p : Option Nat) (d : Nat) : (logReason s c n ec pl p d).cells = s.cells := by simp [logReason]
@[simp] theorem logReason_engines (s : State) (c : Cls) (n ec pl : Nat) (p : Option Nat) (d : Nat) : (logReason s c n ec pl p d).engines = s.engines := by simp [logReason]
@[simp] theorem logReason_sync (s : State) (c : Cls) (n ec pl : Nat) (p : Option Nat) (d : Nat) : (logReason s c n ec pl p d).sync = s.sync := by simp [logReason]
@[simp] theorem logReason_parts (s : State) (c : Cls) (n ec pl : Nat) (p : Option Nat) (d : Nat) : (logReason s c n ec pl p d).parts = s.parts := by simp [logReason]
@[simp] theorem logReason_objects (s : State) (c : Cls) (n ec pl : Nat) (p : Option Nat) (d : Nat) : (logReason s c n ec pl p d).objects = s.objects := by simp [logReason]
@[simp] theorem logReason_plots (s : State) (c : Cls) (n ec pl : Nat) (p : Option Nat) (d : Nat) : (logReason s c n ec pl p d).plots = s.plots := by simp [logReason]
@[simp] theorem logReason_frames (s : State) (c : Cls) (n ec pl : Nat) (p : Option Nat) (d : Nat) : (logReason s c n ec pl p d).frames = s.frames := by simp [logReason]
@[simp] theorem logReason_qps (s : State) (c : Cls) (n ec pl : Nat) (p : Option Nat) (d : Nat) : (logReason s c n ec pl p d).qps = s.qps := by simp [logReason]
@[simp] theorem logReason_windowNak (s : State) (c : Cls) (n ec pl : Nat) (p : Option Nat) (d : Nat) : (logReason s c n ec pl p d).windowNak = s.windowNak := by simp [logReason]
@[simp] theorem logReason_shareWait (s : State) (c : Cls) (n ec pl : Nat) (p : Option Nat) (d : Nat) : (logReason s c n ec pl p d).shareWait = s.shareWait := by simp [logReason]
@[simp] theorem logReason_pathDrops (s : State) (c : Cls) (n ec pl : Nat) (p : Option Nat) (d : Nat) : (logReason s c n ec pl p d).pathDrops = s.pathDrops := by simp [logReason]
@[simp] theorem logReason_ttlGt (s : State) (c : Cls) (n ec pl : Nat) (p : Option Nat) (d : Nat) : (logReason s c n ec pl p d).ttlGt = s.ttlGt := by simp [logReason]
@[simp] theorem logReason_bar4Bad (s : State) (c : Cls) (n ec pl : Nat) (p : Option Nat) (d : Nat) : (logReason s c n ec pl p d).bar4Bad = s.bar4Bad := by simp [logReason]
@[simp] theorem logReason_refillL (s : State) (c : Cls) (n ec pl : Nat) (p : Option Nat) (d : Nat) : (logReason s c n ec pl p d).refillL = s.refillL := by simp [logReason]
@[simp] theorem logReason_lastSecond (s : State) (c : Cls) (n ec pl : Nat) (p : Option Nat) (d : Nat) : (logReason s c n ec pl p d).lastSecond = s.lastSecond := by simp [logReason]
@[simp] theorem logReason_privLogged (s : State) (c : Cls) (n ec pl : Nat) (p : Option Nat) (d : Nat) : (logReason s c n ec pl p d).privLogged = s.privLogged := by simp [logReason]
@[simp] theorem logReason_sems (s : State) (c : Cls) (n ec pl : Nat) (p : Option Nat) (d : Nat) : (logReason s c n ec pl p d).sems = s.sems := by simp [logReason]
@[simp] theorem logReason_fns (s : State) (c : Cls) (n ec pl : Nat) (p : Option Nat) (d : Nat) : (logReason s c n ec pl p d).fns = s.fns := by simp [logReason]
@[simp] theorem logReason_breach (s : State) (c : Cls) (n ec pl : Nat) (p : Option Nat) (d : Nat) : (logReason s c n ec pl p d).breach = s.breach := by simp [logReason]
@[simp] theorem logReason_clocks (s : State) (c : Cls) (n ec pl : Nat) (p : Option Nat) (d : Nat) : (logReason s c n ec pl p d).clocks = s.clocks := by simp [logReason]
@[simp] theorem logReason_counter (s : State) (c : Cls) (n ec pl : Nat) (p : Option Nat) (d : Nat) : (logReason s c n ec pl p d).counter = s.counter := by simp [logReason]
@[simp] theorem logReason_links (s : State) (c : Cls) (n ec pl : Nat) (p : Option Nat) (d : Nat) : (logReason s c n ec pl p d).links = s.links := by simp [logReason]
@[simp] theorem logReason_seenMsgs (s : State) (c : Cls) (n ec pl : Nat) (p : Option Nat) (d : Nat) : (logReason s c n ec pl p d).seenMsgs = s.seenMsgs := by simp [logReason]
@[simp] theorem logReason_msgSeq (s : State) (c : Cls) (n ec pl : Nat) (p : Option Nat) (d : Nat) : (logReason s c n ec pl p d).msgSeq = s.msgSeq := by simp [logReason]
@[simp] theorem logReason_mailbox (s : State) (c : Cls) (n ec pl : Nat) (p : Option Nat) (d : Nat) : (logReason s c n ec pl p d).mailbox = s.mailbox := by simp [logReason]
@[simp] theorem logReason_power (s : State) (c : Cls) (n ec pl : Nat) (p : Option Nat) (d : Nat) : (logReason s c n ec pl p d).power = s.power := by simp [logReason]
@[simp] theorem logReason_thermal (s : State) (c : Cls) (n ec pl : Nat) (p : Option Nat) (d : Nat) : (logReason s c n ec pl p d).thermal = s.thermal := by simp [logReason]
@[simp] theorem logReason_mgmt (s : State) (c : Cls) (n ec pl : Nat) (p : Option Nat) (d : Nat) : (logReason s c n ec pl p d).mgmt = s.mgmt := by simp [logReason]
@[simp] theorem logReason_episodes (s : State) (c : Cls) (n ec pl : Nat) (p : Option Nat) (d : Nat) : (logReason s c n ec pl p d).episodes = s.episodes := by simp [logReason]
@[simp] theorem logReason_boot (s : State) (c : Cls) (n ec pl : Nat) (p : Option Nat) (d : Nat) : (logReason s c n ec pl p d).boot = s.boot := by simp [logReason]
@[simp] theorem logReason_pins (s : State) (c : Cls) (n ec pl : Nat) (p : Option Nat) (d : Nat) : (logReason s c n ec pl p d).pins = s.pins := by simp [logReason]
@[simp] theorem logReason_entropy (s : State) (c : Cls) (n ec pl : Nat) (p : Option Nat) (d : Nat) : (logReason s c n ec pl p d).entropy = s.entropy := by simp [logReason]
@[simp] theorem logReason_marks (s : State) (c : Cls) (n ec pl : Nat) (p : Option Nat) (d : Nat) : (logReason s c n ec pl p d).marks = s.marks := by simp [logReason]
@[simp] theorem logReason_outputs (s : State) (c : Cls) (n ec pl : Nat) (p : Option Nat) (d : Nat) : (logReason s c n ec pl p d).outputs = s.outputs := by simp [logReason]
@[simp] theorem logReason_free (s : State) (c : Cls) (n ec pl : Nat) (p : Option Nat) (d : Nat) : (logReason s c n ec pl p d).free = s.free := by simp [logReason]

/-! ### Interrupts -/

@[simp] theorem raiseMsix_pending (s : State) (f v : Nat) : (raiseMsix s f v).pending = s.pending := by simp only [raiseMsix]; split <;> rfl
@[simp] theorem raiseMsix_dict (s : State) (f v : Nat) : (raiseMsix s f v).dict = s.dict := by simp only [raiseMsix]; split <;> rfl
@[simp] theorem raiseMsix_inForce (s : State) (f v : Nat) : (raiseMsix s f v).inForce = s.inForce := by simp only [raiseMsix]; split <;> rfl
@[simp] theorem raiseMsix_mirror (s : State) (f v : Nat) : (raiseMsix s f v).mirror = s.mirror := by simp only [raiseMsix]; split <;> rfl
@[simp] theorem raiseMsix_mirrorGt (s : State) (f v : Nat) : (raiseMsix s f v).mirrorGt = s.mirrorGt := by simp only [raiseMsix]; split <;> rfl
@[simp] theorem raiseMsix_cells (s : State) (f v : Nat) : (raiseMsix s f v).cells = s.cells := by simp only [raiseMsix]; split <;> rfl
@[simp] theorem raiseMsix_engines (s : State) (f v : Nat) : (raiseMsix s f v).engines = s.engines := by simp only [raiseMsix]; split <;> rfl
@[simp] theorem raiseMsix_sync (s : State) (f v : Nat) : (raiseMsix s f v).sync = s.sync := by simp only [raiseMsix]; split <;> rfl
@[simp] theorem raiseMsix_parts (s : State) (f v : Nat) : (raiseMsix s f v).parts = s.parts := by simp only [raiseMsix]; split <;> rfl
@[simp] theorem raiseMsix_objects (s : State) (f v : Nat) : (raiseMsix s f v).objects = s.objects := by simp only [raiseMsix]; split <;> rfl
@[simp] theorem raiseMsix_plots (s : State) (f v : Nat) : (raiseMsix s f v).plots = s.plots := by simp only [raiseMsix]; split <;> rfl
@[simp] theorem raiseMsix_frames (s : State) (f v : Nat) : (raiseMsix s f v).frames = s.frames := by simp only [raiseMsix]; split <;> rfl
@[simp] theorem raiseMsix_qps (s : State) (f v : Nat) : (raiseMsix s f v).qps = s.qps := by simp only [raiseMsix]; split <;> rfl
@[simp] theorem raiseMsix_windowNak (s : State) (f v : Nat) : (raiseMsix s f v).windowNak = s.windowNak := by simp only [raiseMsix]; split <;> rfl
@[simp] theorem raiseMsix_shareWait (s : State) (f v : Nat) : (raiseMsix s f v).shareWait = s.shareWait := by simp only [raiseMsix]; split <;> rfl
@[simp] theorem raiseMsix_pathDrops (s : State) (f v : Nat) : (raiseMsix s f v).pathDrops = s.pathDrops := by simp only [raiseMsix]; split <;> rfl
@[simp] theorem raiseMsix_ttlGt (s : State) (f v : Nat) : (raiseMsix s f v).ttlGt = s.ttlGt := by simp only [raiseMsix]; split <;> rfl
@[simp] theorem raiseMsix_bar4Bad (s : State) (f v : Nat) : (raiseMsix s f v).bar4Bad = s.bar4Bad := by simp only [raiseMsix]; split <;> rfl
@[simp] theorem raiseMsix_refillL (s : State) (f v : Nat) : (raiseMsix s f v).refillL = s.refillL := by simp only [raiseMsix]; split <;> rfl
@[simp] theorem raiseMsix_lastSecond (s : State) (f v : Nat) : (raiseMsix s f v).lastSecond = s.lastSecond := by simp only [raiseMsix]; split <;> rfl
@[simp] theorem raiseMsix_privLogged (s : State) (f v : Nat) : (raiseMsix s f v).privLogged = s.privLogged := by simp only [raiseMsix]; split <;> rfl
@[simp] theorem raiseMsix_sems (s : State) (f v : Nat) : (raiseMsix s f v).sems = s.sems := by simp only [raiseMsix]; split <;> rfl
@[simp] theorem raiseMsix_breach (s : State) (f v : Nat) : (raiseMsix s f v).breach = s.breach := by simp only [raiseMsix]; split <;> rfl
@[simp] theorem raiseMsix_clocks (s : State) (f v : Nat) : (raiseMsix s f v).clocks = s.clocks := by simp only [raiseMsix]; split <;> rfl
@[simp] theorem raiseMsix_counter (s : State) (f v : Nat) : (raiseMsix s f v).counter = s.counter := by simp only [raiseMsix]; split <;> rfl
@[simp] theorem raiseMsix_links (s : State) (f v : Nat) : (raiseMsix s f v).links = s.links := by simp only [raiseMsix]; split <;> rfl
@[simp] theorem raiseMsix_seenMsgs (s : State) (f v : Nat) : (raiseMsix s f v).seenMsgs = s.seenMsgs := by simp only [raiseMsix]; split <;> rfl
@[simp] theorem raiseMsix_msgSeq (s : State) (f v : Nat) : (raiseMsix s f v).msgSeq = s.msgSeq := by simp only [raiseMsix]; split <;> rfl
@[simp] theorem raiseMsix_mailbox (s : State) (f v : Nat) : (raiseMsix s f v).mailbox = s.mailbox := by simp only [raiseMsix]; split <;> rfl
@[simp] theorem raiseMsix_power (s : State) (f v : Nat) : (raiseMsix s f v).power = s.power := by simp only [raiseMsix]; split <;> rfl
@[simp] theorem raiseMsix_thermal (s : State) (f v : Nat) : (raiseMsix s f v).thermal = s.thermal := by simp only [raiseMsix]; split <;> rfl
@[simp] theorem raiseMsix_mgmt (s : State) (f v : Nat) : (raiseMsix s f v).mgmt = s.mgmt := by simp only [raiseMsix]; split <;> rfl
@[simp] theorem raiseMsix_episodes (s : State) (f v : Nat) : (raiseMsix s f v).episodes = s.episodes := by simp only [raiseMsix]; split <;> rfl
@[simp] theorem raiseMsix_boot (s : State) (f v : Nat) : (raiseMsix s f v).boot = s.boot := by simp only [raiseMsix]; split <;> rfl
@[simp] theorem raiseMsix_pins (s : State) (f v : Nat) : (raiseMsix s f v).pins = s.pins := by simp only [raiseMsix]; split <;> rfl
@[simp] theorem raiseMsix_entropy (s : State) (f v : Nat) : (raiseMsix s f v).entropy = s.entropy := by simp only [raiseMsix]; split <;> rfl
@[simp] theorem raiseMsix_events (s : State) (f v : Nat) : (raiseMsix s f v).events = s.events := by simp only [raiseMsix]; split <;> rfl
@[simp] theorem raiseMsix_marks (s : State) (f v : Nat) : (raiseMsix s f v).marks = s.marks := by simp only [raiseMsix]; split <;> rfl
@[simp] theorem raiseMsix_free (s : State) (f v : Nat) : (raiseMsix s f v).free = s.free := by simp only [raiseMsix]; split <;> rfl

/-! ### Interrupts of a partition -/

@[simp] theorem raisePart_pending (s : State) (p v : Nat) : (raisePart s p v).pending = s.pending := foldl_keeps (·.pending) _ (fun s f => raiseMsix_pending s f _) _ s
@[simp] theorem raisePart_dict (s : State) (p v : Nat) : (raisePart s p v).dict = s.dict := foldl_keeps (·.dict) _ (fun s f => raiseMsix_dict s f _) _ s
@[simp] theorem raisePart_inForce (s : State) (p v : Nat) : (raisePart s p v).inForce = s.inForce := foldl_keeps (·.inForce) _ (fun s f => raiseMsix_inForce s f _) _ s
@[simp] theorem raisePart_mirror (s : State) (p v : Nat) : (raisePart s p v).mirror = s.mirror := foldl_keeps (·.mirror) _ (fun s f => raiseMsix_mirror s f _) _ s
@[simp] theorem raisePart_mirrorGt (s : State) (p v : Nat) : (raisePart s p v).mirrorGt = s.mirrorGt := foldl_keeps (·.mirrorGt) _ (fun s f => raiseMsix_mirrorGt s f _) _ s
@[simp] theorem raisePart_cells (s : State) (p v : Nat) : (raisePart s p v).cells = s.cells := foldl_keeps (·.cells) _ (fun s f => raiseMsix_cells s f _) _ s
@[simp] theorem raisePart_engines (s : State) (p v : Nat) : (raisePart s p v).engines = s.engines := foldl_keeps (·.engines) _ (fun s f => raiseMsix_engines s f _) _ s
@[simp] theorem raisePart_sync (s : State) (p v : Nat) : (raisePart s p v).sync = s.sync := foldl_keeps (·.sync) _ (fun s f => raiseMsix_sync s f _) _ s
@[simp] theorem raisePart_parts (s : State) (p v : Nat) : (raisePart s p v).parts = s.parts := foldl_keeps (·.parts) _ (fun s f => raiseMsix_parts s f _) _ s
@[simp] theorem raisePart_objects (s : State) (p v : Nat) : (raisePart s p v).objects = s.objects := foldl_keeps (·.objects) _ (fun s f => raiseMsix_objects s f _) _ s
@[simp] theorem raisePart_plots (s : State) (p v : Nat) : (raisePart s p v).plots = s.plots := foldl_keeps (·.plots) _ (fun s f => raiseMsix_plots s f _) _ s
@[simp] theorem raisePart_frames (s : State) (p v : Nat) : (raisePart s p v).frames = s.frames := foldl_keeps (·.frames) _ (fun s f => raiseMsix_frames s f _) _ s
@[simp] theorem raisePart_qps (s : State) (p v : Nat) : (raisePart s p v).qps = s.qps := foldl_keeps (·.qps) _ (fun s f => raiseMsix_qps s f _) _ s
@[simp] theorem raisePart_windowNak (s : State) (p v : Nat) : (raisePart s p v).windowNak = s.windowNak := foldl_keeps (·.windowNak) _ (fun s f => raiseMsix_windowNak s f _) _ s
@[simp] theorem raisePart_shareWait (s : State) (p v : Nat) : (raisePart s p v).shareWait = s.shareWait := foldl_keeps (·.shareWait) _ (fun s f => raiseMsix_shareWait s f _) _ s
@[simp] theorem raisePart_pathDrops (s : State) (p v : Nat) : (raisePart s p v).pathDrops = s.pathDrops := foldl_keeps (·.pathDrops) _ (fun s f => raiseMsix_pathDrops s f _) _ s
@[simp] theorem raisePart_ttlGt (s : State) (p v : Nat) : (raisePart s p v).ttlGt = s.ttlGt := foldl_keeps (·.ttlGt) _ (fun s f => raiseMsix_ttlGt s f _) _ s
@[simp] theorem raisePart_bar4Bad (s : State) (p v : Nat) : (raisePart s p v).bar4Bad = s.bar4Bad := foldl_keeps (·.bar4Bad) _ (fun s f => raiseMsix_bar4Bad s f _) _ s
@[simp] theorem raisePart_refillL (s : State) (p v : Nat) : (raisePart s p v).refillL = s.refillL := foldl_keeps (·.refillL) _ (fun s f => raiseMsix_refillL s f _) _ s
@[simp] theorem raisePart_lastSecond (s : State) (p v : Nat) : (raisePart s p v).lastSecond = s.lastSecond := foldl_keeps (·.lastSecond) _ (fun s f => raiseMsix_lastSecond s f _) _ s
@[simp] theorem raisePart_privLogged (s : State) (p v : Nat) : (raisePart s p v).privLogged = s.privLogged := foldl_keeps (·.privLogged) _ (fun s f => raiseMsix_privLogged s f _) _ s
@[simp] theorem raisePart_sems (s : State) (p v : Nat) : (raisePart s p v).sems = s.sems := foldl_keeps (·.sems) _ (fun s f => raiseMsix_sems s f _) _ s
@[simp] theorem raisePart_breach (s : State) (p v : Nat) : (raisePart s p v).breach = s.breach := foldl_keeps (·.breach) _ (fun s f => raiseMsix_breach s f _) _ s
@[simp] theorem raisePart_clocks (s : State) (p v : Nat) : (raisePart s p v).clocks = s.clocks := foldl_keeps (·.clocks) _ (fun s f => raiseMsix_clocks s f _) _ s
@[simp] theorem raisePart_counter (s : State) (p v : Nat) : (raisePart s p v).counter = s.counter := foldl_keeps (·.counter) _ (fun s f => raiseMsix_counter s f _) _ s
@[simp] theorem raisePart_links (s : State) (p v : Nat) : (raisePart s p v).links = s.links := foldl_keeps (·.links) _ (fun s f => raiseMsix_links s f _) _ s
@[simp] theorem raisePart_seenMsgs (s : State) (p v : Nat) : (raisePart s p v).seenMsgs = s.seenMsgs := foldl_keeps (·.seenMsgs) _ (fun s f => raiseMsix_seenMsgs s f _) _ s
@[simp] theorem raisePart_msgSeq (s : State) (p v : Nat) : (raisePart s p v).msgSeq = s.msgSeq := foldl_keeps (·.msgSeq) _ (fun s f => raiseMsix_msgSeq s f _) _ s
@[simp] theorem raisePart_mailbox (s : State) (p v : Nat) : (raisePart s p v).mailbox = s.mailbox := foldl_keeps (·.mailbox) _ (fun s f => raiseMsix_mailbox s f _) _ s
@[simp] theorem raisePart_power (s : State) (p v : Nat) : (raisePart s p v).power = s.power := foldl_keeps (·.power) _ (fun s f => raiseMsix_power s f _) _ s
@[simp] theorem raisePart_thermal (s : State) (p v : Nat) : (raisePart s p v).thermal = s.thermal := foldl_keeps (·.thermal) _ (fun s f => raiseMsix_thermal s f _) _ s
@[simp] theorem raisePart_mgmt (s : State) (p v : Nat) : (raisePart s p v).mgmt = s.mgmt := foldl_keeps (·.mgmt) _ (fun s f => raiseMsix_mgmt s f _) _ s
@[simp] theorem raisePart_episodes (s : State) (p v : Nat) : (raisePart s p v).episodes = s.episodes := foldl_keeps (·.episodes) _ (fun s f => raiseMsix_episodes s f _) _ s
@[simp] theorem raisePart_boot (s : State) (p v : Nat) : (raisePart s p v).boot = s.boot := foldl_keeps (·.boot) _ (fun s f => raiseMsix_boot s f _) _ s
@[simp] theorem raisePart_pins (s : State) (p v : Nat) : (raisePart s p v).pins = s.pins := foldl_keeps (·.pins) _ (fun s f => raiseMsix_pins s f _) _ s
@[simp] theorem raisePart_entropy (s : State) (p v : Nat) : (raisePart s p v).entropy = s.entropy := foldl_keeps (·.entropy) _ (fun s f => raiseMsix_entropy s f _) _ s
@[simp] theorem raisePart_events (s : State) (p v : Nat) : (raisePart s p v).events = s.events := foldl_keeps (·.events) _ (fun s f => raiseMsix_events s f _) _ s
@[simp] theorem raisePart_marks (s : State) (p v : Nat) : (raisePart s p v).marks = s.marks := foldl_keeps (·.marks) _ (fun s f => raiseMsix_marks s f _) _ s
@[simp] theorem raisePart_free (s : State) (p v : Nat) : (raisePart s p v).free = s.free := foldl_keeps (·.free) _ (fun s f => raiseMsix_free s f _) _ s

/-! ### Waiting settings -/

@[simp] theorem applyWaiting_pending (s : State) (p : Nat) : (applyWaiting s p).pending = s.pending := rfl
@[simp] theorem applyWaiting_dict (s : State) (p : Nat) : (applyWaiting s p).dict = s.dict := rfl
@[simp] theorem applyWaiting_mirror (s : State) (p : Nat) : (applyWaiting s p).mirror = s.mirror := rfl
@[simp] theorem applyWaiting_mirrorGt (s : State) (p : Nat) : (applyWaiting s p).mirrorGt = s.mirrorGt := rfl
@[simp] theorem applyWaiting_cells (s : State) (p : Nat) : (applyWaiting s p).cells = s.cells := rfl
@[simp] theorem applyWaiting_engines (s : State) (p : Nat) : (applyWaiting s p).engines = s.engines := rfl
@[simp] theorem applyWaiting_sync (s : State) (p : Nat) : (applyWaiting s p).sync = s.sync := rfl
@[simp] theorem applyWaiting_parts (s : State) (p : Nat) : (applyWaiting s p).parts = s.parts := rfl
@[simp] theorem applyWaiting_objects (s : State) (p : Nat) : (applyWaiting s p).objects = s.objects := rfl
@[simp] theorem applyWaiting_plots (s : State) (p : Nat) : (applyWaiting s p).plots = s.plots := rfl
@[simp] theorem applyWaiting_frames (s : State) (p : Nat) : (applyWaiting s p).frames = s.frames := rfl
@[simp] theorem applyWaiting_qps (s : State) (p : Nat) : (applyWaiting s p).qps = s.qps := rfl
@[simp] theorem applyWaiting_windowNak (s : State) (p : Nat) : (applyWaiting s p).windowNak = s.windowNak := rfl
@[simp] theorem applyWaiting_pathDrops (s : State) (p : Nat) : (applyWaiting s p).pathDrops = s.pathDrops := rfl
@[simp] theorem applyWaiting_ttlGt (s : State) (p : Nat) : (applyWaiting s p).ttlGt = s.ttlGt := rfl
@[simp] theorem applyWaiting_bar4Bad (s : State) (p : Nat) : (applyWaiting s p).bar4Bad = s.bar4Bad := rfl
@[simp] theorem applyWaiting_refillL (s : State) (p : Nat) : (applyWaiting s p).refillL = s.refillL := rfl
@[simp] theorem applyWaiting_lastSecond (s : State) (p : Nat) : (applyWaiting s p).lastSecond = s.lastSecond := rfl
@[simp] theorem applyWaiting_privLogged (s : State) (p : Nat) : (applyWaiting s p).privLogged = s.privLogged := rfl
@[simp] theorem applyWaiting_sems (s : State) (p : Nat) : (applyWaiting s p).sems = s.sems := rfl
@[simp] theorem applyWaiting_fns (s : State) (p : Nat) : (applyWaiting s p).fns = s.fns := rfl
@[simp] theorem applyWaiting_breach (s : State) (p : Nat) : (applyWaiting s p).breach = s.breach := rfl
@[simp] theorem applyWaiting_clocks (s : State) (p : Nat) : (applyWaiting s p).clocks = s.clocks := rfl
@[simp] theorem applyWaiting_counter (s : State) (p : Nat) : (applyWaiting s p).counter = s.counter := rfl
@[simp] theorem applyWaiting_links (s : State) (p : Nat) : (applyWaiting s p).links = s.links := rfl
@[simp] theorem applyWaiting_seenMsgs (s : State) (p : Nat) : (applyWaiting s p).seenMsgs = s.seenMsgs := rfl
@[simp] theorem applyWaiting_msgSeq (s : State) (p : Nat) : (applyWaiting s p).msgSeq = s.msgSeq := rfl
@[simp] theorem applyWaiting_mailbox (s : State) (p : Nat) : (applyWaiting s p).mailbox = s.mailbox := rfl
@[simp] theorem applyWaiting_power (s : State) (p : Nat) : (applyWaiting s p).power = s.power := rfl
@[simp] theorem applyWaiting_thermal (s : State) (p : Nat) : (applyWaiting s p).thermal = s.thermal := rfl
@[simp] theorem applyWaiting_mgmt (s : State) (p : Nat) : (applyWaiting s p).mgmt = s.mgmt := rfl
@[simp] theorem applyWaiting_episodes (s : State) (p : Nat) : (applyWaiting s p).episodes = s.episodes := rfl
@[simp] theorem applyWaiting_boot (s : State) (p : Nat) : (applyWaiting s p).boot = s.boot := rfl
@[simp] theorem applyWaiting_pins (s : State) (p : Nat) : (applyWaiting s p).pins = s.pins := rfl
@[simp] theorem applyWaiting_entropy (s : State) (p : Nat) : (applyWaiting s p).entropy = s.entropy := rfl
@[simp] theorem applyWaiting_events (s : State) (p : Nat) : (applyWaiting s p).events = s.events := rfl
@[simp] theorem applyWaiting_marks (s : State) (p : Nat) : (applyWaiting s p).marks = s.marks := rfl
@[simp] theorem applyWaiting_outputs (s : State) (p : Nat) : (applyWaiting s p).outputs = s.outputs := rfl
@[simp] theorem applyWaiting_free (s : State) (p : Nat) : (applyWaiting s p).free = s.free := rfl

/-! ### Partition states -/

@[simp] theorem setPState_pending (s : State) (p : Nat) (st : PState) : (setPState s p st).pending = s.pending := by simp only [setPState]; (repeat' split) <;> simp
@[simp] theorem setPState_dict (s : State) (p : Nat) (st : PState) : (setPState s p st).dict = s.dict := by simp only [setPState]; (repeat' split) <;> simp
@[simp] theorem setPState_mirror (s : State) (p : Nat) (st : PState) : (setPState s p st).mirror = s.mirror := by simp only [setPState]; (repeat' split) <;> simp
@[simp] theorem setPState_mirrorGt (s : State) (p : Nat) (st : PState) : (setPState s p st).mirrorGt = s.mirrorGt := by simp only [setPState]; (repeat' split) <;> simp
@[simp] theorem setPState_cells (s : State) (p : Nat) (st : PState) : (setPState s p st).cells = s.cells := by simp only [setPState]; (repeat' split) <;> simp
@[simp] theorem setPState_engines (s : State) (p : Nat) (st : PState) : (setPState s p st).engines = s.engines := by simp only [setPState]; (repeat' split) <;> simp
@[simp] theorem setPState_sync (s : State) (p : Nat) (st : PState) : (setPState s p st).sync = s.sync := by simp only [setPState]; (repeat' split) <;> simp
@[simp] theorem setPState_objects (s : State) (p : Nat) (st : PState) : (setPState s p st).objects = s.objects := by simp only [setPState]; (repeat' split) <;> simp
@[simp] theorem setPState_plots (s : State) (p : Nat) (st : PState) : (setPState s p st).plots = s.plots := by simp only [setPState]; (repeat' split) <;> simp
@[simp] theorem setPState_frames (s : State) (p : Nat) (st : PState) : (setPState s p st).frames = s.frames := by simp only [setPState]; (repeat' split) <;> simp
@[simp] theorem setPState_qps (s : State) (p : Nat) (st : PState) : (setPState s p st).qps = s.qps := by simp only [setPState]; (repeat' split) <;> simp
@[simp] theorem setPState_windowNak (s : State) (p : Nat) (st : PState) : (setPState s p st).windowNak = s.windowNak := by simp only [setPState]; (repeat' split) <;> simp
@[simp] theorem setPState_pathDrops (s : State) (p : Nat) (st : PState) : (setPState s p st).pathDrops = s.pathDrops := by simp only [setPState]; (repeat' split) <;> simp
@[simp] theorem setPState_ttlGt (s : State) (p : Nat) (st : PState) : (setPState s p st).ttlGt = s.ttlGt := by simp only [setPState]; (repeat' split) <;> simp
@[simp] theorem setPState_bar4Bad (s : State) (p : Nat) (st : PState) : (setPState s p st).bar4Bad = s.bar4Bad := by simp only [setPState]; (repeat' split) <;> simp
@[simp] theorem setPState_refillL (s : State) (p : Nat) (st : PState) : (setPState s p st).refillL = s.refillL := by simp only [setPState]; (repeat' split) <;> simp
@[simp] theorem setPState_lastSecond (s : State) (p : Nat) (st : PState) : (setPState s p st).lastSecond = s.lastSecond := by simp only [setPState]; (repeat' split) <;> simp
@[simp] theorem setPState_privLogged (s : State) (p : Nat) (st : PState) : (setPState s p st).privLogged = s.privLogged := by simp only [setPState]; (repeat' split) <;> simp
@[simp] theorem setPState_sems (s : State) (p : Nat) (st : PState) : (setPState s p st).sems = s.sems := by simp only [setPState]; (repeat' split) <;> simp
@[simp] theorem setPState_breach (s : State) (p : Nat) (st : PState) : (setPState s p st).breach = s.breach := by simp only [setPState]; (repeat' split) <;> simp
@[simp] theorem setPState_clocks (s : State) (p : Nat) (st : PState) : (setPState s p st).clocks = s.clocks := by simp only [setPState]; (repeat' split) <;> simp
@[simp] theorem setPState_counter (s : State) (p : Nat) (st : PState) : (setPState s p st).counter = s.counter := by simp only [setPState]; (repeat' split) <;> simp
@[simp] theorem setPState_links (s : State) (p : Nat) (st : PState) : (setPState s p st).links = s.links := by simp only [setPState]; (repeat' split) <;> simp
@[simp] theorem setPState_seenMsgs (s : State) (p : Nat) (st : PState) : (setPState s p st).seenMsgs = s.seenMsgs := by simp only [setPState]; (repeat' split) <;> simp
@[simp] theorem setPState_msgSeq (s : State) (p : Nat) (st : PState) : (setPState s p st).msgSeq = s.msgSeq := by simp only [setPState]; (repeat' split) <;> simp
@[simp] theorem setPState_mailbox (s : State) (p : Nat) (st : PState) : (setPState s p st).mailbox = s.mailbox := by simp only [setPState]; (repeat' split) <;> simp
@[simp] theorem setPState_power (s : State) (p : Nat) (st : PState) : (setPState s p st).power =
    { s.power with wasBusy := if st = .busy then s.power.wasBusy else s.power.wasBusy.filter (fun q => q != p) } := by
  simp only [setPState]; (repeat' split) <;> simp
@[simp] theorem setPState_thermal (s : State) (p : Nat) (st : PState) : (setPState s p st).thermal = s.thermal := by simp only [setPState]; (repeat' split) <;> simp
@[simp] theorem setPState_mgmt (s : State) (p : Nat) (st : PState) : (setPState s p st).mgmt = s.mgmt := by simp only [setPState]; (repeat' split) <;> simp
@[simp] theorem setPState_episodes (s : State) (p : Nat) (st : PState) : (setPState s p st).episodes = s.episodes := by simp only [setPState]; (repeat' split) <;> simp
@[simp] theorem setPState_boot (s : State) (p : Nat) (st : PState) : (setPState s p st).boot = s.boot := by simp only [setPState]; (repeat' split) <;> simp
@[simp] theorem setPState_pins (s : State) (p : Nat) (st : PState) : (setPState s p st).pins = s.pins := by simp only [setPState]; (repeat' split) <;> simp
@[simp] theorem setPState_entropy (s : State) (p : Nat) (st : PState) : (setPState s p st).entropy = s.entropy := by simp only [setPState]; (repeat' split) <;> simp
@[simp] theorem setPState_events (s : State) (p : Nat) (st : PState) : (setPState s p st).events = s.events := by simp only [setPState]; (repeat' split) <;> simp
@[simp] theorem setPState_marks (s : State) (p : Nat) (st : PState) : (setPState s p st).marks = s.marks := by simp only [setPState]; (repeat' split) <;> simp
@[simp] theorem setPState_free (s : State) (p : Nat) (st : PState) : (setPState s p st).free = s.free := by simp only [setPState]; (repeat' split) <;> simp

/-! ### Watermarks -/

@[simp] theorem markSample_pending (s : State) (w : Nat) (v : Int) : (markSample s w v).pending = s.pending := by simp only [markSample]; split <;> simp
@[simp] theorem markSample_inForce (s : State) (w : Nat) (v : Int) : (markSample s w v).inForce = s.inForce := by simp only [markSample]; split <;> simp
@[simp] theorem markSample_mirror (s : State) (w : Nat) (v : Int) : (markSample s w v).mirror = s.mirror := by simp only [markSample]; split <;> simp
@[simp] theorem markSample_mirrorGt (s : State) (w : Nat) (v : Int) : (markSample s w v).mirrorGt = s.mirrorGt := by simp only [markSample]; split <;> simp
@[simp] theorem markSample_cells (s : State) (w : Nat) (v : Int) : (markSample s w v).cells = s.cells := by simp only [markSample]; split <;> simp
@[simp] theorem markSample_engines (s : State) (w : Nat) (v : Int) : (markSample s w v).engines = s.engines := by simp only [markSample]; split <;> simp
@[simp] theorem markSample_sync (s : State) (w : Nat) (v : Int) : (markSample s w v).sync = s.sync := by simp only [markSample]; split <;> simp
@[simp] theorem markSample_parts (s : State) (w : Nat) (v : Int) : (markSample s w v).parts = s.parts := by simp only [markSample]; split <;> simp
@[simp] theorem markSample_objects (s : State) (w : Nat) (v : Int) : (markSample s w v).objects = s.objects := by simp only [markSample]; split <;> simp
@[simp] theorem markSample_plots (s : State) (w : Nat) (v : Int) : (markSample s w v).plots = s.plots := by simp only [markSample]; split <;> simp
@[simp] theorem markSample_frames (s : State) (w : Nat) (v : Int) : (markSample s w v).frames = s.frames := by simp only [markSample]; split <;> simp
@[simp] theorem markSample_qps (s : State) (w : Nat) (v : Int) : (markSample s w v).qps = s.qps := by simp only [markSample]; split <;> simp
@[simp] theorem markSample_windowNak (s : State) (w : Nat) (v : Int) : (markSample s w v).windowNak = s.windowNak := by simp only [markSample]; split <;> simp
@[simp] theorem markSample_shareWait (s : State) (w : Nat) (v : Int) : (markSample s w v).shareWait = s.shareWait := by simp only [markSample]; split <;> simp
@[simp] theorem markSample_pathDrops (s : State) (w : Nat) (v : Int) : (markSample s w v).pathDrops = s.pathDrops := by simp only [markSample]; split <;> simp
@[simp] theorem markSample_ttlGt (s : State) (w : Nat) (v : Int) : (markSample s w v).ttlGt = s.ttlGt := by simp only [markSample]; split <;> simp
@[simp] theorem markSample_bar4Bad (s : State) (w : Nat) (v : Int) : (markSample s w v).bar4Bad = s.bar4Bad := by simp only [markSample]; split <;> simp
@[simp] theorem markSample_refillL (s : State) (w : Nat) (v : Int) : (markSample s w v).refillL = s.refillL := by simp only [markSample]; split <;> simp
@[simp] theorem markSample_lastSecond (s : State) (w : Nat) (v : Int) : (markSample s w v).lastSecond = s.lastSecond := by simp only [markSample]; split <;> simp
@[simp] theorem markSample_privLogged (s : State) (w : Nat) (v : Int) : (markSample s w v).privLogged = s.privLogged := by simp only [markSample]; split <;> simp
@[simp] theorem markSample_sems (s : State) (w : Nat) (v : Int) : (markSample s w v).sems = s.sems := by simp only [markSample]; split <;> simp
@[simp] theorem markSample_fns (s : State) (w : Nat) (v : Int) : (markSample s w v).fns = s.fns := by simp only [markSample]; split <;> simp
@[simp] theorem markSample_breach (s : State) (w : Nat) (v : Int) : (markSample s w v).breach = s.breach := by simp only [markSample]; split <;> simp
@[simp] theorem markSample_clocks (s : State) (w : Nat) (v : Int) : (markSample s w v).clocks = s.clocks := by simp only [markSample]; split <;> simp
@[simp] theorem markSample_counter (s : State) (w : Nat) (v : Int) : (markSample s w v).counter = s.counter := by simp only [markSample]; split <;> simp
@[simp] theorem markSample_links (s : State) (w : Nat) (v : Int) : (markSample s w v).links = s.links := by simp only [markSample]; split <;> simp
@[simp] theorem markSample_seenMsgs (s : State) (w : Nat) (v : Int) : (markSample s w v).seenMsgs = s.seenMsgs := by simp only [markSample]; split <;> simp
@[simp] theorem markSample_msgSeq (s : State) (w : Nat) (v : Int) : (markSample s w v).msgSeq = s.msgSeq := by simp only [markSample]; split <;> simp
@[simp] theorem markSample_mailbox (s : State) (w : Nat) (v : Int) : (markSample s w v).mailbox = s.mailbox := by simp only [markSample]; split <;> simp
@[simp] theorem markSample_power (s : State) (w : Nat) (v : Int) : (markSample s w v).power = s.power := by simp only [markSample]; split <;> simp
@[simp] theorem markSample_thermal (s : State) (w : Nat) (v : Int) : (markSample s w v).thermal = s.thermal := by simp only [markSample]; split <;> simp
@[simp] theorem markSample_mgmt (s : State) (w : Nat) (v : Int) : (markSample s w v).mgmt = s.mgmt := by simp only [markSample]; split <;> simp
@[simp] theorem markSample_episodes (s : State) (w : Nat) (v : Int) : (markSample s w v).episodes = s.episodes := by simp only [markSample]; split <;> simp
@[simp] theorem markSample_boot (s : State) (w : Nat) (v : Int) : (markSample s w v).boot = s.boot := by simp only [markSample]; split <;> simp
@[simp] theorem markSample_pins (s : State) (w : Nat) (v : Int) : (markSample s w v).pins = s.pins := by simp only [markSample]; split <;> simp
@[simp] theorem markSample_entropy (s : State) (w : Nat) (v : Int) : (markSample s w v).entropy = s.entropy := by simp only [markSample]; split <;> simp
@[simp] theorem markSample_outputs (s : State) (w : Nat) (v : Int) : (markSample s w v).outputs = s.outputs := by simp only [markSample]; split <;> simp
@[simp] theorem markSample_free (s : State) (w : Nat) (v : Int) : (markSample s w v).free = s.free := by simp only [markSample]; split <;> simp

/-! ### Semaphores -/

@[simp] theorem semAcquire_pending (s : State) (n id : Nat) : (semAcquire s n id).pending = s.pending := by simp only [semAcquire]; split <;> rfl
@[simp] theorem semAcquire_dict (s : State) (n id : Nat) : (semAcquire s n id).dict = s.dict := by simp only [semAcquire]; split <;> rfl
@[simp] theorem semAcquire_inForce (s : State) (n id : Nat) : (semAcquire s n id).inForce = s.inForce := by simp only [semAcquire]; split <;> rfl
@[simp] theorem semAcquire_mirror (s : State) (n id : Nat) : (semAcquire s n id).mirror = s.mirror := by simp only [semAcquire]; split <;> rfl
@[simp] theorem semAcquire_mirrorGt (s : State) (n id : Nat) : (semAcquire s n id).mirrorGt = s.mirrorGt := by simp only [semAcquire]; split <;> rfl
@[simp] theorem semAcquire_cells (s : State) (n id : Nat) : (semAcquire s n id).cells = s.cells := by simp only [semAcquire]; split <;> rfl
@[simp] theorem semAcquire_engines (s : State) (n id : Nat) : (semAcquire s n id).engines = s.engines := by simp only [semAcquire]; split <;> rfl
@[simp] theorem semAcquire_sync (s : State) (n id : Nat) : (semAcquire s n id).sync = s.sync := by simp only [semAcquire]; split <;> rfl
@[simp] theorem semAcquire_parts (s : State) (n id : Nat) : (semAcquire s n id).parts = s.parts := by simp only [semAcquire]; split <;> rfl
@[simp] theorem semAcquire_objects (s : State) (n id : Nat) : (semAcquire s n id).objects = s.objects := by simp only [semAcquire]; split <;> rfl
@[simp] theorem semAcquire_plots (s : State) (n id : Nat) : (semAcquire s n id).plots = s.plots := by simp only [semAcquire]; split <;> rfl
@[simp] theorem semAcquire_frames (s : State) (n id : Nat) : (semAcquire s n id).frames = s.frames := by simp only [semAcquire]; split <;> rfl
@[simp] theorem semAcquire_qps (s : State) (n id : Nat) : (semAcquire s n id).qps = s.qps := by simp only [semAcquire]; split <;> rfl
@[simp] theorem semAcquire_windowNak (s : State) (n id : Nat) : (semAcquire s n id).windowNak = s.windowNak := by simp only [semAcquire]; split <;> rfl
@[simp] theorem semAcquire_shareWait (s : State) (n id : Nat) : (semAcquire s n id).shareWait = s.shareWait := by simp only [semAcquire]; split <;> rfl
@[simp] theorem semAcquire_pathDrops (s : State) (n id : Nat) : (semAcquire s n id).pathDrops = s.pathDrops := by simp only [semAcquire]; split <;> rfl
@[simp] theorem semAcquire_ttlGt (s : State) (n id : Nat) : (semAcquire s n id).ttlGt = s.ttlGt := by simp only [semAcquire]; split <;> rfl
@[simp] theorem semAcquire_bar4Bad (s : State) (n id : Nat) : (semAcquire s n id).bar4Bad = s.bar4Bad := by simp only [semAcquire]; split <;> rfl
@[simp] theorem semAcquire_refillL (s : State) (n id : Nat) : (semAcquire s n id).refillL = s.refillL := by simp only [semAcquire]; split <;> rfl
@[simp] theorem semAcquire_lastSecond (s : State) (n id : Nat) : (semAcquire s n id).lastSecond = s.lastSecond := by simp only [semAcquire]; split <;> rfl
@[simp] theorem semAcquire_privLogged (s : State) (n id : Nat) : (semAcquire s n id).privLogged = s.privLogged := by simp only [semAcquire]; split <;> rfl
@[simp] theorem semAcquire_fns (s : State) (n id : Nat) : (semAcquire s n id).fns = s.fns := by simp only [semAcquire]; split <;> rfl
@[simp] theorem semAcquire_breach (s : State) (n id : Nat) : (semAcquire s n id).breach = s.breach := by simp only [semAcquire]; split <;> rfl
@[simp] theorem semAcquire_clocks (s : State) (n id : Nat) : (semAcquire s n id).clocks = s.clocks := by simp only [semAcquire]; split <;> rfl
@[simp] theorem semAcquire_counter (s : State) (n id : Nat) : (semAcquire s n id).counter = s.counter := by simp only [semAcquire]; split <;> rfl
@[simp] theorem semAcquire_links (s : State) (n id : Nat) : (semAcquire s n id).links = s.links := by simp only [semAcquire]; split <;> rfl
@[simp] theorem semAcquire_seenMsgs (s : State) (n id : Nat) : (semAcquire s n id).seenMsgs = s.seenMsgs := by simp only [semAcquire]; split <;> rfl
@[simp] theorem semAcquire_msgSeq (s : State) (n id : Nat) : (semAcquire s n id).msgSeq = s.msgSeq := by simp only [semAcquire]; split <;> rfl
@[simp] theorem semAcquire_mailbox (s : State) (n id : Nat) : (semAcquire s n id).mailbox = s.mailbox := by simp only [semAcquire]; split <;> rfl
@[simp] theorem semAcquire_power (s : State) (n id : Nat) : (semAcquire s n id).power = s.power := by simp only [semAcquire]; split <;> rfl
@[simp] theorem semAcquire_thermal (s : State) (n id : Nat) : (semAcquire s n id).thermal = s.thermal := by simp only [semAcquire]; split <;> rfl
@[simp] theorem semAcquire_mgmt (s : State) (n id : Nat) : (semAcquire s n id).mgmt = s.mgmt := by simp only [semAcquire]; split <;> rfl
@[simp] theorem semAcquire_episodes (s : State) (n id : Nat) : (semAcquire s n id).episodes = s.episodes := by simp only [semAcquire]; split <;> rfl
@[simp] theorem semAcquire_boot (s : State) (n id : Nat) : (semAcquire s n id).boot = s.boot := by simp only [semAcquire]; split <;> rfl
@[simp] theorem semAcquire_pins (s : State) (n id : Nat) : (semAcquire s n id).pins = s.pins := by simp only [semAcquire]; split <;> rfl
@[simp] theorem semAcquire_entropy (s : State) (n id : Nat) : (semAcquire s n id).entropy = s.entropy := by simp only [semAcquire]; split <;> rfl
@[simp] theorem semAcquire_events (s : State) (n id : Nat) : (semAcquire s n id).events = s.events := by simp only [semAcquire]; split <;> rfl
@[simp] theorem semAcquire_marks (s : State) (n id : Nat) : (semAcquire s n id).marks = s.marks := by simp only [semAcquire]; split <;> rfl
@[simp] theorem semAcquire_outputs (s : State) (n id : Nat) : (semAcquire s n id).outputs = s.outputs := by simp only [semAcquire]; split <;> rfl
@[simp] theorem semAcquire_free (s : State) (n id : Nat) : (semAcquire s n id).free = s.free := by simp only [semAcquire]; split <;> rfl

/-! ### Releases -/

@[simp] theorem semRelease_pending (s : State) (n id : Nat) (r : Bool) : (semRelease s n id r).pending = s.pending := by simp only [semRelease]; split <;> rfl
@[simp] theorem semRelease_inForce (s : State) (n id : Nat) (r : Bool) : (semRelease s n id r).inForce = s.inForce := by simp only [semRelease]; split <;> rfl
@[simp] theorem semRelease_mirror (s : State) (n id : Nat) (r : Bool) : (semRelease s n id r).mirror = s.mirror := by simp only [semRelease]; split <;> rfl
@[simp] theorem semRelease_mirrorGt (s : State) (n id : Nat) (r : Bool) : (semRelease s n id r).mirrorGt = s.mirrorGt := by simp only [semRelease]; split <;> rfl
@[simp] theorem semRelease_cells (s : State) (n id : Nat) (r : Bool) : (semRelease s n id r).cells = s.cells := by simp only [semRelease]; split <;> rfl
@[simp] theorem semRelease_engines (s : State) (n id : Nat) (r : Bool) : (semRelease s n id r).engines = s.engines := by simp only [semRelease]; split <;> rfl
@[simp] theorem semRelease_sync (s : State) (n id : Nat) (r : Bool) : (semRelease s n id r).sync = s.sync := by simp only [semRelease]; split <;> rfl
@[simp] theorem semRelease_parts (s : State) (n id : Nat) (r : Bool) : (semRelease s n id r).parts = s.parts := by simp only [semRelease]; split <;> rfl
@[simp] theorem semRelease_objects (s : State) (n id : Nat) (r : Bool) : (semRelease s n id r).objects = s.objects := by simp only [semRelease]; split <;> rfl
@[simp] theorem semRelease_plots (s : State) (n id : Nat) (r : Bool) : (semRelease s n id r).plots = s.plots := by simp only [semRelease]; split <;> rfl
@[simp] theorem semRelease_frames (s : State) (n id : Nat) (r : Bool) : (semRelease s n id r).frames = s.frames := by simp only [semRelease]; split <;> rfl
@[simp] theorem semRelease_qps (s : State) (n id : Nat) (r : Bool) : (semRelease s n id r).qps = s.qps := by simp only [semRelease]; split <;> rfl
@[simp] theorem semRelease_windowNak (s : State) (n id : Nat) (r : Bool) : (semRelease s n id r).windowNak = s.windowNak := by simp only [semRelease]; split <;> rfl
@[simp] theorem semRelease_shareWait (s : State) (n id : Nat) (r : Bool) : (semRelease s n id r).shareWait = s.shareWait := by simp only [semRelease]; split <;> rfl
@[simp] theorem semRelease_pathDrops (s : State) (n id : Nat) (r : Bool) : (semRelease s n id r).pathDrops = s.pathDrops := by simp only [semRelease]; split <;> rfl
@[simp] theorem semRelease_ttlGt (s : State) (n id : Nat) (r : Bool) : (semRelease s n id r).ttlGt = s.ttlGt := by simp only [semRelease]; split <;> rfl
@[simp] theorem semRelease_bar4Bad (s : State) (n id : Nat) (r : Bool) : (semRelease s n id r).bar4Bad = s.bar4Bad := by simp only [semRelease]; split <;> rfl
@[simp] theorem semRelease_refillL (s : State) (n id : Nat) (r : Bool) : (semRelease s n id r).refillL = s.refillL := by simp only [semRelease]; split <;> rfl
@[simp] theorem semRelease_lastSecond (s : State) (n id : Nat) (r : Bool) : (semRelease s n id r).lastSecond = s.lastSecond := by simp only [semRelease]; split <;> rfl
@[simp] theorem semRelease_privLogged (s : State) (n id : Nat) (r : Bool) : (semRelease s n id r).privLogged = s.privLogged := by simp only [semRelease]; split <;> rfl
@[simp] theorem semRelease_fns (s : State) (n id : Nat) (r : Bool) : (semRelease s n id r).fns = s.fns := by simp only [semRelease]; split <;> rfl
@[simp] theorem semRelease_breach (s : State) (n id : Nat) (r : Bool) : (semRelease s n id r).breach = s.breach := by simp only [semRelease]; split <;> rfl
@[simp] theorem semRelease_clocks (s : State) (n id : Nat) (r : Bool) : (semRelease s n id r).clocks = s.clocks := by simp only [semRelease]; split <;> rfl
@[simp] theorem semRelease_counter (s : State) (n id : Nat) (r : Bool) : (semRelease s n id r).counter = s.counter := by simp only [semRelease]; split <;> rfl
@[simp] theorem semRelease_links (s : State) (n id : Nat) (r : Bool) : (semRelease s n id r).links = s.links := by simp only [semRelease]; split <;> rfl
@[simp] theorem semRelease_seenMsgs (s : State) (n id : Nat) (r : Bool) : (semRelease s n id r).seenMsgs = s.seenMsgs := by simp only [semRelease]; split <;> rfl
@[simp] theorem semRelease_msgSeq (s : State) (n id : Nat) (r : Bool) : (semRelease s n id r).msgSeq = s.msgSeq := by simp only [semRelease]; split <;> rfl
@[simp] theorem semRelease_mailbox (s : State) (n id : Nat) (r : Bool) : (semRelease s n id r).mailbox = s.mailbox := by simp only [semRelease]; split <;> rfl
@[simp] theorem semRelease_power (s : State) (n id : Nat) (r : Bool) : (semRelease s n id r).power = s.power := by simp only [semRelease]; split <;> rfl
@[simp] theorem semRelease_thermal (s : State) (n id : Nat) (r : Bool) : (semRelease s n id r).thermal = s.thermal := by simp only [semRelease]; split <;> rfl
@[simp] theorem semRelease_mgmt (s : State) (n id : Nat) (r : Bool) : (semRelease s n id r).mgmt = s.mgmt := by simp only [semRelease]; split <;> rfl
@[simp] theorem semRelease_episodes (s : State) (n id : Nat) (r : Bool) : (semRelease s n id r).episodes = s.episodes := by simp only [semRelease]; split <;> rfl
@[simp] theorem semRelease_boot (s : State) (n id : Nat) (r : Bool) : (semRelease s n id r).boot = s.boot := by simp only [semRelease]; split <;> rfl
@[simp] theorem semRelease_pins (s : State) (n id : Nat) (r : Bool) : (semRelease s n id r).pins = s.pins := by simp only [semRelease]; split <;> rfl
@[simp] theorem semRelease_entropy (s : State) (n id : Nat) (r : Bool) : (semRelease s n id r).entropy = s.entropy := by simp only [semRelease]; split <;> rfl
@[simp] theorem semRelease_events (s : State) (n id : Nat) (r : Bool) : (semRelease s n id r).events = s.events := by simp only [semRelease]; split <;> rfl
@[simp] theorem semRelease_marks (s : State) (n id : Nat) (r : Bool) : (semRelease s n id r).marks = s.marks := by simp only [semRelease]; split <;> rfl
@[simp] theorem semRelease_outputs (s : State) (n id : Nat) (r : Bool) : (semRelease s n id r).outputs = s.outputs := by simp only [semRelease]; split <;> rfl
@[simp] theorem semRelease_free (s : State) (n id : Nat) (r : Bool) : (semRelease s n id r).free = s.free := by simp only [semRelease]; split <;> rfl

/-! ### Fabric time -/

@[simp] theorem deliver_pending (d : Nat) (s : State) : (deliver d s).pending = s.pending := by simp only [deliver, odSet_pending]; exact foldl_keeps (·.pending) _ (fun s e => by simp) _ _
@[simp] theorem deliver_inForce (d : Nat) (s : State) : (deliver d s).inForce = s.inForce := by simp only [deliver, odSet_inForce]; exact foldl_keeps (·.inForce) _ (fun s e => by simp) _ _
@[simp] theorem deliver_mirror (d : Nat) (s : State) : (deliver d s).mirror = s.mirror := by simp only [deliver, odSet_mirror]; exact foldl_keeps (·.mirror) _ (fun s e => by simp) _ _
@[simp] theorem deliver_mirrorGt (d : Nat) (s : State) : (deliver d s).mirrorGt = s.mirrorGt := by simp only [deliver, odSet_mirrorGt]; exact foldl_keeps (·.mirrorGt) _ (fun s e => by simp) _ _
@[simp] theorem deliver_cells (d : Nat) (s : State) : (deliver d s).cells = s.cells := by simp only [deliver, odSet_cells]; exact foldl_keeps (·.cells) _ (fun s e => by simp) _ _
@[simp] theorem deliver_engines (d : Nat) (s : State) : (deliver d s).engines = s.engines := by simp only [deliver, odSet_engines]; exact foldl_keeps (·.engines) _ (fun s e => by simp) _ _
@[simp] theorem deliver_sync (d : Nat) (s : State) : (deliver d s).sync = s.sync := by simp only [deliver, odSet_sync]; exact foldl_keeps (·.sync) _ (fun s e => by simp) _ _
@[simp] theorem deliver_objects (d : Nat) (s : State) : (deliver d s).objects = s.objects := by simp only [deliver, odSet_objects]; exact foldl_keeps (·.objects) _ (fun s e => by simp) _ _
@[simp] theorem deliver_plots (d : Nat) (s : State) : (deliver d s).plots = s.plots := by simp only [deliver, odSet_plots]; exact foldl_keeps (·.plots) _ (fun s e => by simp) _ _
@[simp] theorem deliver_frames (d : Nat) (s : State) : (deliver d s).frames = s.frames := by simp only [deliver, odSet_frames]; exact foldl_keeps (·.frames) _ (fun s e => by simp) _ _
@[simp] theorem deliver_qps (d : Nat) (s : State) : (deliver d s).qps = s.qps := by simp only [deliver, odSet_qps]; exact foldl_keeps (·.qps) _ (fun s e => by simp) _ _
@[simp] theorem deliver_windowNak (d : Nat) (s : State) : (deliver d s).windowNak = s.windowNak := by simp only [deliver, odSet_windowNak]; exact foldl_keeps (·.windowNak) _ (fun s e => by simp) _ _
@[simp] theorem deliver_shareWait (d : Nat) (s : State) : (deliver d s).shareWait = s.shareWait := by simp only [deliver, odSet_shareWait]; exact foldl_keeps (·.shareWait) _ (fun s e => by simp) _ _
@[simp] theorem deliver_pathDrops (d : Nat) (s : State) : (deliver d s).pathDrops = s.pathDrops := by simp only [deliver, odSet_pathDrops]; exact foldl_keeps (·.pathDrops) _ (fun s e => by simp) _ _
@[simp] theorem deliver_ttlGt (d : Nat) (s : State) : (deliver d s).ttlGt = s.ttlGt := by simp only [deliver, odSet_ttlGt]; exact foldl_keeps (·.ttlGt) _ (fun s e => by simp) _ _
@[simp] theorem deliver_bar4Bad (d : Nat) (s : State) : (deliver d s).bar4Bad = s.bar4Bad := by simp only [deliver, odSet_bar4Bad]; exact foldl_keeps (·.bar4Bad) _ (fun s e => by simp) _ _
@[simp] theorem deliver_refillL (d : Nat) (s : State) : (deliver d s).refillL = s.refillL := by simp only [deliver, odSet_refillL]; exact foldl_keeps (·.refillL) _ (fun s e => by simp) _ _
@[simp] theorem deliver_lastSecond (d : Nat) (s : State) : (deliver d s).lastSecond = s.lastSecond := by simp only [deliver, odSet_lastSecond]; exact foldl_keeps (·.lastSecond) _ (fun s e => by simp) _ _
@[simp] theorem deliver_privLogged (d : Nat) (s : State) : (deliver d s).privLogged = s.privLogged := by simp only [deliver, odSet_privLogged]; exact foldl_keeps (·.privLogged) _ (fun s e => by simp) _ _
@[simp] theorem deliver_sems (d : Nat) (s : State) : (deliver d s).sems = s.sems := by simp only [deliver, odSet_sems]; exact foldl_keeps (·.sems) _ (fun s e => by simp) _ _
@[simp] theorem deliver_fns (d : Nat) (s : State) : (deliver d s).fns = s.fns := by simp only [deliver, odSet_fns]; exact foldl_keeps (·.fns) _ (fun s e => by simp) _ _
@[simp] theorem deliver_breach (d : Nat) (s : State) : (deliver d s).breach = s.breach := by simp only [deliver, odSet_breach]; exact foldl_keeps (·.breach) _ (fun s e => by simp) _ _
@[simp] theorem deliver_clocks (d : Nat) (s : State) : (deliver d s).clocks = s.clocks := by simp only [deliver, odSet_clocks]; exact foldl_keeps (·.clocks) _ (fun s e => by simp) _ _
@[simp] theorem deliver_counter (d : Nat) (s : State) : (deliver d s).counter = s.counter := by simp only [deliver, odSet_counter]; exact foldl_keeps (·.counter) _ (fun s e => by simp) _ _
@[simp] theorem deliver_links (d : Nat) (s : State) : (deliver d s).links = s.links := by simp only [deliver, odSet_links]; exact foldl_keeps (·.links) _ (fun s e => by simp) _ _
@[simp] theorem deliver_seenMsgs (d : Nat) (s : State) : (deliver d s).seenMsgs = s.seenMsgs := by simp only [deliver, odSet_seenMsgs]; exact foldl_keeps (·.seenMsgs) _ (fun s e => by simp) _ _
@[simp] theorem deliver_msgSeq (d : Nat) (s : State) : (deliver d s).msgSeq = s.msgSeq := by simp only [deliver, odSet_msgSeq]; exact foldl_keeps (·.msgSeq) _ (fun s e => by simp) _ _
@[simp] theorem deliver_mailbox (d : Nat) (s : State) : (deliver d s).mailbox = s.mailbox := by simp only [deliver, odSet_mailbox]; exact foldl_keeps (·.mailbox) _ (fun s e => by simp) _ _
@[simp] theorem deliver_power (d : Nat) (s : State) : (deliver d s).power = s.power := by simp only [deliver, odSet_power]; exact foldl_keeps (·.power) _ (fun s e => by simp) _ _
@[simp] theorem deliver_thermal (d : Nat) (s : State) : (deliver d s).thermal = s.thermal := by simp only [deliver, odSet_thermal]; exact foldl_keeps (·.thermal) _ (fun s e => by simp) _ _
@[simp] theorem deliver_mgmt (d : Nat) (s : State) : (deliver d s).mgmt = s.mgmt := by simp only [deliver, odSet_mgmt]; exact foldl_keeps (·.mgmt) _ (fun s e => by simp) _ _
@[simp] theorem deliver_episodes (d : Nat) (s : State) : (deliver d s).episodes = s.episodes := by simp only [deliver, odSet_episodes]; exact foldl_keeps (·.episodes) _ (fun s e => by simp) _ _
@[simp] theorem deliver_boot (d : Nat) (s : State) : (deliver d s).boot = s.boot := by simp only [deliver, odSet_boot]; exact foldl_keeps (·.boot) _ (fun s e => by simp) _ _
@[simp] theorem deliver_pins (d : Nat) (s : State) : (deliver d s).pins = s.pins := by simp only [deliver, odSet_pins]; exact foldl_keeps (·.pins) _ (fun s e => by simp) _ _
@[simp] theorem deliver_entropy (d : Nat) (s : State) : (deliver d s).entropy = s.entropy := by simp only [deliver, odSet_entropy]; exact foldl_keeps (·.entropy) _ (fun s e => by simp) _ _
@[simp] theorem deliver_events (d : Nat) (s : State) : (deliver d s).events = s.events := by simp only [deliver, odSet_events]; exact foldl_keeps (·.events) _ (fun s e => by simp) _ _
@[simp] theorem deliver_marks (d : Nat) (s : State) : (deliver d s).marks = s.marks := by simp only [deliver, odSet_marks]; exact foldl_keeps (·.marks) _ (fun s e => by simp) _ _
@[simp] theorem deliver_outputs (d : Nat) (s : State) : (deliver d s).outputs = s.outputs := by simp only [deliver, odSet_outputs]; exact foldl_keeps (·.outputs) _ (fun s e => by simp) _ _
@[simp] theorem deliver_free (d : Nat) (s : State) : (deliver d s).free = s.free := by simp only [deliver, odSet_free]; exact foldl_keeps (·.free) _ (fun s e => by simp) _ _

/-! ### Reaching a fabric cycle -/

@[simp] theorem reach_pending (s : State) (p t : Nat) : (reach s p t).pending = s.pending := by simp only [reach]; split <;> simp
@[simp] theorem reach_inForce (s : State) (p t : Nat) : (reach s p t).inForce = s.inForce := by simp only [reach]; split <;> simp
@[simp] theorem reach_mirror (s : State) (p t : Nat) : (reach s p t).mirror = s.mirror := by simp only [reach]; split <;> simp
@[simp] theorem reach_mirrorGt (s : State) (p t : Nat) : (reach s p t).mirrorGt = s.mirrorGt := by simp only [reach]; split <;> simp
@[simp] theorem reach_cells (s : State) (p t : Nat) : (reach s p t).cells = s.cells := by simp only [reach]; split <;> simp
@[simp] theorem reach_engines (s : State) (p t : Nat) : (reach s p t).engines = s.engines := by simp only [reach]; split <;> simp
@[simp] theorem reach_sync (s : State) (p t : Nat) : (reach s p t).sync = s.sync := by simp only [reach]; split <;> simp
@[simp] theorem reach_objects (s : State) (p t : Nat) : (reach s p t).objects = s.objects := by simp only [reach]; split <;> simp
@[simp] theorem reach_plots (s : State) (p t : Nat) : (reach s p t).plots = s.plots := by simp only [reach]; split <;> simp
@[simp] theorem reach_frames (s : State) (p t : Nat) : (reach s p t).frames = s.frames := by simp only [reach]; split <;> simp
@[simp] theorem reach_qps (s : State) (p t : Nat) : (reach s p t).qps = s.qps := by simp only [reach]; split <;> simp
@[simp] theorem reach_windowNak (s : State) (p t : Nat) : (reach s p t).windowNak = s.windowNak := by simp only [reach]; split <;> simp
@[simp] theorem reach_shareWait (s : State) (p t : Nat) : (reach s p t).shareWait = s.shareWait := by simp only [reach]; split <;> simp
@[simp] theorem reach_pathDrops (s : State) (p t : Nat) : (reach s p t).pathDrops = s.pathDrops := by simp only [reach]; split <;> simp
@[simp] theorem reach_ttlGt (s : State) (p t : Nat) : (reach s p t).ttlGt = s.ttlGt := by simp only [reach]; split <;> simp
@[simp] theorem reach_bar4Bad (s : State) (p t : Nat) : (reach s p t).bar4Bad = s.bar4Bad := by simp only [reach]; split <;> simp
@[simp] theorem reach_refillL (s : State) (p t : Nat) : (reach s p t).refillL = s.refillL := by simp only [reach]; split <;> simp
@[simp] theorem reach_lastSecond (s : State) (p t : Nat) : (reach s p t).lastSecond = s.lastSecond := by simp only [reach]; split <;> simp
@[simp] theorem reach_privLogged (s : State) (p t : Nat) : (reach s p t).privLogged = s.privLogged := by simp only [reach]; split <;> simp
@[simp] theorem reach_sems (s : State) (p t : Nat) : (reach s p t).sems = s.sems := by simp only [reach]; split <;> simp
@[simp] theorem reach_fns (s : State) (p t : Nat) : (reach s p t).fns = s.fns := by simp only [reach]; split <;> simp
@[simp] theorem reach_breach (s : State) (p t : Nat) : (reach s p t).breach = s.breach := by simp only [reach]; split <;> simp
@[simp] theorem reach_clocks (s : State) (p t : Nat) : (reach s p t).clocks = s.clocks := by simp only [reach]; split <;> simp
@[simp] theorem reach_counter (s : State) (p t : Nat) : (reach s p t).counter = s.counter := by simp only [reach]; split <;> simp
@[simp] theorem reach_links (s : State) (p t : Nat) : (reach s p t).links = s.links := by simp only [reach]; split <;> simp
@[simp] theorem reach_seenMsgs (s : State) (p t : Nat) : (reach s p t).seenMsgs = s.seenMsgs := by simp only [reach]; split <;> simp
@[simp] theorem reach_msgSeq (s : State) (p t : Nat) : (reach s p t).msgSeq = s.msgSeq := by simp only [reach]; split <;> simp
@[simp] theorem reach_mailbox (s : State) (p t : Nat) : (reach s p t).mailbox = s.mailbox := by simp only [reach]; split <;> simp
@[simp] theorem reach_power (s : State) (p t : Nat) : (reach s p t).power = s.power := by simp only [reach]; split <;> simp
@[simp] theorem reach_thermal (s : State) (p t : Nat) : (reach s p t).thermal = s.thermal := by simp only [reach]; split <;> simp
@[simp] theorem reach_mgmt (s : State) (p t : Nat) : (reach s p t).mgmt = s.mgmt := by simp only [reach]; split <;> simp
@[simp] theorem reach_episodes (s : State) (p t : Nat) : (reach s p t).episodes = s.episodes := by simp only [reach]; split <;> simp
@[simp] theorem reach_boot (s : State) (p t : Nat) : (reach s p t).boot = s.boot := by simp only [reach]; split <;> simp
@[simp] theorem reach_pins (s : State) (p t : Nat) : (reach s p t).pins = s.pins := by simp only [reach]; split <;> simp
@[simp] theorem reach_entropy (s : State) (p t : Nat) : (reach s p t).entropy = s.entropy := by simp only [reach]; split <;> simp
@[simp] theorem reach_events (s : State) (p t : Nat) : (reach s p t).events = s.events := by simp only [reach]; split <;> simp
@[simp] theorem reach_marks (s : State) (p t : Nat) : (reach s p t).marks = s.marks := by simp only [reach]; split <;> simp
@[simp] theorem reach_outputs (s : State) (p t : Nat) : (reach s p t).outputs = s.outputs := by simp only [reach]; split <;> simp
@[simp] theorem reach_free (s : State) (p t : Nat) : (reach s p t).free = s.free := by simp only [reach]; split <;> simp

/-! ### Counted faults -/

@[simp] theorem countFault_pending (s : State) (c : Cls) (n : Nat) : (countFault s c n).pending = s.pending := by cases c <;> rfl
@[simp] theorem countFault_inForce (s : State) (c : Cls) (n : Nat) : (countFault s c n).inForce = s.inForce := by cases c <;> rfl
@[simp] theorem countFault_mirror (s : State) (c : Cls) (n : Nat) : (countFault s c n).mirror = s.mirror := by cases c <;> rfl
@[simp] theorem countFault_mirrorGt (s : State) (c : Cls) (n : Nat) : (countFault s c n).mirrorGt = s.mirrorGt := by cases c <;> rfl
@[simp] theorem countFault_cells (s : State) (c : Cls) (n : Nat) : (countFault s c n).cells = s.cells := by cases c <;> rfl
@[simp] theorem countFault_engines (s : State) (c : Cls) (n : Nat) : (countFault s c n).engines = s.engines := by cases c <;> rfl
@[simp] theorem countFault_sync (s : State) (c : Cls) (n : Nat) : (countFault s c n).sync = s.sync := by cases c <;> rfl
@[simp] theorem countFault_parts (s : State) (c : Cls) (n : Nat) : (countFault s c n).parts = s.parts := by cases c <;> rfl
@[simp] theorem countFault_objects (s : State) (c : Cls) (n : Nat) : (countFault s c n).objects = s.objects := by cases c <;> rfl
@[simp] theorem countFault_plots (s : State) (c : Cls) (n : Nat) : (countFault s c n).plots = s.plots := by cases c <;> rfl
@[simp] theorem countFault_frames (s : State) (c : Cls) (n : Nat) : (countFault s c n).frames = s.frames := by cases c <;> rfl
@[simp] theorem countFault_qps (s : State) (c : Cls) (n : Nat) : (countFault s c n).qps = s.qps := by cases c <;> rfl
@[simp] theorem countFault_windowNak (s : State) (c : Cls) (n : Nat) : (countFault s c n).windowNak = s.windowNak := by cases c <;> rfl
@[simp] theorem countFault_shareWait (s : State) (c : Cls) (n : Nat) : (countFault s c n).shareWait = s.shareWait := by cases c <;> rfl
@[simp] theorem countFault_pathDrops (s : State) (c : Cls) (n : Nat) : (countFault s c n).pathDrops = s.pathDrops := by cases c <;> rfl
@[simp] theorem countFault_ttlGt (s : State) (c : Cls) (n : Nat) : (countFault s c n).ttlGt = s.ttlGt := by cases c <;> rfl
@[simp] theorem countFault_bar4Bad (s : State) (c : Cls) (n : Nat) : (countFault s c n).bar4Bad = s.bar4Bad := by cases c <;> rfl
@[simp] theorem countFault_refillL (s : State) (c : Cls) (n : Nat) : (countFault s c n).refillL = s.refillL := by cases c <;> rfl
@[simp] theorem countFault_lastSecond (s : State) (c : Cls) (n : Nat) : (countFault s c n).lastSecond = s.lastSecond := by cases c <;> rfl
@[simp] theorem countFault_privLogged (s : State) (c : Cls) (n : Nat) : (countFault s c n).privLogged = s.privLogged := by cases c <;> rfl
@[simp] theorem countFault_sems (s : State) (c : Cls) (n : Nat) : (countFault s c n).sems = s.sems := by cases c <;> rfl
@[simp] theorem countFault_fns (s : State) (c : Cls) (n : Nat) : (countFault s c n).fns = s.fns := by cases c <;> rfl
@[simp] theorem countFault_breach (s : State) (c : Cls) (n : Nat) : (countFault s c n).breach = s.breach := by cases c <;> rfl
@[simp] theorem countFault_clocks (s : State) (c : Cls) (n : Nat) : (countFault s c n).clocks = s.clocks := by cases c <;> rfl
@[simp] theorem countFault_counter (s : State) (c : Cls) (n : Nat) : (countFault s c n).counter = s.counter := by cases c <;> rfl
@[simp] theorem countFault_links (s : State) (c : Cls) (n : Nat) : (countFault s c n).links = s.links := by cases c <;> rfl
@[simp] theorem countFault_seenMsgs (s : State) (c : Cls) (n : Nat) : (countFault s c n).seenMsgs = s.seenMsgs := by cases c <;> rfl
@[simp] theorem countFault_msgSeq (s : State) (c : Cls) (n : Nat) : (countFault s c n).msgSeq = s.msgSeq := by cases c <;> rfl
@[simp] theorem countFault_mailbox (s : State) (c : Cls) (n : Nat) : (countFault s c n).mailbox = s.mailbox := by cases c <;> rfl
@[simp] theorem countFault_power (s : State) (c : Cls) (n : Nat) : (countFault s c n).power = s.power := by cases c <;> rfl
@[simp] theorem countFault_thermal (s : State) (c : Cls) (n : Nat) : (countFault s c n).thermal = s.thermal := by cases c <;> rfl
@[simp] theorem countFault_mgmt (s : State) (c : Cls) (n : Nat) : (countFault s c n).mgmt = s.mgmt := by cases c <;> rfl
@[simp] theorem countFault_episodes (s : State) (c : Cls) (n : Nat) : (countFault s c n).episodes = s.episodes := by cases c <;> rfl
@[simp] theorem countFault_boot (s : State) (c : Cls) (n : Nat) : (countFault s c n).boot = s.boot := by cases c <;> rfl
@[simp] theorem countFault_pins (s : State) (c : Cls) (n : Nat) : (countFault s c n).pins = s.pins := by cases c <;> rfl
@[simp] theorem countFault_entropy (s : State) (c : Cls) (n : Nat) : (countFault s c n).entropy = s.entropy := by cases c <;> rfl
@[simp] theorem countFault_events (s : State) (c : Cls) (n : Nat) : (countFault s c n).events = s.events := by cases c <;> rfl
@[simp] theorem countFault_marks (s : State) (c : Cls) (n : Nat) : (countFault s c n).marks = s.marks := by cases c <;> rfl
@[simp] theorem countFault_outputs (s : State) (c : Cls) (n : Nat) : (countFault s c n).outputs = s.outputs := by cases c <;> rfl
@[simp] theorem countFault_free (s : State) (c : Cls) (n : Nat) : (countFault s c n).free = s.free := by cases c <;> rfl

/-! ### Task aborts -/

@[simp] theorem abortTask_pending (s : State) (p : Nat) (c : Cls) (n cell fold tag : Nat) (e : Option Nat) : (abortTask s p c n cell fold tag e).pending = s.pending := by
  simp only [abortTask]; (repeat' split) <;> simp only [State.updPart_pending, logReason_pending, countFault_pending]
@[simp] theorem abortTask_inForce (s : State) (p : Nat) (c : Cls) (n cell fold tag : Nat) (e : Option Nat) : (abortTask s p c n cell fold tag e).inForce = s.inForce := by
  simp only [abortTask]; (repeat' split) <;> simp only [State.updPart_inForce, logReason_inForce, countFault_inForce]
@[simp] theorem abortTask_mirror (s : State) (p : Nat) (c : Cls) (n cell fold tag : Nat) (e : Option Nat) : (abortTask s p c n cell fold tag e).mirror = s.mirror := by
  simp only [abortTask]; (repeat' split) <;> simp only [State.updPart_mirror, logReason_mirror, countFault_mirror]
@[simp] theorem abortTask_mirrorGt (s : State) (p : Nat) (c : Cls) (n cell fold tag : Nat) (e : Option Nat) : (abortTask s p c n cell fold tag e).mirrorGt = s.mirrorGt := by
  simp only [abortTask]; (repeat' split) <;> simp only [State.updPart_mirrorGt, logReason_mirrorGt, countFault_mirrorGt]
@[simp] theorem abortTask_cells (s : State) (p : Nat) (c : Cls) (n cell fold tag : Nat) (e : Option Nat) : (abortTask s p c n cell fold tag e).cells = s.cells := by
  simp only [abortTask]; (repeat' split) <;> simp only [State.updPart_cells, logReason_cells, countFault_cells]
@[simp] theorem abortTask_engines (s : State) (p : Nat) (c : Cls) (n cell fold tag : Nat) (e : Option Nat) : (abortTask s p c n cell fold tag e).engines = s.engines := by
  simp only [abortTask]; (repeat' split) <;> simp only [State.updPart_engines, logReason_engines, countFault_engines]
@[simp] theorem abortTask_sync (s : State) (p : Nat) (c : Cls) (n cell fold tag : Nat) (e : Option Nat) : (abortTask s p c n cell fold tag e).sync = s.sync := by
  simp only [abortTask]; (repeat' split) <;> simp only [State.updPart_sync, logReason_sync, countFault_sync]
@[simp] theorem abortTask_objects (s : State) (p : Nat) (c : Cls) (n cell fold tag : Nat) (e : Option Nat) : (abortTask s p c n cell fold tag e).objects = s.objects := by
  simp only [abortTask]; (repeat' split) <;> simp only [State.updPart_objects, logReason_objects, countFault_objects]
@[simp] theorem abortTask_plots (s : State) (p : Nat) (c : Cls) (n cell fold tag : Nat) (e : Option Nat) : (abortTask s p c n cell fold tag e).plots = s.plots := by
  simp only [abortTask]; (repeat' split) <;> simp only [State.updPart_plots, logReason_plots, countFault_plots]
@[simp] theorem abortTask_frames (s : State) (p : Nat) (c : Cls) (n cell fold tag : Nat) (e : Option Nat) : (abortTask s p c n cell fold tag e).frames = s.frames := by
  simp only [abortTask]; (repeat' split) <;> simp only [State.updPart_frames, logReason_frames, countFault_frames]
@[simp] theorem abortTask_qps (s : State) (p : Nat) (c : Cls) (n cell fold tag : Nat) (e : Option Nat) : (abortTask s p c n cell fold tag e).qps = s.qps := by
  simp only [abortTask]; (repeat' split) <;> simp only [State.updPart_qps, logReason_qps, countFault_qps]
@[simp] theorem abortTask_windowNak (s : State) (p : Nat) (c : Cls) (n cell fold tag : Nat) (e : Option Nat) : (abortTask s p c n cell fold tag e).windowNak = s.windowNak := by
  simp only [abortTask]; (repeat' split) <;> simp only [State.updPart_windowNak, logReason_windowNak, countFault_windowNak]
@[simp] theorem abortTask_shareWait (s : State) (p : Nat) (c : Cls) (n cell fold tag : Nat) (e : Option Nat) : (abortTask s p c n cell fold tag e).shareWait = s.shareWait := by
  simp only [abortTask]; (repeat' split) <;> simp only [State.updPart_shareWait, logReason_shareWait, countFault_shareWait]
@[simp] theorem abortTask_pathDrops (s : State) (p : Nat) (c : Cls) (n cell fold tag : Nat) (e : Option Nat) : (abortTask s p c n cell fold tag e).pathDrops = s.pathDrops := by
  simp only [abortTask]; (repeat' split) <;> simp only [State.updPart_pathDrops, logReason_pathDrops, countFault_pathDrops]
@[simp] theorem abortTask_ttlGt (s : State) (p : Nat) (c : Cls) (n cell fold tag : Nat) (e : Option Nat) : (abortTask s p c n cell fold tag e).ttlGt = s.ttlGt := by
  simp only [abortTask]; (repeat' split) <;> simp only [State.updPart_ttlGt, logReason_ttlGt, countFault_ttlGt]
@[simp] theorem abortTask_bar4Bad (s : State) (p : Nat) (c : Cls) (n cell fold tag : Nat) (e : Option Nat) : (abortTask s p c n cell fold tag e).bar4Bad = s.bar4Bad := by
  simp only [abortTask]; (repeat' split) <;> simp only [State.updPart_bar4Bad, logReason_bar4Bad, countFault_bar4Bad]
@[simp] theorem abortTask_refillL (s : State) (p : Nat) (c : Cls) (n cell fold tag : Nat) (e : Option Nat) : (abortTask s p c n cell fold tag e).refillL = s.refillL := by
  simp only [abortTask]; (repeat' split) <;> simp only [State.updPart_refillL, logReason_refillL, countFault_refillL]
@[simp] theorem abortTask_lastSecond (s : State) (p : Nat) (c : Cls) (n cell fold tag : Nat) (e : Option Nat) : (abortTask s p c n cell fold tag e).lastSecond = s.lastSecond := by
  simp only [abortTask]; (repeat' split) <;> simp only [State.updPart_lastSecond, logReason_lastSecond, countFault_lastSecond]
@[simp] theorem abortTask_privLogged (s : State) (p : Nat) (c : Cls) (n cell fold tag : Nat) (e : Option Nat) : (abortTask s p c n cell fold tag e).privLogged = s.privLogged := by
  simp only [abortTask]; (repeat' split) <;> simp only [State.updPart_privLogged, logReason_privLogged, countFault_privLogged]
@[simp] theorem abortTask_sems (s : State) (p : Nat) (c : Cls) (n cell fold tag : Nat) (e : Option Nat) : (abortTask s p c n cell fold tag e).sems = s.sems := by
  simp only [abortTask]; (repeat' split) <;> simp only [State.updPart_sems, logReason_sems, countFault_sems]
@[simp] theorem abortTask_fns (s : State) (p : Nat) (c : Cls) (n cell fold tag : Nat) (e : Option Nat) : (abortTask s p c n cell fold tag e).fns = s.fns := by
  simp only [abortTask]; (repeat' split) <;> simp only [State.updPart_fns, logReason_fns, countFault_fns]
@[simp] theorem abortTask_breach (s : State) (p : Nat) (c : Cls) (n cell fold tag : Nat) (e : Option Nat) : (abortTask s p c n cell fold tag e).breach = s.breach := by
  simp only [abortTask]; (repeat' split) <;> simp only [State.updPart_breach, logReason_breach, countFault_breach]
@[simp] theorem abortTask_clocks (s : State) (p : Nat) (c : Cls) (n cell fold tag : Nat) (e : Option Nat) : (abortTask s p c n cell fold tag e).clocks = s.clocks := by
  simp only [abortTask]; (repeat' split) <;> simp only [State.updPart_clocks, logReason_clocks, countFault_clocks]
@[simp] theorem abortTask_counter (s : State) (p : Nat) (c : Cls) (n cell fold tag : Nat) (e : Option Nat) : (abortTask s p c n cell fold tag e).counter = s.counter := by
  simp only [abortTask]; (repeat' split) <;> simp only [State.updPart_counter, logReason_counter, countFault_counter]
@[simp] theorem abortTask_links (s : State) (p : Nat) (c : Cls) (n cell fold tag : Nat) (e : Option Nat) : (abortTask s p c n cell fold tag e).links = s.links := by
  simp only [abortTask]; (repeat' split) <;> simp only [State.updPart_links, logReason_links, countFault_links]
@[simp] theorem abortTask_seenMsgs (s : State) (p : Nat) (c : Cls) (n cell fold tag : Nat) (e : Option Nat) : (abortTask s p c n cell fold tag e).seenMsgs = s.seenMsgs := by
  simp only [abortTask]; (repeat' split) <;> simp only [State.updPart_seenMsgs, logReason_seenMsgs, countFault_seenMsgs]
@[simp] theorem abortTask_msgSeq (s : State) (p : Nat) (c : Cls) (n cell fold tag : Nat) (e : Option Nat) : (abortTask s p c n cell fold tag e).msgSeq = s.msgSeq := by
  simp only [abortTask]; (repeat' split) <;> simp only [State.updPart_msgSeq, logReason_msgSeq, countFault_msgSeq]
@[simp] theorem abortTask_mailbox (s : State) (p : Nat) (c : Cls) (n cell fold tag : Nat) (e : Option Nat) : (abortTask s p c n cell fold tag e).mailbox = s.mailbox := by
  simp only [abortTask]; (repeat' split) <;> simp only [State.updPart_mailbox, logReason_mailbox, countFault_mailbox]
@[simp] theorem abortTask_power (s : State) (p : Nat) (c : Cls) (n cell fold tag : Nat) (e : Option Nat) : (abortTask s p c n cell fold tag e).power = s.power := by
  simp only [abortTask]; (repeat' split) <;> simp only [State.updPart_power, logReason_power, countFault_power]
@[simp] theorem abortTask_thermal (s : State) (p : Nat) (c : Cls) (n cell fold tag : Nat) (e : Option Nat) : (abortTask s p c n cell fold tag e).thermal = s.thermal := by
  simp only [abortTask]; (repeat' split) <;> simp only [State.updPart_thermal, logReason_thermal, countFault_thermal]
@[simp] theorem abortTask_mgmt (s : State) (p : Nat) (c : Cls) (n cell fold tag : Nat) (e : Option Nat) : (abortTask s p c n cell fold tag e).mgmt = s.mgmt := by
  simp only [abortTask]; (repeat' split) <;> simp only [State.updPart_mgmt, logReason_mgmt, countFault_mgmt]
@[simp] theorem abortTask_episodes (s : State) (p : Nat) (c : Cls) (n cell fold tag : Nat) (e : Option Nat) : (abortTask s p c n cell fold tag e).episodes = s.episodes := by
  simp only [abortTask]; (repeat' split) <;> simp only [State.updPart_episodes, logReason_episodes, countFault_episodes]
@[simp] theorem abortTask_boot (s : State) (p : Nat) (c : Cls) (n cell fold tag : Nat) (e : Option Nat) : (abortTask s p c n cell fold tag e).boot = s.boot := by
  simp only [abortTask]; (repeat' split) <;> simp only [State.updPart_boot, logReason_boot, countFault_boot]
@[simp] theorem abortTask_pins (s : State) (p : Nat) (c : Cls) (n cell fold tag : Nat) (e : Option Nat) : (abortTask s p c n cell fold tag e).pins = s.pins := by
  simp only [abortTask]; (repeat' split) <;> simp only [State.updPart_pins, logReason_pins, countFault_pins]
@[simp] theorem abortTask_entropy (s : State) (p : Nat) (c : Cls) (n cell fold tag : Nat) (e : Option Nat) : (abortTask s p c n cell fold tag e).entropy = s.entropy := by
  simp only [abortTask]; (repeat' split) <;> simp only [State.updPart_entropy, logReason_entropy, countFault_entropy]
@[simp] theorem abortTask_marks (s : State) (p : Nat) (c : Cls) (n cell fold tag : Nat) (e : Option Nat) : (abortTask s p c n cell fold tag e).marks = s.marks := by
  simp only [abortTask]; (repeat' split) <;> simp only [State.updPart_marks, logReason_marks, countFault_marks]
@[simp] theorem abortTask_outputs (s : State) (p : Nat) (c : Cls) (n cell fold tag : Nat) (e : Option Nat) : (abortTask s p c n cell fold tag e).outputs = s.outputs := by
  simp only [abortTask]; (repeat' split) <;> simp only [State.updPart_outputs, logReason_outputs, countFault_outputs]
@[simp] theorem abortTask_free (s : State) (p : Nat) (c : Cls) (n cell fold tag : Nat) (e : Option Nat) : (abortTask s p c n cell fold tag e).free = s.free := by
  simp only [abortTask]; (repeat' split) <;> simp only [State.updPart_free, logReason_free, countFault_free]

/-! ### Job aborts -/

@[simp] theorem abortJob_pending (s : State) (p : Nat) (c : Cls) (n d : Nat) (st nt : Bool) : (abortJob s p c n d st nt).pending = s.pending := by
  simp only [abortJob]; split <;> simp only [State.updPart_pending, logReason_pending]
@[simp] theorem abortJob_inForce (s : State) (p : Nat) (c : Cls) (n d : Nat) (st nt : Bool) : (abortJob s p c n d st nt).inForce = s.inForce := by
  simp only [abortJob]; split <;> simp only [State.updPart_inForce, logReason_inForce]
@[simp] theorem abortJob_mirror (s : State) (p : Nat) (c : Cls) (n d : Nat) (st nt : Bool) : (abortJob s p c n d st nt).mirror = s.mirror := by
  simp only [abortJob]; split <;> simp only [State.updPart_mirror, logReason_mirror]
@[simp] theorem abortJob_mirrorGt (s : State) (p : Nat) (c : Cls) (n d : Nat) (st nt : Bool) : (abortJob s p c n d st nt).mirrorGt = s.mirrorGt := by
  simp only [abortJob]; split <;> simp only [State.updPart_mirrorGt, logReason_mirrorGt]
@[simp] theorem abortJob_cells (s : State) (p : Nat) (c : Cls) (n d : Nat) (st nt : Bool) : (abortJob s p c n d st nt).cells = s.cells := by
  simp only [abortJob]; split <;> simp only [State.updPart_cells, logReason_cells]
@[simp] theorem abortJob_engines (s : State) (p : Nat) (c : Cls) (n d : Nat) (st nt : Bool) : (abortJob s p c n d st nt).engines = s.engines := by
  simp only [abortJob]; split <;> simp only [State.updPart_engines, logReason_engines]
@[simp] theorem abortJob_sync (s : State) (p : Nat) (c : Cls) (n d : Nat) (st nt : Bool) : (abortJob s p c n d st nt).sync = s.sync := by
  simp only [abortJob]; split <;> simp only [State.updPart_sync, logReason_sync]
@[simp] theorem abortJob_objects (s : State) (p : Nat) (c : Cls) (n d : Nat) (st nt : Bool) : (abortJob s p c n d st nt).objects = s.objects := by
  simp only [abortJob]; split <;> simp only [State.updPart_objects, logReason_objects]
@[simp] theorem abortJob_plots (s : State) (p : Nat) (c : Cls) (n d : Nat) (st nt : Bool) : (abortJob s p c n d st nt).plots = s.plots := by
  simp only [abortJob]; split <;> simp only [State.updPart_plots, logReason_plots]
@[simp] theorem abortJob_frames (s : State) (p : Nat) (c : Cls) (n d : Nat) (st nt : Bool) : (abortJob s p c n d st nt).frames = s.frames := by
  simp only [abortJob]; split <;> simp only [State.updPart_frames, logReason_frames]
@[simp] theorem abortJob_qps (s : State) (p : Nat) (c : Cls) (n d : Nat) (st nt : Bool) : (abortJob s p c n d st nt).qps = s.qps := by
  simp only [abortJob]; split <;> simp only [State.updPart_qps, logReason_qps]
@[simp] theorem abortJob_windowNak (s : State) (p : Nat) (c : Cls) (n d : Nat) (st nt : Bool) : (abortJob s p c n d st nt).windowNak = s.windowNak := by
  simp only [abortJob]; split <;> simp only [State.updPart_windowNak, logReason_windowNak]
@[simp] theorem abortJob_shareWait (s : State) (p : Nat) (c : Cls) (n d : Nat) (st nt : Bool) : (abortJob s p c n d st nt).shareWait = s.shareWait := by
  simp only [abortJob]; split <;> simp only [State.updPart_shareWait, logReason_shareWait]
@[simp] theorem abortJob_pathDrops (s : State) (p : Nat) (c : Cls) (n d : Nat) (st nt : Bool) : (abortJob s p c n d st nt).pathDrops = s.pathDrops := by
  simp only [abortJob]; split <;> simp only [State.updPart_pathDrops, logReason_pathDrops]
@[simp] theorem abortJob_ttlGt (s : State) (p : Nat) (c : Cls) (n d : Nat) (st nt : Bool) : (abortJob s p c n d st nt).ttlGt = s.ttlGt := by
  simp only [abortJob]; split <;> simp only [State.updPart_ttlGt, logReason_ttlGt]
@[simp] theorem abortJob_bar4Bad (s : State) (p : Nat) (c : Cls) (n d : Nat) (st nt : Bool) : (abortJob s p c n d st nt).bar4Bad = s.bar4Bad := by
  simp only [abortJob]; split <;> simp only [State.updPart_bar4Bad, logReason_bar4Bad]
@[simp] theorem abortJob_refillL (s : State) (p : Nat) (c : Cls) (n d : Nat) (st nt : Bool) : (abortJob s p c n d st nt).refillL = s.refillL := by
  simp only [abortJob]; split <;> simp only [State.updPart_refillL, logReason_refillL]
@[simp] theorem abortJob_lastSecond (s : State) (p : Nat) (c : Cls) (n d : Nat) (st nt : Bool) : (abortJob s p c n d st nt).lastSecond = s.lastSecond := by
  simp only [abortJob]; split <;> simp only [State.updPart_lastSecond, logReason_lastSecond]
@[simp] theorem abortJob_privLogged (s : State) (p : Nat) (c : Cls) (n d : Nat) (st nt : Bool) : (abortJob s p c n d st nt).privLogged = s.privLogged := by
  simp only [abortJob]; split <;> simp only [State.updPart_privLogged, logReason_privLogged]
@[simp] theorem abortJob_sems (s : State) (p : Nat) (c : Cls) (n d : Nat) (st nt : Bool) : (abortJob s p c n d st nt).sems = s.sems := by
  simp only [abortJob]; split <;> simp only [State.updPart_sems, logReason_sems]
@[simp] theorem abortJob_fns (s : State) (p : Nat) (c : Cls) (n d : Nat) (st nt : Bool) : (abortJob s p c n d st nt).fns = s.fns := by
  simp only [abortJob]; split <;> simp only [State.updPart_fns, logReason_fns]
@[simp] theorem abortJob_breach (s : State) (p : Nat) (c : Cls) (n d : Nat) (st nt : Bool) : (abortJob s p c n d st nt).breach = s.breach := by
  simp only [abortJob]; split <;> simp only [State.updPart_breach, logReason_breach]
@[simp] theorem abortJob_clocks (s : State) (p : Nat) (c : Cls) (n d : Nat) (st nt : Bool) : (abortJob s p c n d st nt).clocks = s.clocks := by
  simp only [abortJob]; split <;> simp only [State.updPart_clocks, logReason_clocks]
@[simp] theorem abortJob_counter (s : State) (p : Nat) (c : Cls) (n d : Nat) (st nt : Bool) : (abortJob s p c n d st nt).counter = s.counter := by
  simp only [abortJob]; split <;> simp only [State.updPart_counter, logReason_counter]
@[simp] theorem abortJob_links (s : State) (p : Nat) (c : Cls) (n d : Nat) (st nt : Bool) : (abortJob s p c n d st nt).links = s.links := by
  simp only [abortJob]; split <;> simp only [State.updPart_links, logReason_links]
@[simp] theorem abortJob_seenMsgs (s : State) (p : Nat) (c : Cls) (n d : Nat) (st nt : Bool) : (abortJob s p c n d st nt).seenMsgs = s.seenMsgs := by
  simp only [abortJob]; split <;> simp only [State.updPart_seenMsgs, logReason_seenMsgs]
@[simp] theorem abortJob_msgSeq (s : State) (p : Nat) (c : Cls) (n d : Nat) (st nt : Bool) : (abortJob s p c n d st nt).msgSeq = s.msgSeq := by
  simp only [abortJob]; split <;> simp only [State.updPart_msgSeq, logReason_msgSeq]
@[simp] theorem abortJob_mailbox (s : State) (p : Nat) (c : Cls) (n d : Nat) (st nt : Bool) : (abortJob s p c n d st nt).mailbox = s.mailbox := by
  simp only [abortJob]; split <;> simp only [State.updPart_mailbox, logReason_mailbox]
@[simp] theorem abortJob_power (s : State) (p : Nat) (c : Cls) (n d : Nat) (st nt : Bool) : (abortJob s p c n d st nt).power = s.power := by
  simp only [abortJob]; split <;> simp only [State.updPart_power, logReason_power]
@[simp] theorem abortJob_thermal (s : State) (p : Nat) (c : Cls) (n d : Nat) (st nt : Bool) : (abortJob s p c n d st nt).thermal = s.thermal := by
  simp only [abortJob]; split <;> simp only [State.updPart_thermal, logReason_thermal]
@[simp] theorem abortJob_mgmt (s : State) (p : Nat) (c : Cls) (n d : Nat) (st nt : Bool) : (abortJob s p c n d st nt).mgmt = s.mgmt := by
  simp only [abortJob]; split <;> simp only [State.updPart_mgmt, logReason_mgmt]
@[simp] theorem abortJob_episodes (s : State) (p : Nat) (c : Cls) (n d : Nat) (st nt : Bool) : (abortJob s p c n d st nt).episodes = s.episodes := by
  simp only [abortJob]; split <;> simp only [State.updPart_episodes, logReason_episodes]
@[simp] theorem abortJob_boot (s : State) (p : Nat) (c : Cls) (n d : Nat) (st nt : Bool) : (abortJob s p c n d st nt).boot = s.boot := by
  simp only [abortJob]; split <;> simp only [State.updPart_boot, logReason_boot]
@[simp] theorem abortJob_pins (s : State) (p : Nat) (c : Cls) (n d : Nat) (st nt : Bool) : (abortJob s p c n d st nt).pins = s.pins := by
  simp only [abortJob]; split <;> simp only [State.updPart_pins, logReason_pins]
@[simp] theorem abortJob_entropy (s : State) (p : Nat) (c : Cls) (n d : Nat) (st nt : Bool) : (abortJob s p c n d st nt).entropy = s.entropy := by
  simp only [abortJob]; split <;> simp only [State.updPart_entropy, logReason_entropy]
@[simp] theorem abortJob_marks (s : State) (p : Nat) (c : Cls) (n d : Nat) (st nt : Bool) : (abortJob s p c n d st nt).marks = s.marks := by
  simp only [abortJob]; split <;> simp only [State.updPart_marks, logReason_marks]
@[simp] theorem abortJob_outputs (s : State) (p : Nat) (c : Cls) (n d : Nat) (st nt : Bool) : (abortJob s p c n d st nt).outputs = s.outputs := by
  simp only [abortJob]; split <;> simp only [State.updPart_outputs, logReason_outputs]
@[simp] theorem abortJob_free (s : State) (p : Nat) (c : Cls) (n d : Nat) (st nt : Bool) : (abortJob s p c n d st nt).free = s.free := by
  simp only [abortJob]; split <;> simp only [State.updPart_free, logReason_free]

end Sys2Proof.Machine
end

