-- ==== Sys2Proof/Laws/Issue.lean ====
section
/-! SUPPORT. What issuing an instruction, and acting at a fabric cycle, can do: once for every meaning that does so. -/
namespace Sys2Proof
open Sys2Proof.Machine

/-! ### What issues -/

/-- The issue is of the cell asked for, by the partition that owns it, and in the fc that the issue says. -/
theorem issueAt_spec {s : State} {c since : Nat} {k : Issue} (h : issueAt s c since = some k) :
    k.cell = c ∧ partOfCell s c = some k.part ∧
      ∃ f, (s.cell c).firing = some f ∧ (s.cell c).nextInsn f = some k.insn ∧ f.waiting = false ∧
        k.fold = f.fold ∧ k.slot = f.slot ∧ k.tag = f.tag ∧ (s.cell c).cur = f.fold ∧ (s.cell c).switching = none ∧
        k.fc = max (max (s.part k.part).fc f.ready) since ∧ k.fc < (s.cell c).dwellEnd ∧
        k.pred = predicate (s.cell c) f.fold f.slot k.insn := by
  unfold issueAt at h
  dsimp only at h
  split at h
  · next p f hp hf =>
    split at h
    · next i hi =>
      split at h
      · exact absurd h (by simp)
      · next hc =>
        simp only [Bool.or_eq_true, not_or, decide_eq_true_eq, Bool.not_eq_true, bne_iff_ne, ne_eq, Decidable.not_not, Nat.not_le] at hc
        obtain ⟨⟨⟨⟨hw, hs⟩, hcur⟩, hd⟩, -⟩ := hc
        cases h
        refine ⟨rfl, hp, f, hf, hi, hw, rfl, rfl, rfl, hcur, ?_, rfl, hd, rfl⟩
        simpa using hs
    · exact absurd h (by simp)
  · exact absurd h (by simp)

theorem issueFrom_next {since : State → Nat} {op : Nat} {ok : InsnWord → Bool} {c : Nat} {eff : Issue → State → State}
    {s : State} {k : Issue} (h : Issues s c op (since s) k) (hok : ok k.insn = true) :
    issueFrom since op ok c eff s = .next (eff k (retire k (k.start s))) := by
  obtain ⟨hc, hi, ho, hr⟩ := h
  simp [issueFrom, onCell, onUnit, hc, hi, ho, hok, atFc, hr, Issue.start]

theorem issue_next {op c : Nat} {eff : Issue → State → State} {s : State} {k : Issue} (h : Issues s c op 0 k) :
    issue op c eff s = .next (eff k (retire k (k.start s))) :=
  issueFrom_next (since := fun _ => 0) (ok := fun _ => true) h rfl

/-- A command on a cell event at a fc that can be reached acts there. -/
theorem cellAtFc_reaches {s : State} {c p f : Nat} (h : CellReaches s c p f) (g : Nat → State → State) :
    cellAtFc s c f g = g p (reach s p f) := by
  obtain ⟨-, hp, hr⟩ := h
  simp [cellAtFc, hp, atFc, hr]

theorem atFc_reaches {s : State} {p f : Nat} (h : reachable s p f = true) (g : State → State) :
    atFc s p f g = g (reach s p f) := by simp [atFc, h]

/-! ### What reaching a fabric cycle leaves -/

@[simp] theorem reach_cell (s : State) (p f c : Nat) : (reach s p f).cell c = s.cell c := by simp [State.cell]
@[simp] theorem reach_engine (s : State) (p f e : Nat) : (reach s p f).engine e = s.engine e := by simp [State.engine]
@[simp] theorem reach_link (s : State) (p f e : Nat) : (reach s p f).link e = s.link e := by simp [State.link]
@[simp] theorem reach_syncObj (s : State) (p f d o : Nat) : (reach s p f).syncObj d o = s.syncObj d o := by
  simp [State.syncObj]
@[simp] theorem start_cell (k : Issue) (s : State) (c : Nat) : (k.start s).cell c = s.cell c := by simp [Issue.start]
@[simp] theorem start_counter (k : Issue) (s : State) : (k.start s).counter = s.counter := by simp [Issue.start]
@[simp] theorem start_entropy (k : Issue) (s : State) : (k.start s).entropy = s.entropy := by simp [Issue.start]
@[simp] theorem start_reg (k : Issue) (s : State) (n : Nat) : k.reg (k.start s) n = k.reg s n := by simp [Issue.reg]

/-! ### What every issue does -/

theorem retire_eq (k : Issue) (s : State) : retire k s = ndMark k (s.updCell k.cell (issued k)) := by
  have h : ∀ x : Cell,
      { x with firing := x.firing.map (fun f => { f with pc := f.pc + 1, ready := k.fc + 1 }),
               cheap := if insnCp k.insn then (x.cheap || k.pred) else false } = issued k x := by
    intro x
    cases hcp : insnCp k.insn <;> simp [issued, hcp]
  cases hb : ndBit (opcode k.insn) <;> simp only [retire, ndMark, h, hb]

theorem retire_plain {k : Issue} (h : ndBit (opcode k.insn) = none) (s : State) :
    retire k s = s.updCell k.cell (issued k) := by rw [retire_eq]; simp [ndMark, h]

@[simp] theorem ndMark_cells (k : Issue) (s : State) : (ndMark k s).cells = s.cells := by
  unfold ndMark; repeat' split
  all_goals rfl
@[simp] theorem ndMark_cell (k : Issue) (s : State) (c : Nat) : (ndMark k s).cell c = s.cell c := by simp [State.cell]
@[simp] theorem ndMark_dict (k : Issue) (s : State) : (ndMark k s).dict = s.dict := by
  unfold ndMark; repeat' split
  all_goals rfl
@[simp] theorem ndMark_counter (k : Issue) (s : State) : (ndMark k s).counter = s.counter := by
  unfold ndMark; repeat' split
  all_goals rfl
@[simp] theorem ndMark_entropy (k : Issue) (s : State) : (ndMark k s).entropy = s.entropy := by
  unfold ndMark; repeat' split
  all_goals rfl

theorem ndMark_updCell (k : Issue) (s : State) (c : Nat) (f : Cell → Cell) :
    ndMark k (s.updCell c f) = (ndMark k s).updCell c f := by
  unfold ndMark; repeat' split
  all_goals rfl

theorem retire_cell (k : Issue) (s : State) : (retire k s).cell k.cell = issued k (s.cell k.cell) := by
  simp [retire_eq]

@[simp] theorem issued_folds (k : Issue) (x : Cell) : (issued k x).folds = x.folds := rfl
@[simp] theorem issued_fold (k : Issue) (x : Cell) (n : Nat) : (issued k x).fold n = x.fold n := rfl

theorem retire_reg (k : Issue) (s : State) (n : Nat) : k.reg (retire k s) n = k.reg s n := by
  simp [Issue.reg, retire_cell]

/-! ### Registers -/

theorem Fold.reg_setReg (f : Fold) (n m : Nat) (v : Word) :
    (f.setReg n v).reg m = if m = n ∧ m ≠ 0 then v else f.reg m := by
  by_cases hm : m = 0
  · simp [Fold.reg, hm]
  · by_cases hn : n = 0
    · subst hn; simp [Fold.setReg, hm]
    · by_cases h : m = n
      · subst h; simp [Fold.setReg, Fold.reg, hm]
      · simp [Fold.setReg, Fold.reg, hn, h, hm, Assoc.get_set_ne]

theorem Cell.fold_updFold_same (x : Cell) (f : Nat) (g : Fold → Fold) : (x.updFold f g).fold f = g (x.fold f) := by
  simp [Cell.updFold, Cell.fold]

theorem Cell.fold_updFold_ne (x : Cell) {f h : Nat} (g : Fold → Fold) (hne : h ≠ f) :
    (x.updFold f g).fold h = x.fold h := by
  simp [Cell.updFold, Cell.fold, Assoc.get_set_ne _ _ _ hne]

theorem Fold.setReg_regs (f : Fold) (n : Nat) (v : Word) : f.setReg n v = { f with regs := (f.setReg n v).regs } := by
  unfold Fold.setReg; split <;> rfl

/-- A scalar write after the issue: the result and its frame. -/
theorem writesScalar_setS (k : Issue) (n : Nat) (v : Word) (r : State) :
    WritesScalar k n v r (setS k n v (r.updCell k.cell (issued k))) := by
  unfold WritesScalar OnlyCell setS
  cases hp : k.pred
  · refine ⟨?_, ⟨?_, ?_⟩, ?_, ?_, ?_⟩
    · intro m; simp [Issue.reg]
    · rfl
    · intro d hd; simp [State.cell_updCell_ne _ _ hd]
    · simp [issued]
    · intro g _; simp
    · simp
  · refine ⟨?_, ⟨?_, ?_⟩, ?_, ?_, ?_⟩
    · intro m
      simp [Issue.reg, Cell.fold_updFold_same, Fold.reg_setReg]
    · rfl
    · intro d hd; simp [State.cell_updCell_ne _ _ hd]
    · simp [issued, Cell.updFold]
    · intro g hg; simp [Cell.fold_updFold_ne _ _ hg]
    · simp [Cell.fold_updFold_same]
      exact Fold.setReg_regs _ _ _

end Sys2Proof
end

