-- ==== Sys2Proof/Laws/Memory.lean ====
section
/-! SUPPORT. The memories of a cell and the frames of the device memory keep their canonical form under every operation that
writes them, and have it at reset. -/
namespace Sys2Proof.Machine

/-! ### The memories of a cell -/

/-- Every memory of the cell is in canonical form. -/
def Cell.memWf (x : Cell) : Bool := x.scratch.wf && x.half0.wf && x.half1.wf && x.tier0.wf

theorem Cell.init_memWf : Cell.init.memWf = true := by decide

theorem Cell.mem_wf {x : Cell} (m : Nat) (h : x.memWf = true) : (x.mem m).wf = true := by
  simp only [Cell.memWf, Bool.and_eq_true] at h
  unfold Cell.mem
  split <;> simp [h]

theorem Cell.setMem_memWf {x : Cell} {v : Mem} (m : Nat) (h : x.memWf = true) (hv : v.wf = true) :
    (x.setMem m v).memWf = true := by
  simp only [Cell.memWf, Bool.and_eq_true] at h
  unfold Cell.setMem
  split <;> simp [Cell.memWf, h, hv]

theorem Cell.bankWrite_memWf {x : Cell} (a : Nat) (bs : List Byte) (h : x.memWf = true) :
    (x.bankWrite a bs).memWf = true := by
  have hw := Mem.writeN_wf bankBytes bs a (Cell.mem_wf 2 h)
  simp only [Cell.memWf, Bool.and_eq_true] at h ⊢
  exact ⟨h.1, hw⟩

@[simp] theorem Cell.readTo_memWf (x : Cell) (now : Nat) : (x.readTo now).memWf = x.memWf := rfl

@[simp] theorem Cell.overtake_memWf (x : Cell) (now a n : Nat) : (x.overtake now a n).memWf = x.memWf := rfl

@[simp] theorem Cell.updPass_memWf (x : Cell) (g : PassState → PassState) : (x.updPass g).memWf = x.memWf := rfl

@[simp] theorem Cell.note_memWf (x : Cell) (rank m a : Nat) : (x.note rank m a).memWf = x.memWf := by
  unfold Cell.note
  split <;> rfl

theorem Cell.notes_memWf (rank m a : Nat) (l : List Nat) (x : Cell) :
    (l.foldl (fun x i => x.note rank m (memAddr m a i)) x).memWf = x.memWf := by
  induction l generalizing x with
  | nil => rfl
  | cons i l ih => simp only [List.foldl_cons, ih, Cell.note_memWf]

/-- A write of the cell's memories keeps their form. -/
theorem Cell.put_memWf {x : Cell} (now rank m a : Nat) (bs : List Byte) (h : x.memWf = true) :
    (x.put now rank m a bs).memWf = true := by
  unfold Cell.put
  dsimp only
  generalize hy : (List.range bs.length).foldl _ _ = y
  have hw : y.memWf = true := by
    rw [← hy, Cell.notes_memWf]
    split <;> exact h
  split
  · exact Cell.bankWrite_memWf _ _ hw
  · rw [Cell.overtake_memWf]
    exact Cell.setMem_memWf _ hw (Mem.writeN_wf _ _ _ (Cell.mem_wf _ hw))
  · exact Cell.setMem_memWf _ hw (Mem.writeN_wf _ _ _ (Cell.mem_wf _ hw))

theorem ite_memWf {c : Prop} [Decidable c] {x y : Cell} (hx : x.memWf = true) (hy : y.memWf = true) :
    (if c then x else y).memWf = true := by
  split <;> assumption

/-- A result of the chain keeps their form. -/
theorem Cell.commit_memWf {x : Cell} (z : PassState) (w : PassWrite) (h : x.memWf = true) : (x.commit z w).memWf = true := by
  unfold Cell.commit
  split
  · exact h
  · dsimp only
    repeat' split
    all_goals first | exact h | exact Cell.put_memWf _ _ _ _ _ h

theorem Cell.commits_memWf {x : Cell} (ws : List PassWrite) (h : x.memWf = true) :
    (ws.foldl (fun x w =>
      match x.vector.run with
      | some r => (match r.pos.abort with
        | some a => if a.1 ≤ w.fc then x else x.commit r.pos w
        | none => x.commit r.pos w)
      | none => x) x).memWf = true := by
  induction ws generalizing x with
  | nil => exact h
  | cons w ws ih =>
    refine ih ?_
    dsimp only
    repeat' split
    all_goals first | exact h | exact Cell.commit_memWf _ _ h

theorem Cell.commitTo_memWf {x : Cell} (f : Nat) (h : x.memWf = true) : (x.commitTo f).memWf = true := by
  unfold Cell.commitTo
  split
  · exact h
  · exact Cell.commits_memWf _ h

theorem Cell.passTo_memWf {x : Cell} (now fuel : Nat) (h : x.memWf = true) : (Cell.passTo now fuel x).memWf = true := by
  induction fuel generalizing x with
  | zero => exact h
  | succ fuel ih =>
    unfold Cell.passTo
    split
    · exact h
    · exact ite_memWf (ih (Cell.commitTo_memWf _ h)) h

/-- What the units of a cell do in time keeps the form of its memories. -/
theorem Cell.advance_memWf {x : Cell} (now : Nat) (h : x.memWf = true) : (x.advance now).memWf = true :=
  Cell.commitTo_memWf now (Cell.passTo_memWf now _ h)

/-- What an instruction, a landing or a stream writes keeps the form of the cell's memories. -/
theorem Cell.wr_memWf {x : Cell} (now rank m a : Nat) (bs : List Byte) (h : x.memWf = true) :
    (x.wr now rank m a bs).memWf = true := Cell.put_memWf _ _ _ _ _ (Cell.advance_memWf now h)

/-! ### The device memory -/

/-- The frames are listed in order, and each one's bytes are in canonical form. -/
def State.framesWf (s : State) : Bool := Assoc.sorted s.frames && s.frames.all (fun e => e.2.mem.wf)

theorem State.reset_framesWf : State.reset.framesWf = true := rfl

theorem State.frame_wf {s : State} (k : Nat) (h : s.framesWf = true) : (s.frame k).mem.wf = true := by
  simp only [State.framesWf, Bool.and_eq_true] at h
  unfold State.frame Assoc.get
  cases hf : s.frames.find? k with
  | none => rfl
  | some f =>
    have : ∀ m : Assoc Frame, m.all (fun e => e.2.mem.wf) = true → m.find? k = some f → f.mem.wf = true := by
      intro m hm hk
      induction m with
      | nil => simp [Assoc.find?] at hk
      | cons e m ih =>
        simp only [List.all_cons, Bool.and_eq_true] at hm
        unfold Assoc.find? at hk
        split at hk
        · cases hk; exact hm.1
        · exact ih hm.2 hk
    exact this _ h.2 hf

theorem State.setFrame_framesWf {s : State} {f : Frame} (k : Nat) (h : s.framesWf = true) (hf : f.mem.wf = true) :
    (s.setFrame k f).framesWf = true := by
  simp only [State.framesWf, Bool.and_eq_true] at h ⊢
  refine ⟨Assoc.sorted_set (fun _ => Frame.init) k f h.1, ?_⟩
  show (Assoc.set (fun _ => Frame.init) s.frames k f).all (fun e => e.2.mem.wf) = true
  unfold Assoc.set
  split
  · exact Assoc.all_erase h.2
  · exact Assoc.all_insert h.2 hf

@[simp] theorem Frame.mend_mem (f : Frame) (i a n : Nat) : (f.mend i a n).mem = f.mem := by
  unfold Frame.mend
  dsimp only
  split
  · split <;> rfl
  · rfl

/-- A write of a frame writes its bytes; the rest is the account of what mends its poison. -/
theorem Frame.write_mem (f : Frame) (o : Nat) (bs : List Byte) : (f.write o bs).mem = f.mem.writeN 0 o bs := by
  unfold Frame.write
  dsimp only
  split
  · rfl
  · generalize range _ _ = l
    have : ∀ g : Frame, (l.foldl (fun f i => f.mend i (max o (65536 * i) - 65536 * i)
        (min (o + bs.length) (65536 * (i + 1)) - max o (65536 * i))) g).mem = g.mem := by
      induction l with
      | nil => intro g; rfl
      | cons i l ih => intro g; simp only [List.foldl_cons, ih, Frame.mend_mem]
    exact this _

/-- A write into a plot keeps the form of the frames. -/
theorem plotWrite_framesWf {s : State} (p v o : Nat) (bs : List Byte) (h : s.framesWf = true) :
    (plotWrite s p v o bs).framesWf = true := by
  unfold plotWrite
  split
  · exact h
  · rename_i x _
    have hw : ((s.frame (curFrame p x)).write o bs).mem.wf = true := by
      rw [Frame.write_mem]
      exact Mem.writeN_wf 0 bs o (State.frame_wf (curFrame p x) h)
    have hs := State.setFrame_framesWf (f := (s.frame (curFrame p x)).write o bs) (curFrame p x) h hw
    dsimp only
    split <;> exact hs

/-- A write into object space keeps the form of the frames. -/
theorem devWrite_framesWf {s : State} (p addr : Nat) (bs : List Byte) (h : s.framesWf = true) :
    (devWrite s p addr bs).framesWf = true := by
  unfold devWrite
  generalize chunksOf addr bs.length = cs
  induction cs generalizing s bs with
  | nil => exact h
  | cons c cs ih => exact ih _ (plotWrite_framesWf _ _ _ _ h)

/-- A write into an object keeps the form of the frames. -/
theorem objWrite_framesWf {s : State} (p o ofs : Nat) (bs : List Byte) (h : s.framesWf = true) :
    (objWrite s p o ofs bs).framesWf = true := by
  unfold objWrite
  split
  · exact devWrite_framesWf _ _ _ h
  · exact h

/-! ### Reset -/

/-- At reset no memory lists a byte. -/
theorem State.reset_memWf : State.reset.boot.buffer.wf = true ∧ State.reset.boot.flash.wf = true ∧
    ∀ c, (State.reset.cell c).memWf = true :=
  ⟨rfl, rfl, fun _ => Cell.init_memWf⟩

end Sys2Proof.Machine
end

