-- ==== Sys2Proof/Laws/PerInstr.lean ====
section
/-! SUPPORT. What holds of every command as syntax: the table gives no row any bits, so that no word spells a command. -/
namespace Sys2Proof.Laws.Units

/-- No word spells the command. -/
def Statement (i : Instr) : Prop := ∀ nbits w, decodeTableWord nbits w ≠ some i

/-- No word spells any command. -/
theorem none_spelled (i : Instr) : Statement i := by
  intro nbits w
  simp [decodeTableWord]

theorem nop (cell : Nat) : Statement (.nop cell) := none_spelled _
theorem endFiring (cell : Nat) : Statement (.endFiring cell) := none_spelled _
theorem emit (cell : Nat) : Statement (.emit cell) := none_spelled _
theorem select (cell : Nat) : Statement (.select cell) := none_spelled _
theorem smovi (cell : Nat) : Statement (.smovi cell) := none_spelled _
theorem salu (cell : Nat) : Statement (.salu cell) := none_spelled _
theorem scmp (cell : Nat) : Statement (.scmp cell) := none_spelled _
theorem pmov (cell : Nat) : Statement (.pmov cell) := none_spelled _
theorem opld (cell : Nat) : Statement (.opld cell) := none_spelled _
theorem tagrd (cell : Nat) : Statement (.tagrd cell) := none_spelled _
theorem spld (cell : Nat) : Statement (.spld cell) := none_spelled _
theorem spst (cell : Nat) : Statement (.spst cell) := none_spelled _
theorem chadraw (cell : Nat) : Statement (.chadraw cell) := none_spelled _
theorem entdraw (cell : Nat) : Statement (.entdraw cell) := none_spelled _
theorem gtread (cell : Nat) : Statement (.gtread cell) := none_spelled _
theorem nrgread (cell : Nat) : Statement (.nrgread cell) := none_spelled _
theorem syadd (cell : Nat) : Statement (.syadd cell) := none_spelled _
theorem symax (cell : Nat) : Statement (.symax cell) := none_spelled _
theorem sywait (cell : Nat) : Statement (.sywait cell) := none_spelled _
theorem syrd (cell : Nat) : Statement (.syrd cell) := none_spelled _
theorem syset (cell : Nat) : Statement (.syset cell) := none_spelled _
theorem syarr (cell : Nat) : Statement (.syarr cell) := none_spelled _
theorem xpread (cell : Nat) : Statement (.xpread cell) := none_spelled _
theorem stld (cell : Nat) : Statement (.stld cell) := none_spelled _
theorem stst (cell : Nat) : Statement (.stst cell) := none_spelled _
theorem flow (cell : Nat) : Statement (.flow cell) := none_spelled _
theorem stin (cell : Nat) : Statement (.stin cell) := none_spelled _
theorem stidx (cell : Nat) : Statement (.stidx cell) := none_spelled _
theorem stptr (cell : Nat) : Statement (.stptr cell) := none_spelled _
theorem swap (cell : Nat) : Statement (.swap cell) := none_spelled _
theorem sandbag (cell : Nat) : Statement (.sandbag cell) := none_spelled _
theorem stwait (cell : Nat) : Statement (.stwait cell) := none_spelled _
theorem mldw (cell : CellRead) : Statement (.mldw cell) := none_spelled _
theorem mmul (cell : CellRead) : Statement (.mmul cell) := none_spelled _
theorem macc (cell : CellRead) : Statement (.macc cell) := none_spelled _
theorem mmulProbe (cell : CellRead) : Statement (.mmulProbe cell) := none_spelled _
theorem mout (cell : Nat) : Statement (.mout cell) := none_spelled _
theorem manchSetMode (cell : Nat) : Statement (.manchSetMode cell) := none_spelled _
theorem manchReadProbe (cell : Nat) : Statement (.manchReadProbe cell) := none_spelled _
theorem manchReadStatus (cell : Nat) : Statement (.manchReadStatus cell) := none_spelled _
theorem vcfg (cell : Nat) : Statement (.vcfg cell) := none_spelled _
theorem vrun (cell : CellRead) : Statement (.vrun cell) := none_spelled _
theorem vrunt (cell : CellRead) : Statement (.vrunt cell) := none_spelled _
theorem vstatRead (cell : Nat) : Statement (.vstatRead cell) := none_spelled _
theorem vstatLast (cell : Nat) : Statement (.vstatLast cell) := none_spelled _
theorem vstatReadClear (cell : Nat) : Statement (.vstatReadClear cell) := none_spelled _
theorem tokenInject (cell : Nat) : Statement (.tokenInject cell) := none_spelled _
theorem flitArrive (flit : FlitRead) : Statement (.flitArrive flit) := none_spelled _
theorem tokenMatch (cell : Nat) : Statement (.tokenMatch cell) := none_spelled _
theorem firingSelect (cell : Nat) : Statement (.firingSelect cell) := none_spelled _
theorem dwellEnd (cell : Nat) : Statement (.dwellEnd cell) := none_spelled _
theorem foldSwitchDone (cell : Nat) : Statement (.foldSwitchDone cell) := none_spelled _
theorem flowFlitInject (cell : CellRead) (route : Nat) : Statement (.flowFlitInject cell route) := none_spelled _
theorem flowHeadArrive (cell : Nat) : Statement (.flowHeadArrive cell) := none_spelled _
theorem flowFlitLand (cell : Nat) : Statement (.flowFlitLand cell) := none_spelled _
theorem chainSourceRead (cell : CellRead) : Statement (.chainSourceRead cell) := none_spelled _
theorem chainFlitArrive (cell : Nat) : Statement (.chainFlitArrive cell) := none_spelled _
theorem localStreamStart (cell : Nat) : Statement (.localStreamStart cell) := none_spelled _
theorem localStreamWordWrite (cell : CellRead) : Statement (.localStreamWordWrite cell) := none_spelled _
theorem localStreamEnd (cell : Nat) : Statement (.localStreamEnd cell) := none_spelled _
theorem engineFetch (engine : Nat) : Statement (.engineFetch engine) := none_spelled _
theorem engineWordArrive (engine : Nat) (word : WordRead) : Statement (.engineWordArrive engine word) := none_spelled _
theorem wordRelease (engine : Nat) : Statement (.wordRelease engine) := none_spelled _
theorem egressHeadArrive (engine : Nat) : Statement (.egressHeadArrive engine) := none_spelled _
theorem egressFlitArrive (engine : Nat) : Statement (.egressFlitArrive engine) := none_spelled _
theorem outfallWrite (engine : Nat) (culvert : EccResult) : Statement (.outfallWrite engine culvert) := none_spelled _
theorem matrixOpDone (cell : Nat) : Statement (.matrixOpDone cell) := none_spelled _
theorem tileQueuePush (cell : Nat) : Statement (.tileQueuePush cell) := none_spelled _
theorem vcfgLoadDone (cell : Nat) : Statement (.vcfgLoadDone cell) := none_spelled _
theorem vectorRunDone (cell : Nat) : Statement (.vectorRunDone cell) := none_spelled _
theorem syncOpAct (part : Nat) : Statement (.syncOpAct part) := none_spelled _
theorem syncResultReturn (cell : Nat) : Statement (.syncResultReturn cell) := none_spelled _
theorem syncWaitDone (cell : Nat) : Statement (.syncWaitDone cell) := none_spelled _
theorem syncWaitTimeout (cell : Nat) : Statement (.syncWaitTimeout cell) := none_spelled _
theorem jobEnd (part : Nat) : Statement (.jobEnd part) := none_spelled _
theorem fcLimitReached (part : Nat) : Statement (.fcLimitReached part) := none_spelled _
theorem launchStateRestoreDone (part : Nat) : Statement (.launchStateRestoreDone part) := none_spelled _
theorem paceStepApply : Statement .paceStepApply := none_spelled _
theorem breachRaise (data ctrl mgmt : Option (BitVec 16)) : Statement (.breachRaise data ctrl mgmt) := none_spelled _
theorem rootPllLock : Statement .rootPllLock := none_spelled _
theorem rootPllLockLoss : Statement .rootPllLockLoss := none_spelled _
theorem mirrorUpdate (index sub element : Nat) : Statement (.mirrorUpdate index sub element) := none_spelled _
theorem bar2HwWrite (fn offset : Nat) (value : Word) : Statement (.bar2HwWrite fn offset value) := none_spelled _
theorem bar2CollectionTimeout (fn : Nat) : Statement (.bar2CollectionTimeout fn) := none_spelled _
theorem hwWriteApply (fn : Nat) : Statement (.hwWriteApply fn) := none_spelled _
theorem partCtlEnable (src part : Nat) (image : BitVec 16) : Statement (.partCtlEnable src part image) := none_spelled _
theorem partCtlDisable (src part : Nat) : Statement (.partCtlDisable src part) := none_spelled _
theorem imageLoadDone (part : Nat) : Statement (.imageLoadDone part) := none_spelled _
theorem checkVerdict (part : Nat) (micros : Nat) : Statement (.checkVerdict part micros) := none_spelled _
theorem tier0FillDone (part : Nat) (fill : FillRead) : Statement (.tier0FillDone part fill) := none_spelled _
theorem sluiceRecheck (part : Nat) : Statement (.sluiceRecheck part) := none_spelled _
theorem mcDoorbell (src part tail : Nat) : Statement (.mcDoorbell src part tail) := none_spelled _
theorem alloc (part : Nat) : Statement (.alloc part) := none_spelled _
theorem free (part : Nat) : Statement (.free part) := none_spelled _
theorem move (part : Nat) : Statement (.move part) := none_spelled _
theorem clean (part : Nat) : Statement (.clean part) := none_spelled _
theorem place (part : Nat) : Statement (.place part) := none_spelled _
theorem ingest (part : Nat) : Statement (.ingest part) := none_spelled _
theorem digest (part : Nat) : Statement (.digest part) := none_spelled _
theorem plotCopyDone (part vpn offset : Nat) (ecc : EccResult) : Statement (.plotCopyDone part vpn offset ecc) := none_spelled _
theorem commit (part : Nat) : Statement (.commit part) := none_spelled _
theorem ttlTick : Statement .ttlTick := none_spelled _
theorem scrubRead (channel part frame offset : Nat) (ecc : EccResult) : Statement (.scrubRead channel part frame offset ecc) := none_spelled _
theorem channelOutOfService (channel : Nat) : Statement (.channelOutOfService channel) := none_spelled _
theorem sluiceTableApply (part : Nat) : Statement (.sluiceTableApply part) := none_spelled _
theorem bar4Read (fn offset len : Nat) : Statement (.bar4Read fn offset len) := none_spelled _
theorem bar4Write (fn offset : Nat) (data : List Byte) : Statement (.bar4Write fn offset data) := none_spelled _
theorem rdmaReadResponse (port : Nat) (head : RdmaHead) (answer : Option (List Byte)) : Statement (.rdmaReadResponse port head answer) := none_spelled _
theorem rdmaWriteRecv (port : Nat) (head : RdmaHead) (va : Word) (rkey : BitVec 32) (data : List Byte) : Statement (.rdmaWriteRecv port head va rkey data) := none_spelled _
theorem qpAckTimeout (qp : Nat) : Statement (.qpAckTimeout qp) := none_spelled _
theorem ingestPortLoss (port : Nat) : Statement (.ingestPortLoss port) := none_spelled _
theorem srDoorbell (src part tail : Nat) : Statement (.srDoorbell src part tail) := none_spelled _
theorem start (part : Nat) : Statement (.start part) := none_spelled _
theorem append (part : Nat) : Statement (.append part) := none_spelled _
theorem park (part : Nat) : Statement (.park part) := none_spelled _
theorem parkMove (part req : Nat) : Statement (.parkMove part req) := none_spelled _
theorem resume (part : Nat) : Statement (.resume part) := none_spelled _
theorem resumeMoveDone (part req : Nat) : Statement (.resumeMoveDone part req) := none_spelled _
theorem cancel (part : Nat) : Statement (.cancel part) := none_spelled _
theorem tree (part : Nat) : Statement (.tree part) := none_spelled _
theorem serveStepAdmit (part : Nat) : Statement (.serveStepAdmit part) := none_spelled _
theorem serveStepComplete (part : Nat) : Statement (.serveStepComplete part) := none_spelled _
theorem prefixHash (part : Nat) (cmd : BitVec 512) : Statement (.prefixHash part cmd) := none_spelled _
theorem prefixLookup (part : Nat) (cmd : BitVec 512) : Statement (.prefixLookup part cmd) := none_spelled _
theorem prefixInsert (part : Nat) (cmd : BitVec 512) : Statement (.prefixInsert part cmd) := none_spelled _
theorem prefixInval (part : Nat) (cmd : BitVec 512) : Statement (.prefixInval part cmd) := none_spelled _
theorem prefixRelease (part : Nat) (cmd : BitVec 512) : Statement (.prefixRelease part cmd) := none_spelled _
theorem sqDoorbell (src part queue tail : Nat) : Statement (.sqDoorbell src part queue tail) := none_spelled _
theorem sqCfgWrite (src part queue : Nat) (value : Word) : Statement (.sqCfgWrite src part queue value) := none_spelled _
theorem jobTake (part : Nat) : Statement (.jobTake part) := none_spelled _
theorem jobLaunch (part : Nat) : Statement (.jobLaunch part) := none_spelled _
theorem stopAck (src part : Nat) (value : Word) : Statement (.stopAck src part value) := none_spelled _
theorem preemptRequest (src part : Nat) (value : Word) : Statement (.preemptRequest src part value) := none_spelled _
theorem freeze (part : Nat) : Statement (.freeze part) := none_spelled _
theorem cheapPointTimeout (part : Nat) : Statement (.cheapPointTimeout part) := none_spelled _
theorem drainDone (part : Nat) : Statement (.drainDone part) := none_spelled _
theorem refillStart (part : Nat) (ecc : EccResult) : Statement (.refillStart part ecc) := none_spelled _
theorem refillResume (part : Nat) : Statement (.refillResume part) := none_spelled _
theorem semReadAcquire (src n : Nat) : Statement (.semReadAcquire src n) := none_spelled _
theorem semWriteRelease (src n : Nat) (value : Word) : Statement (.semWriteRelease src n value) := none_spelled _
theorem semLeaseExpire (n : Nat) : Statement (.semLeaseExpire n) := none_spelled _
theorem functionLevelReset (fn : Nat) : Statement (.functionLevelReset fn) := none_spelled _
theorem bootCtlGo (fn : Nat) : Statement (.bootCtlGo fn) := none_spelled _
theorem registerWrite (fn offset : Nat) (value : Word) : Statement (.registerWrite fn offset value) := none_spelled _
theorem linkFrameSend (link : Nat) : Statement (.linkFrameSend link) := none_spelled _
theorem linkFrameRecv (link : Nat) (arrival : LinkArrival) : Statement (.linkFrameRecv link arrival) := none_spelled _
theorem linkAckSend (link : Nat) : Statement (.linkAckSend link) := none_spelled _
theorem linkReplayTimeout (link : Nat) : Statement (.linkReplayTimeout link) := none_spelled _
theorem linkRetrain (link : Nat) (cause : RetrainCause) : Statement (.linkRetrain link cause) := none_spelled _
theorem linkTrainDone (link : Nat) : Statement (.linkTrainDone link) := none_spelled _
theorem linkDownTimeout (link : Nat) : Statement (.linkDownTimeout link) := none_spelled _
theorem syncMsgRecv (link : Nat) (t1 t2 t3 : Int) : Statement (.syncMsgRecv link t1 t2 t3) := none_spelled _
theorem delayRespRecv (link : Nat) (t4 : Int) : Statement (.delayRespRecv link t4) := none_spelled _
theorem launchMsgRecv (link : Nat) (src msg : Nat) (body : List Byte) : Statement (.launchMsgRecv link src msg body) := none_spelled _
theorem barrierMsgRecv (link : Nat) (src msg : Nat) (plan : Word) (chan : Nat) : Statement (.barrierMsgRecv link src msg plan chan) := none_spelled _
theorem abortMsgRecv (link : Nat) (src msg : Nat) (plan step : Word) : Statement (.abortMsgRecv link src msg plan step) := none_spelled _
theorem breachMsgRecv (link : Nat) (src msg : Nat) (plan step : Word) : Statement (.breachMsgRecv link src msg plan step) := none_spelled _
theorem keeperMsgRecv (link : Nat) (src msg mailbox : Nat) (body : List Byte) : Statement (.keeperMsgRecv link src msg mailbox body) := none_spelled _
theorem switchPortReset (link : Nat) (frame : List Byte) : Statement (.switchPortReset link frame) := none_spelled _
theorem ctrSyncEdge (rootCycles : Int) (multiple : Word) : Statement (.ctrSyncEdge rootCycles multiple) := none_spelled _
theorem gcTick (n : Nat) : Statement (.gcTick n) := none_spelled _
theorem gcSyncLoss : Statement .gcSyncLoss := none_spelled _
theorem gcHoldoverExpire : Statement .gcHoldoverExpire := none_spelled _
theorem firstAcqTimeout : Statement .firstAcqTimeout := none_spelled _
theorem transferStart (transfer : TransferRead) : Statement (.transferStart transfer) := none_spelled _
theorem transferArrival (part chan member ofs : Nat) (data : List Byte) : Statement (.transferArrival part chan member ofs data) := none_spelled _
theorem holdRelease (part : Nat) : Statement (.holdRelease part) := none_spelled _
theorem holdLimitExpire (part : Nat) : Statement (.holdLimitExpire part) := none_spelled _
theorem railPoll (readings : List RailReading) : Statement (.railPoll readings) := none_spelled _
theorem vrmAlertAssert : Statement .vrmAlertAssert := none_spelled _
theorem vrmAlertDeassert : Statement .vrmAlertDeassert := none_spelled _
theorem governorEvaluation (activity : List Nat) (staticMw : Nat) (shelfOk : Bool) (busyMw : List (Nat × Nat)) : Statement (.governorEvaluation activity staticMw shelfOk busyMw) := none_spelled _
theorem governorStepPoint (vout : List Nat) : Statement (.governorStepPoint vout) := none_spelled _
theorem thermalReading (readings : List TempReading) : Statement (.thermalReading readings) := none_spelled _
theorem thermalTrip (source unit sensor : Nat) : Statement (.thermalTrip source unit sensor) := none_spelled _
theorem tripClockStop : Statement .tripClockStop := none_spelled _
theorem openSession (d : Dgram) : Statement (.openSession d) := none_spelled _
theorem get (d : Dgram) : Statement (.get d) := none_spelled _
theorem set (d : Dgram) : Statement (.set d) := none_spelled _
theorem tableGet (d : Dgram) : Statement (.tableGet d) := none_spelled _
theorem tableSet (d : Dgram) : Statement (.tableSet d) := none_spelled _
theorem semAcq (d : Dgram) : Statement (.semAcq d) := none_spelled _
theorem semRel (d : Dgram) : Statement (.semRel d) := none_spelled _
theorem subscribe (d : Dgram) : Statement (.subscribe d) := none_spelled _
theorem sessionEnd (d : Dgram) : Statement (.sessionEnd d) := none_spelled _
theorem principalEnd (d : Dgram) : Statement (.principalEnd d) := none_spelled _
theorem reset (d : Dgram) : Statement (.reset d) := none_spelled _
theorem lcAdvance (d : Dgram) : Statement (.lcAdvance d) := none_spelled _
theorem otpWrite (d : Dgram) : Statement (.otpWrite d) := none_spelled _
theorem bootWrite (d : Dgram) : Statement (.bootWrite d) := none_spelled _
theorem bootGo (d : Dgram) : Statement (.bootGo d) := none_spelled _
theorem flashWrite (d : Dgram) : Statement (.flashWrite d) := none_spelled _
theorem bulkRead (d : Dgram) : Statement (.bulkRead d) := none_spelled _
theorem bulkReadDatagram : Statement .bulkReadDatagram := none_spelled _
theorem renew (d : Dgram) : Statement (.renew d) := none_spelled _
theorem close (d : Dgram) : Statement (.close d) := none_spelled _
theorem noop (d : Dgram) : Statement (.noop d) := none_spelled _
theorem notify (slot sub : Nat) : Statement (.notify slot sub) := none_spelled _
theorem sessionIdleTimeout (slot : Nat) : Statement (.sessionIdleTimeout slot) := none_spelled _
theorem starting (d : Dgram) : Statement (.starting d) := none_spelled _
theorem neighborDiscovery (port : Nat) (addr target : BitVec 128) : Statement (.neighborDiscovery port addr target) := none_spelled _
theorem icmpv6Echo (port : Nat) (addr target : BitVec 128) (body : List Byte) : Statement (.icmpv6Echo port addr target body) := none_spelled _
theorem resetSourceAssert (source fn : Nat) : Statement (.resetSourceAssert source fn) := none_spelled _
theorem resetSourceDeassert (source fn : Nat) : Statement (.resetSourceDeassert source fn) := none_spelled _
theorem wardenWatchdogExpire : Statement .wardenWatchdogExpire := none_spelled _
theorem keeperWatchdogExpire : Statement .keeperWatchdogExpire := none_spelled _
theorem otpPulseEnd : Statement .otpPulseEnd := none_spelled _
theorem releaseStep : Statement .releaseStep := none_spelled _
theorem firmwareVerify : Statement .firmwareVerify := none_spelled _
theorem ddr5TrainingDone (channel : Nat) (ok : Bool) : Statement (.ddr5TrainingDone channel ok) := none_spelled _
theorem devStateAccepting : Statement .devStateAccepting := none_spelled _
theorem l4Release (part : Nat) : Statement (.l4Release part) := none_spelled _
theorem l5Release (block : Nat) : Statement (.l5Release block) := none_spelled _
theorem entropyStartupTest (pass : Bool) : Statement (.entropyStartupTest pass) := none_spelled _
theorem entropyHealthFail : Statement .entropyHealthFail := none_spelled _
theorem entropyRetest (pass : Bool) : Statement (.entropyRetest pass) := none_spelled _
theorem entropyBufferFill (die : Nat) (word : Word) : Statement (.entropyBufferFill die word) := none_spelled _
theorem loopbackTokenDelivery (cell : Nat) : Statement (.loopbackTokenDelivery cell) := none_spelled _
theorem generatorFree (cell : Nat) : Statement (.generatorFree cell) := none_spelled _
theorem zeroingWritten (part vpn : Nat) : Statement (.zeroingWritten part vpn) := none_spelled _
theorem writeBackDone (part addr : Nat) (ecc : EccResult) : Statement (.writeBackDone part addr ecc) := none_spelled _
theorem digestStored (part obj addr : Nat) (ecc : EccResult) : Statement (.digestStored part obj addr ecc) := none_spelled _
theorem hbmInitialisationDone (stack : Nat) : Statement (.hbmInitialisationDone stack) := none_spelled _
theorem pcieTrainingDone (port : Nat) (gen width : Nat) : Statement (.pcieTrainingDone port gen width) := none_spelled _
theorem ingestPortUp (port : Nat) : Statement (.ingestPortUp port) := none_spelled _
theorem mgPortUp (port : Nat) : Statement (.mgPortUp port) := none_spelled _

end Sys2Proof.Laws.Units
end

