-- ==== Sys2Proof/Tests/Slice0.lean ====
section
/-! SUPPORT. The model's own tests: ill-formed commands, a witness for the hypotheses of each statement, and small checks on
fixed values. Expected values come from the rules of spec/ or are worked out by hand. -/
namespace Sys2Proof.Tests
set_option Elab.async false
open Sys2Proof.Machine

/-! ### Builders -/

/-- An instruction word: opcode and lower bits. -/
def insn (op low : Nat) : InsnWord := BitVec.ofNat 128 (op * 2 ^ 120 + low)

/-- A firing of a fold in slot 1 of its cell with tag 7, at its first instruction. -/
def firing0 : Firing := { fold := 0, tag := 7, slot := some 1, pc := 0, ready := 10, waiting := false, strm := [] }

/-- A cell in fold 0 for 256 fc, whose firing issues a list of instructions; route 0 goes to the loopback. -/
def cellOf (l : List InsnWord) : Cell :=
  { Cell.init with
    record := true, sched := [BitVec.ofNat 32 0x10000100], firing := some firing0,
    folds := [(0, { Fold.init with instrs := l, opMask := 1, routes := [0x8000000000000000, 0] })],
    slots := [(1, { fold := 0, tag := 7, ops := [some { (default : Token) with len := 8, payload := List.replicate 8 5 },
                    none, none, none], complete := some 1, firing := true })] }

/-- The clocks run, partition 0 has eighth 0 of the fabric, and it is changed by a function. -/
def base (f : Part → Part) : State :=
  (odSet { State.reset with clocks := { State.reset.clocks with locked := true } } 0x1800 0x01 0 0x10).setPart 0 (f Part.init)

/-- Partition 0 runs a job and is at fabric cycle 10. -/
def busy (f : Part → Part) : State :=
  base (fun x => f { x with state := .busy, first := true, fc := 10, job := some (default : Job) })

/-- Cell 0 of a busy partition. -/
def demo (x : Cell) (f : Part → Part) : State := (busy f).setCell 0 x

/-- The issue of an instruction by the firing of `cellOf` in fc 10. -/
def issueOf (op low : Nat) (pred : Bool) : Issue :=
  { part := 0, cell := 0, fold := 0, slot := some 1, tag := 7, fc := 10, insn := insn op low, pred := pred }

/-- A cell whose firing issues one instruction. -/
def one (op low : Nat) : State := demo (cellOf [insn op low]) id

/-- The state that an outcome gives, if it gives one. -/
def after : Host.Outcome State Fault Refusal → Option State
  | .next t => some t
  | _ => none

/-- The predicate-inverted instruction bit, [117]. -/
def inv : Nat := 2 ^ 117

/-! ### Ill-formed commands -/

theorem test_ill_formed :
    [Instr.nop 2304, .alloc 8, .engineFetch 192, .linkAckSend 14, .bootCtlGo 0x3000, .bar4Read 0x1009 0 8,
     .sqDoorbell 0x5000 0 0 0, .sqDoorbell 0x1000 0 4 0, .qpAckTimeout 256, .ingestPortLoss 2, .mgPortUp 2,
     .sessionIdleTimeout 32, .notify 0 16, .entropyBufferFill 4 0, .hbmInitialisationDone 8, .channelOutOfService 16,
     .scrubRead 24 0 0 0 .good, .flowFlitInject ⟨0, none⟩ 32, .semLeaseExpire 64, .abortMsgRecv 0 262144 0 0 0,
     .resetSourceAssert 11 0, .resetSourceAssert 10 0x3000, .resetSourceDeassert 11 0, .bar2HwWrite 0x1000 0x100000 0,
     .registerWrite 0x1000 0x1000000 0, .keeperMsgRecv 0 0 0 64 [], .thermalTrip 0 0 0, .thermalTrip 4 0 0].all
      (fun c => !c.wf) = true := by decide

theorem test_well_formed :
    [Instr.nop 2303, .alloc 7, .engineFetch 191, .linkAckSend 13, .bootCtlGo 0x1000, .bar4Read 0x2008 0 8,
     .sqDoorbell 0x4001 0 3 0, .qpAckTimeout 255, .ingestPortLoss 1, .notify 31 15, .entropyBufferFill 3 0,
     .hbmInitialisationDone 7, .channelOutOfService 15, .scrubRead 23 7 0 0 .good, .flowFlitInject ⟨0, none⟩ 31, .semLeaseExpire 63,
     .resetSourceAssert 10 0x2008, .thermalTrip 3 0 0].all Instr.wf = true := by decide

/-- An ill-formed command is refused by name. -/
theorem test_refused : exec (.nop 2304) State.reset = .refused (.noSuchUnit "cell" 2304) := by rfl

/-! ### Witnesses: instructions of a cell -/

theorem test_scalar_issues : ∀ op ∈ [0x00, 0x04, 0x05, 0x08, 0x09, 0x0E, 0x0F], Issues (one op 0) 0 op 0 (issueOf op 0 true) := by
  decide

theorem test_predicate_and_scratch_issues :
    (∀ op ∈ [0x06, 0x07, 0x0A, 0x0B], Issues (one op 0) 0 op 0 (issueOf op 0 true)) ∧
    scratchAddr (issueOf 0x0A 0x2FFF true) (one 0x0A 0x2FFF) < 0x3000 ∧ ((one 0x0B 0).cell 0).vector.run = none ∧
    Issues (one 0x0B inv) 0 0x0B 0 (issueOf 0x0B inv false) ∧
    Issues (one 0x0A 0x3000) 0 0x0A 0 (issueOf 0x0A 0x3000 true) ∧ Issues (one 0x0B 0x3000) 0 0x0B 0 (issueOf 0x0B 0x3000 true) ∧
    0x3000 ≤ scratchAddr (issueOf 0x0A 0x3000 true) (one 0x0A 0x3000) ∧
    0x3000 ≤ scratchAddr (issueOf 0x0B 0x3000 true) (one 0x0B 0x3000) ∧ ((one 0x0A 0x3000).part 0).fault = none := by decide

theorem test_firing_output_issues :
    (∀ op ∈ [0x01, 0x02, 0x03], Issues (one op 0) 0 op 0 (issueOf op 0 true)) ∧
    (∀ op ∈ [0x02, 0x03], Issues (one op (inv + 2 ^ 77)) 0 op 0 (issueOf op (inv + 2 ^ 77) false) ∧
      fSinkf (issueOf op (inv + 2 ^ 77) false).insn = true) ∧
    (operand ((one 0x03 0).cell 0) (some 1) 0).isSome = true := by decide

/-- A state whose generator is busy until fc 12 and whose entropy source is in service with one word for die 0. -/
def drawing : State :=
  let s := odSet (demo { cellOf [insn 0x0D 0] with genFree := 12, genBusy := true } id) 0x1E00 0x20 0 1
  { s with entropy := { s.entropy with buffers := [(0, [9])] } }

theorem test_draw_witness :
    Issues (one 0x0C 0) 0 0x0C ((one 0x0C 0).cell 0).genFree (issueOf 0x0C 0 true) ∧ ((one 0x0C 0).part 0).job = some default ∧
    (drawing.cell 0).genBusy = true ∧ CellReaches drawing 0 0 ((drawing.cell 0).genFree - 1) ∧
    Issues drawing 0 0x0D 0 (issueOf 0x0D 0 true) ∧ entropyUp ((issueOf 0x0D 0 true).start drawing) = true ∧
    Assoc.get (fun _ => []) drawing.entropy.buffers (cellDie 0) = [9] ∧
    Issues (one 0x0D 0) 0 0x0D 0 (issueOf 0x0D 0 true) ∧ ((one 0x0D 0).part 0).fault = none ∧
    entropyUp ((issueOf 0x0D 0 true).start (one 0x0D 0)) = false := by decide

theorem test_sync_issues : ∀ op ∈ [0x20, 0x21, 0x23, 0x26, 0x24, 0x22, 0x25], Issues (one op 0) 0 op 0 (issueOf op 0 true) := by
  decide

/-- A sync operation of cell 0 on object 5 of die 0, issued in fc 4. -/
def syncOp (op : Nat) (value : Word) : SyncOp :=
  { (default : SyncOp) with opcode := op, obj := 5, value := value, live := true, issued := 4, dest := 3, limit := 256 }

/-- Operations in progress, and the object's COUNT. -/
def syncing (ops : List SyncOp) (count : Nat) : State :=
  let s := demo (cellOf []) (fun x => { x with syncOps := ops })
  { s with sync := [(5, BitVec.ofNat 64 count)] }

theorem test_sync_object_witness :
    (∀ op ∈ [0x20, 0x21, 0x22, 0x23, 0x24, 0x25, 0x26], syncOp op 2 ∈ ((syncing [syncOp op 2] 7).part 0).syncOps) ∧
    objCount ((syncing [] 7).syncObj 0 5) = 7 ∧ objCount ((syncing [] (2 ^ 32 - 1)).syncObj 0 5) = 2 ^ 32 - 1 ∧
    ((syncing [] 7).part 0).fault = none ∧ partOfEighth (syncing [] 7) (syncEighth 0 5) = some 0 ∧
    (odForce (syncing [] 7) 0x1900 0x02 0).testBit 0 = false ∧
    (odForce (odSet (syncing [] 7) 0x1900 0x02 0 1) 0x1900 0x02 0).testBit 0 = true := by decide

/-- Operations that have acted: one with a result, and waits whose COUNT is and is not yet met. -/
def actedOp (op : Nat) (met : Option Nat) : SyncOp := { syncOp op 2 with acted := true, met := met }

theorem test_sync_completion_witness :
    nextAct ((syncing [syncOp 0x20 2] 7).part 0).syncOps = some 12 ∧ PartReaches (syncing [syncOp 0x20 2] 7) 0 12 ∧
    arrivalObj (syncing [actedOp 0x22 none] 7) 0 0 5 = false ∧
    cellOps (syncing [actedOp 0x20 none] 7) 0 0 (fun o => o.acted && (returnsObj o.opcode || o.opcode == 0x64)) =
      [actedOp 0x20 none] ∧
    CellReaches (syncing [actedOp 0x20 none] 7) 0 0 20 ∧ partOfCell (syncing [] 7) 0 = some 0 ∧
    cellOps (syncing [actedOp 0x64 none] 7) 0 0 (fun o => o.acted && (returnsObj o.opcode || o.opcode == 0x64)) =
      [actedOp 0x64 none] ∧
    cellOps (syncing [actedOp 0x22 (some 12)] 7) 0 0 (fun o => waitsObj o.opcode && o.met.isSome) = [actedOp 0x22 (some 12)] ∧
    cellOps (syncing [actedOp 0x25 none] 7) 0 0 (fun o => waitsObj o.opcode && o.met.isNone && decide (o.limit ≠ 0)) =
      [actedOp 0x25 none] ∧ CellReaches (syncing [actedOp 0x25 none] 7) 0 0 (4 + 256 + 1) := by decide

theorem test_stream_issues :
    (∀ op ∈ [0x40, 0x41, 0x44, 0x45], Issues (one op 0) 0 op (sidSince (one op 0) 0) (issueOf op 0 true)) ∧
    ((one 0x40 0).cell 0).streams = [] ∧ Issues (one 0x48 0) 0 0x48 0 (issueOf 0x48 0 true) := by decide

theorem test_flow_issues :
    Issues (one 0x42 0) 0 0x42 (flowSince (one 0x42 0) 0) (issueOf 0x42 0 true) ∧ flowFree (one 0x42 0) 0 (insn 0x42 0) = true ∧
    (∀ op ∈ [0x43, 0x46, 0x47], Issues (one op 0) 0 op 0 (issueOf op 0 true)) ∧ ((one 0x46 0).cell 0).swapBlocked = false := by
  decide

/-- A landing in half 1 that has written. -/
def landing1 (half left : Nat) : Landing := { key := 4, half := half, ofs := 0, left := left, started := true, since := 9, tok := default }

theorem test_swap_witness :
    let s := demo { cellOf [insn 0x46 0] with landings := [landing1 1 2] } id
    Issues s 0 0x46 0 (issueOf 0x46 0 true) ∧ (s.cell 0).swapBlocked = true ∧ (s.part 0).fault = none := by decide

/-! ### Witnesses: streams, flows, matrix and vector units, the mesh -/

/-- A loop descriptor of one level of one run of 64 bytes. -/
def descBits : Nat := 2 ^ 507 + 63 * 2 ^ 471

/-- A STLD that has issued in fc 4, with that descriptor at scratch 0. -/
def stream0 : LocalStream := { (default : LocalStream) with kind := .stld, live := true, issued := 4 }

/-- The same stream started in fc 5, of half 0. -/
def stream1 : LocalStream := { stream0 with started := true, desc := BitVec.ofNat 512 descBits, nextFc := 9 }

/-- A stream that has moved its 64 bytes. -/
def stream2 : LocalStream := { stream1 with moved := 64, walk := { step := 1, ofs := 0 }, lastFc := 13, written := true }

/-- Streams of cell 0. -/
def streaming (l : List LocalStream) : State :=
  demo { cellOf [] with streams := l, scratch := Mem.zero.writeN 0 0 (leBytes 64 descBits) } id

theorem test_stream_start_witness :
    let s := streaming [stream0]
    let d := fun (s : State) => (BitVec.ofNat 512 (leNat (((s.cell 0).view 8).scratch.readN 0x3000 0 64)) : BitVec 512)
    let z := s.setCell 0 { s.cell 0 with scratch := Mem.zero }
    (s.cell 0).streamStart stream0 + 3 = 8 ∧ CellReaches s 0 0 8 ∧ stream0.dsAddr + 64 ≤ 0x3000 ∧
      ldMalformed (d z) = true ∧ stream0.live = true ∧ (z.part 0).fault = none ∧ ldMalformed (d s) = false ∧ ldMode (d s) = stream0.kind.mode ∧
      ((after (exec (.localStreamStart 0) s)).map (fun t => (t.cell 0).streams.map (·.nextFc))) = some [9] := by decide +kernel

theorem test_stream_word_witness :
    let s := streaming [stream1]
    let h := (s.cell 0).readHead stream1
    h.buf.map (fun w => (w.read, w.dst, w.code, w.bytes.length)) = [(9, 0, 0, 64)] ∧ CellReaches s 0 0 13 ∧
      (s.cell 0).vector.run = none ∧ ((s.cell 0).advance 13).wroteFc ≠ 13 ∧ stream1.half < 2 ∧
      (let r := tier0Error 0 true (some { word := 0, bad := true }) s
       ((r.cell 0).readHead stream1).buf.map (fun w => (w.read, w.code)) = [(9, 0x204)] ∧ CellReaches r 0 0 9 ∧
        (r.part 0).fault = none) := by decide +kernel

theorem test_stream_end_witness :
    let s := streaming [stream2]
    let h := (s.cell 0).readHead stream2
    h.buf = [] ∧ h.fault = none ∧ CellReaches s 0 0 h.lastFc ∧ stream2.written = true ∧ stream2.half < 2 := by decide +kernel

/-- A flow of one data flit on route 1, to the north in lane 0, with or without its head still to go. -/
def flow0 (head : Option Token) : OutFlow := { (default : OutFlow) with route := 1, total := 1, head := head, live := true }

theorem test_flow_inject_witness :
    ∀ h ∈ [none, some (default : Token)],
      let s := demo { cellOf [] with flows := [flow0 h] } id
      (s.cell 0).flowOn (s.cell 0).cur 1 = some (flow0 h) ∧ (flow0 h).ended = false ∧ (s.cell 0).switching = none ∧
        slotFrom (routeLane (flow0 h).entry) (max ((flow0 h).lastFc + 1) (s.cell 0).dwellFrom) = 4 ∧
        4 < (s.cell 0).dwellEnd ∧
        CellReaches s 0 0 4 ∧ routeOut (flow0 h).entry < 4 ∧ (crossLink 0 0 4 (.flowHead default 0)).isSome = true ∧
        (((s.cell 0).advance 4).view 4).rdCode 0 0 64 = 0 := by decide +kernel

/-- A flow of tier 0 on the loopback route 0, whose first word is bad. -/
theorem test_flow_fault_witness :
    let o : OutFlow := { flow0 none with route := 0, entry := 0x8000000000000000, src := 2 }
    let s := demo { cellOf [] with flows := [o] } id
    let r := tier0Error 0 true (some { word := 0, bad := true }) s
    routeOut o.entry = 4 ∧ (s.cell 0).flowOn (s.cell 0).cur 0 = some o ∧
      slotFrom (routeLane o.entry) (max (o.lastFc + 1) (s.cell 0).dwellFrom) = 4 ∧
      (((r.cell 0).advance 4).view 4).rdCode 2 0 64 = 0x204 ∧ (s.part 0).fault = none := by decide +kernel

/-- A delivered flit. -/
def arrived (b : FlitBody) : Delivered := { key := 4, fc := 12, body := b }

/-- Deliveries to cell 0, with an arm for flow 3. -/
def inboxOf (l : List Delivered) (arms : Assoc Arm) : State :=
  demo { cellOf [] with inbox := l, arms := arms, landings := [landing1 1 2] } id

theorem test_flow_arrival_witness :
    takeFlit isHead [arrived (.flowHead default 1)] = some (arrived (.flowHead default 1), []) ∧
    takeFlit isHead [arrived (.edgeHead 0 3 64)] = some (arrived (.edgeHead 0 3 64), []) ∧
    CellReaches (inboxOf [arrived (.edgeHead 0 3 64)] []) 0 0 12 ∧
    ((inboxOf [arrived (.edgeHead 0 3 64)] [(3, default)]).cell 0).arms.find? 3 = some default ∧
    ((inboxOf [arrived (.edgeHead 0 3 64)] []).cell 0).arms.find? 3 = none ∧
    ((inboxOf [arrived (.edgeHead 0 3 64)] []).part 0).fault = none ∧
    takeFlit isData [arrived (.flowData [])] = some (arrived (.flowData []), []) ∧
    ([arrived (.flowData [])].takeWhile (fun e => !isData e.body)).any (fun e => e.key == 4 && isHead e.body) = false ∧
    ((inboxOf [arrived (.flowData [])] []).cell 0).landingOn 4 = some (landing1 1 2) ∧
    (landing1 1 2).ofs + 64 ≤ 16384 ∧ (landing1 1 1).left ≤ 1 ∧ 1 < (landing1 1 2).left ∧
    (landing1 1 1).tok.dport.toNat < ((inboxOf [] []).cell 0).queues.length := by decide

/-- A chain member that reads tier 0, kept `n` flits of one. -/
def member0 (n : Nat) : Member := { (default : Member) with src := 2, keep := 1, rest := 1, kept := n, issued := 4 }

theorem test_chain_witness :
    let s := demo { cellOf [] with chain := some (member0 0), inbox := [arrived (.chain (List.replicate 64 1))] } id
    (s.cell 0).chain = some (member0 0) ∧ (member0 0).read < (member0 0).keep + (member0 0).rest ∧
      (member0 0).issued + 1 + (member0 0).read = 5 ∧ CellReaches s 0 0 5 ∧ (((s.cell 0).advance 5).view 5).rdCode 2 0 64 = 0 ∧
      ((((tier0Error 0 true (some { word := 0, bad := true }) s).cell 0).advance 5).view 5).rdCode 2 0 64 = 0x204 ∧
      (member0 0).kept < (member0 0).keep ∧ (s.cell 0).landingOn chainKey = none ∧
      takeFlit isChain (s.cell 0).inbox = some (arrived (.chain (List.replicate 64 1)), []) ∧ (member0 0).issued < 12 ∧
      ((inboxOf [arrived (.chain [])] []).cell 0).chain = none ∧
      (member0 1).keep ≤ (member0 1).kept ∧ routeOut (nth 0 ((s.cell 0).fold 0).routes 1) < 4 ∧
      (crossLink 0 0 13 (.chain [])).isSome = true := by decide +kernel

/-- One-element tiles in FP16, both operands from tier 0. -/
def mulLow : Nat := 10 * 2 ^ 68 + 10 * 2 ^ 64 + 2 * 2 ^ 62 + 2 * 2 ^ 60

theorem test_multiply_witness :
    ∀ p ∈ [(0x61, true), (0x62, false)],
      let s := one p.1 mulLow
      let k := issueOf p.1 mulLow true
      mmProbe k.insn = false ∧ Issues s 0 p.1 0 k ∧ (s.cell 0).matrix.mmulAt = 0 ∧ (s.cell 0).matrix.maccAt = 0 ∧
        (p.2 = true → settled s 0 = true) := by decide

theorem test_probe_witness :
    (∀ op ∈ [0x61, 0x62],
      let low := mulLow + 2 ^ 57
      let k := issueOf op low true
      mmProbe k.insn = true ∧ Issues (one op low) 0 op 0 k ∧ ((one op low).cell 0).matrix.mmulAt = 0 ∧
        ((one op low).cell 0).matrix.maccAt = 0) ∧
    (let s := one 0x60 mulLow
     let k := issueOf 0x60 mulLow true
     Issues s 0 0x60 (s.cell 0).matrix.mldwAt k) := by decide

/-- A MOUT of one element as FP32; with bit 72 it traps. -/
def overflowing : State :=
  demo { cellOf [insn 0x63 (2 ^ 72)] with matrix := { MatrixUnit.init with winStatus := 2 } } id

theorem test_mout_witness :
    Issues (one 0x63 0) 0 0x63 ((one 0x63 0).cell 0).matrix.moutAt (issueOf 0x63 0 true) ∧ settled (one 0x63 0) 0 = true ∧
    moTrap (insn 0x63 0) = false ∧ Issues overflowing 0 0x63 0 (issueOf 0x63 (2 ^ 72) true) ∧
    moTrap (insn 0x63 (2 ^ 72)) = true ∧ bit (overflowing.cell 0).matrix.winStatus 1 = true ∧
    (overflowing.part 0).fault = none := by decide

theorem test_manch_witness :
    ∀ low ∈ [0, 2 ^ 89, 2 * 2 ^ 89, 2 ^ 87, 2 * 2 ^ 87],
      Issues (one 0x64 low) 0 0x64 ((one 0x64 low).cell 0).matrix.manchFree (issueOf 0x64 low true) := by decide

/-- A MMUL of fc 9 that frees the array in fc 12 and is done in fc 28, and a conversion that is ready in fc 12. -/
def op0 : MatrixOp :=
  { (default : MatrixOp) with kind := .mmul, insn := insn 0x61 mulLow, issued := 9, free := 12, done := 28, live := true }
def conv0 : Conversion := { (default : Conversion) with ready := 12, entry := some default }
def matrixOf (tiles : Nat) : State :=
  demo { cellOf [] with matrix := { MatrixUnit.init with
    ops := [op0], conv := [conv0], tiles := List.replicate tiles default } } id

theorem test_matrix_ends_witness :
    firstOp ((matrixOf 3).cell 0).matrix.ops = some op0 ∧ CellReaches (matrixOf 3) 0 0 op0.done ∧
    (firstOp (((matrixOf 3).cell 0).matrixTo op0.free).matrix.ops).map (·.abort) = some none ∧
    (let r := tier0Error 0 true (some { word := 0, bad := true }) (matrixOf 3)
     (firstOp ((r.cell 0).matrixTo op0.free).matrix.ops).map (fun q => q.abort.map (·.2)) = some (some 0x204) ∧
       firstOp (r.cell 0).matrix.ops = some op0 ∧ (∀ f ∈ [10, 11, 12], CellReaches r 0 0 f)) ∧
    ((matrixOf 3).cell 0).matrix.conv = [conv0] ∧ CellReaches (matrixOf 3) 0 0 (conv0.ready - 1) ∧
    ((matrixOf 3).cell 0).matrix.tiles.length < 4 ∧ 4 ≤ ((matrixOf 4).cell 0).matrix.tiles.length ∧
    ((matrixOf 4).part 0).fault = none := by decide +kernel

/-- A configuration load that ends in fc 12. -/
def load0 : VcfgLoad := { issued := 4, addr := 0, live := true, got := [] }
def loading : State := demo { cellOf [] with vector := { VectorUnit.init with load := some load0 } } id

theorem test_vector_config_witness :
    Issues (one 0x80 0) 0 0x80 ((one 0x80 0).cell 0).vector.loadFree (issueOf 0x80 0 true) ∧
    Issues (one 0x80 (0x2FF8 * 2 ^ 77)) 0 0x80 0 (issueOf 0x80 (0x2FF8 * 2 ^ 77) true) ∧
    ((one 0x80 0).cell 0).vector.load = none ∧ (loading.cell 0).vector.load = some load0 ∧
    CellReaches loading 0 0 (load0.issued + 7) ∧ (loading.cell 0).wroteFc < load0.issued ∧
    (∀ low ∈ [0, 2 ^ 89, 2 * 2 ^ 89], Issues (one 0x83 low) 0 0x83 ((one 0x83 low).cell 0).vector.runFree (issueOf 0x83 low true)) ∧
    ((one 0x83 0).cell 0).vector.run = none := by decide +kernel

/-- A pass without elements that ends in fc 12, with or without a fault that it met in fc 11, and a cell whose tile queue has one
entry. -/
def run0 (abort : Option (Nat × Nat)) : VectorRun :=
  { (default : VectorRun) with done := 12, live := true, pos := { PassState.init 0 with abort := abort } }
def running (abort : Option (Nat × Nat)) : State :=
  demo { cellOf [] with vector := { VectorUnit.init with run := some (run0 abort) } } id
def tiled : State :=
  demo { cellOf [insn 0x82 0] with matrix := { MatrixUnit.init with tiles := [{ (default : TileEntry) with rows := 1, cols := 1 }] } } id

theorem test_vector_runs_witness :
    chainIdle (one 0x81 0) 0 = true ∧ chainRegsHere (one 0x81 0) 0 = true ∧
    Issues (one 0x81 0) 0 0x81 (chainFreeFrom (one 0x81 0) 0) (issueOf 0x81 0 true) ∧
    chainIdle tiled 0 = true ∧ chainRegsHere tiled 0 = true ∧ (tiled.cell 0).matrix.tiles.length = 1 ∧
    Issues tiled 0 0x82 (max 0 (chainFreeFrom tiled 0)) (issueOf 0x82 0 true) ∧
    (∀ a ∈ [none, some (11, 0x205)],
      ((running a).cell 0).vector.run = some (run0 a) ∧ CellReaches (running a) 0 0 11 ∧
      (((running a).cell 0).passUntil 11 12).vector.run.map (·.pos.abort) = some a ∧ ((running a).part 0).fault = none) := by
  decide +kernel

/-- A token of a length on its way out of cell 0 to the north. -/
def out0 (len : Nat) : Outgoing := { fold := 0, route := 0, issued := 9, tok := { (default : Token) with len := len } }

/-- A flit that reaches cell 1 from the south in fc 12, under a route-table byte. -/
def flit0 : Flit := { dest := 0, toEngine := false, due := 12, side := 2, lane := 0, bridge := false, body := .token default }
def meshed (byte : Nat) : State :=
  demo { cellOf [] with folds := [(0, { Fold.init with fwd := BitVec.ofNat 128 (byte * 2 ^ 64) })] } (fun x => { x with flits := [flit0] })

theorem test_mesh_witness :
    (∀ n ∈ [48, 49], firstOut [out0 n] = some (out0 n) ∧ (out0 n).due = 12) ∧
    (crossLink 0 (routeOut 0) 12 .tokenFirst).isSome = true ∧ (crossLink 0 (routeOut 0) 16 .tokenFirst).isSome = true ∧
    CellReaches (demo { cellOf [] with outbox := [out0 49] } id) 0 0 12 ∧
    (inPart (countLink (reach (meshed 132) 0 12) (cellDie 0) .good) 0 0 = true) ∧
    (∀ b ∈ [0, 128, 132, 133],
      firstFlit ((meshed b).part 0).flits = some flit0 ∧ PartReaches (meshed b) 0 12 ∧
        inPart (reach (meshed b) 0 12) 0 0 = true ∧ fwdByte (((meshed b).cell 0).fold ((meshed b).cell 0).cur) 8 = b) ∧
    (crossLink 0 0 12 (.token default)).isSome = true ∧ ((meshed 0).part 0).fault = none ∧
    CellReaches (demo { cellOf [] with loopback := [(12, default)] } id) 0 0 12 ∧
    (crossLink 24 3 0 .tokenFirst).isSome = true := by decide

/-- A token of tag 9 in port 0's queue since fc 11; with slots taken by other tags. -/
def queued0 : Token := { (default : Token) with tag := 9 }
def matching (slots : Nat) : State :=
  demo { cellOf [] with
    queues := [[{ tok := queued0, entered := 11 }], [], [], []],
    slots := (List.range slots).map (fun n => (n, { fold := 0, tag := BitVec.ofNat 16 (20 + n), ops := [none, none, none, none],
                                                    complete := none, firing := false })) } id

theorem test_match_witness :
    ((matching 0).cell 0).matchAt = some 12 ∧ CellReaches (matching 0) 0 0 12 ∧
    ((matching 0).cell 0).headAt 12 0 = some (queued0, []) ∧ ((matching 0).cell 0).overflow 12 0 = none ∧
    ((matching 0).cell 0).findSlot 0 9 = none ∧ (((matching 0).cell 0).fold 0).opMask.getLsbD 0 = true ∧
    ((matching 0).cell 0).freeSlot 12 = some 0 ∧
    tagArc (queued0.tag :: { (matching 0).cell 0 with queues := setNth ((matching 0).cell 0).queues 0 [] }.tags 12) = true ∧
    ((matching 8).cell 0).freeSlot 12 = none ∧ ((matching 8).cell 0).findSlot 0 9 = none ∧ ((matching 8).part 0).fault = none := by
  decide

/-- A cell with no firing: its fold has an empty mask, or a complete slot. -/
def idleCell (empty : Bool) : State :=
  demo { cellOf [insn 0 0] with
    firing := none, dwellFrom := 10,
    folds := [(0, { Fold.init with instrs := [insn 0 0], opMask := if empty then 0 else 1 })],
    slots := [(1, { fold := 0, tag := 7, ops := [some default, none, none, none], complete := some 1, firing := false })] } id

theorem test_select_witness :
    (∀ b ∈ [true, false], ((idleCell b).cell 0).firing = none ∧ ((idleCell b).cell 0).switching = none ∧
      ((idleCell b).cell 0).sched ≠ [] ∧ ((idleCell b).cell 0).emptyMask = b) ∧
    CellReaches (idleCell true) 0 0 ((idleCell true).cell 0).dwellFrom ∧
    ((idleCell false).cell 0).selectAt = some (10, 1) ∧ 10 < ((idleCell false).cell 0).dwellEnd ∧
    CellReaches (idleCell false) 0 0 10 := by decide

/-- Two schedule entries of 4 fc; the second of fold `f`. -/
def schedule (f : Nat) (switching : Option Nat) : State :=
  demo { cellOf [] with
    sched := [4, BitVec.ofNat 32 (f * 2 ^ 29 + 2 ^ 28 + 4)], dwellFrom := 8, switching := switching,
    folds := [(0, Fold.init), (1, { Fold.init with susp := some { firing0 with fold := 1 } })] } id

theorem test_schedule_witness :
    (∀ f ∈ [0, 1], ((schedule f none).cell 0).sched ≠ [] ∧ CellReaches (schedule f none) 0 0 ((schedule f none).cell 0).dwellEnd ∧
      bits (nth 0 ((schedule f none).cell 0).sched ((schedule f none).cell 0).nextPos) 31 29 = f) ∧
    ((schedule 0 none).cell 0).cur = 0 ∧ ((schedule 1 (some 12)).cell 0).switching = some 12 ∧
    CellReaches (schedule 1 (some 12)) 0 0 12 ∧
    ((after (exec (.foldSwitchDone 0) (schedule 1 (some 12)))).map (fun t => (t.cell 0).cur)) = some 1 := by decide

/-! ### Witnesses: the edge stream engines -/

/-- An entry of one word in object 3 of tier 1, in lane 1, flow 6, released from fc 12 with 4 fc ahead. -/
def edgeEntry : BitVec 1024 :=
  BitVec.ofNat 1024 (descBits * 2 ^ 512 + 3 * 2 ^ 444 + 2 ^ 442 + 2 ^ 437 + 6 * 2 ^ 428 + 12 * 2 ^ 388 + 4 * 2 ^ 364)

/-- A live object. -/
def object0 : Obj := { (default : Obj) with nplots := 1, allow := 3, home := 1 }

/-- A plot of object 3 in frame 5 of tier 1. -/
def plot0 : Plot := { (default : Plot) with obj := 3, cur := 1, has1 := true, t1frame := 5 }

/-- Partition 0 with object 3 at virtual plot 0. -/
def stored (s : State) : State := { s with objects := [(3, object0)], plots := [(0, plot0)] }

/-- Engine 0 of a busy partition. -/
def engineOf (x : Engine) : State := { stored (busy id) with engines := [(0, x)] }

def engine0 : Engine := { (default : Engine) with ingress := [edgeEntry], egress := [edgeEntry] }

/-- A word of entry 0 in the release buffer. -/
def buffered (data : Option (List Byte)) : RelWord := { entry := 0, index := 0, release := 17, data := data, mark := none }

theorem test_ingress_witness :
    isEngine 0 = true ∧ partOfEngine (engineOf engine0) 0 = some 0 ∧ ((engineOf engine0).engine 0).nextFetch = some (17, 0, 0) ∧
    derivedRun (engineOf engine0) = true ∧ fetchGranted (engineOf engine0) 0 0 edgeEntry 0 = true ∧
    engineRuns (engineOf engine0) 0 = true ∧ fetchAllowed (engineOf engine0) 0 edgeEntry 0 = true ∧
    reachable (engineOf engine0) 0 (fetchStart edgeEntry) = true ∧ fetchStart edgeEntry = 8 ∧
    List.find? (fun b => b.data.isNone) [buffered none] = some (buffered none) ∧
    wordFetch (engineOf engine0) 0 edgeEntry 0 .good = (none, List.replicate 64 0) := by decide +kernel

theorem test_release_witness :
    ((engineOf engine0).engine 0).nextRelease = some (13, 0, .head 1 1) ∧ reachable (engineOf engine0) 0 13 = true ∧
    ((engineOf { engine0 with released := [(0, 1)] }).engine 0).nextRelease = some (17, 0, .word 1 0) ∧
    List.find? (fun b => b.entry == 0 && b.index == 0) [buffered (some [])] = some (buffered (some [])) ∧
    ((engineOf engine0).part 0).fault = none := by decide +kernel

/-- Engine 0 with a delivered flit and with its entry's flow selected. -/
def egressOf (b : FlitBody) : State := engineOf { engine0 with inbox := [arrived b], selected := [(4, 0, 1)] }

theorem test_egress_witness :
    (let t : Token := { (default : Token) with flow := 6, aux := 64 }
     takeFlit isHead ((egressOf (.flowHead t 0)).engine 0).inbox = some (arrived (.flowHead t 0), []) ∧
     ((egressOf (.flowHead t 0)).engine 0).egressFor 6 = some 0 ∧ reachable (egressOf (.flowHead t 0)) 0 12 = true) ∧
    (let s := egressOf (.flowData [1])
     takeFlit isData (s.engine 0).inbox = some (arrived (.flowData [1]), []) ∧ (s.engine 0).selected.find? 4 = some (0, 1) ∧
     ((s.engine 0).inbox.takeWhile (fun y => !isData y.body)).any (fun y => y.key == 4 && isHead y.body) = false ∧
     reachable s 0 12 = true ∧ egressCode s 0 (s.engine 0) edgeEntry 0 = none ∧ egressCode s 0 (s.engine 0) edgeEntry 64 = some 1 ∧
     (s.part 0).fault = none) ∧
    (let s := engineOf { engine0 with outfall := [{ entry := 0, addr := 64, bytes := [1] }] }
     (s.engine 0).outfall ≠ [] ∧ bit s.breach 7 = false ∧ grantedOn s 0 0 true [(64, 1)] = true ∧ derivedRun s = true ∧
     engineRuns s 0 = true ∧ bit { s with breach := 129 }.breach 7 = true) := by
  decide +kernel

/-! ### Witnesses: jobs, queues, pre-emption, the enable -/

/-- The block accepts, partition 0 exists and is changed by a function, and physical function 0 of port A holds SEM(8). -/
def serve (f : Part → Part) : State :=
  let s := stored (base f)
  { s with boot := { s.boot with devState := 2 }, sems := [(8, { owner := 0x1000, until_ := 1000 })],
           counter := { s.counter with gt := 7 } }

/-- A descriptor of version 1 for image 3, with a limit of 100 fc, that asks for no launch count. -/
def desc0 : BitVec 1024 := BitVec.ofNat 1024 (100 * 2 ^ 320 + 3 * 2 ^ 176 + 2 ^ 144)

/-- Queue 2 of port A's physical function, with AUTOPRE clear, and one descriptor in it. -/
def queueOf (d : BitVec 1024) (n : Nat) (x : Part) : Part :=
  setRingNat { x with queues := [(2, { cfg := 0x8080000000000000, head := 0, tail := n, byKeepers := [] })] } (sqOfs 2) d.toNat 16

/-- An accepted image in object 3. -/
def image3 : Image := { (default : Image) with handle := 3, whole := true, digest := List.replicate 32 0 }

/-- READY with image 3. -/
def ready (x : Part) : Part := { x with state := .ready, ctlImage := 3, enable := true, image := some image3 }

theorem test_queue_witness :
    let s := serve (fun x => queueOf desc0 1 (ready x))
    derivedRun s = true ∧ isRequester 0x1000 = true ∧ isPart 0 = true ∧ reachesPart s 0x1000 0 = true ∧ shapeOf s 0 ≠ 0 ∧
      ownsQueue s 0x1000 0 2 = true ∧
      ((s.part 0).sq 2).held + (5 % 256 + 256 - ((s.part 0).sq 2).tail) % 256 ≤ 255 ∧ ((s.part 0).sq 2).enabled = true ∧
      s.boot.devState = 2 ∧ ((s.part 0).sq 2).held ≠ 0 ∧ ownsQueue s 0x1001 0 2 = false ∧ reachesPart s 0x1001 0 = true ∧
      ((s.part 0).sq 1).enabled = false ∧ reachesPart s 0x1003 0 = false ∧ mayGuard s 0x1000 0 = true ∧ mayGuard s 0x2000 0 = false ∧
      ((after (exec (.sqDoorbell 0x1000 0 2 5) s)).map (fun t => ((t.part 0).sq 2).tail)) = some 5 := by decide +kernel

theorem test_take_witness :
    (let s := serve (fun x => queueOf desc0 1 (ready x))
     derivedRun s = true ∧ mayTake s 0 = true ∧ takeQueue s 0 = some 2 ∧ headDesc (s.part 0) 2 = desc0 ∧ takeCode s 0 2 desc0 = 0 ∧
      (s.part 0).late = [] ∧ queueBusy (s.part 0) 2 = false ∧ recordOwner s 0 2 ≠ keeperOwner ∧
      takeQueue (serve ready) 0 = none ∧ mayTake (serve (fun x => { x with state := .busy })) 0 = false) ∧
    (let s := serve (queueOf desc0 1)
     mayTake s 0 = true ∧ takeQueue s 0 = some 2 ∧ takeCode s 0 2 desc0 = 0x0402 ∧
      takeCode s 0 2 (BitVec.ofNat 1024 0) = 0x0401) ∧
    (let s := odSet (serve ready) 0x1A00 0x01 0 1
     serving s 0 = true ∧ headByKeepers (s.part 0) 2 = false ∧ takeCode s 0 2 desc0 = 0x0405) ∧
    takeCode (serve ready) 0 2 (desc0 ||| BitVec.ofNat 1024 (5 * 2 ^ 384)) = 0x0404 := by decide +kernel

theorem test_launch_witness :
    let s := serve (fun x => { queueOf desc0 1 (ready x) with prepared := some (2, desc0) })
    (s.part 0).prepared = some (2, desc0) ∧ (s.part 0).image = some image3 ∧ (s.part 0).state = .ready ∧
      (s.part 0).restoring = false ∧ (s.part 0).recheck = false ∧ clocksRun s = true ∧ descLaunch desc0 = 0 ∧
      s.clocks.edge = 0 ∧ planObject s 0 = none ∧ (strictJob s 0 desc0 = true → ndSummary (s.part 0) = 0) ∧
      partBlocked s 0 = false ∧ commitDue s 0 = false ∧ torusCode s 0 = 0 := by decide +kernel

/-- The launched job of `desc0`. -/
def job0 : Job := { (default : Job) with desc := desc0, owner := 0x1000, queue := 2 }

/-- BUSY with `job0`, with nothing left to do in the fabric. -/
def busied (x : Part) : Part := { ready x with state := .busy, first := true, fc := 10, job := some job0 }

theorem test_end_witness :
    (let s := serve busied
     derivedRun s = true ∧ (s.part 0).job = some job0 ∧ (s.part 0).fault = none ∧ jobRuns (s.part 0) = true ∧ (s.part 0).hold = none ∧
      quiescent s 0 = true ∧ reachable s 0 (quiescentAt s 0) = true ∧ strandedSlot (reach s 0 (quiescentAt s 0)) 0 = none ∧
      (s.part 0).disabling = false ∧ (s.part 0).recheck = false ∧ (s.part 0).drained = none ∧ (s.part 0).late = [] ∧
      job0.owner ≠ keeperOwner) ∧
    (let s := serve (fun x => { busied x with fault := some default })
     (s.part 0).fault = some default ∧ outfallEmpty s 0 = true) := by decide +kernel

theorem test_limit_and_restore_witness :
    (let s := serve busied
     (s.part 0).job = some job0 ∧ (s.part 0).fault = none ∧ descLimit job0.desc ≠ 0 ∧ (s.part 0).fc < descLimit job0.desc ∧ reachable s 0 (descLimit job0.desc - 1) = true ∧
      ((after (exec (.fcLimitReached 0) s)).map (fun t => (t.part 0).fc)) = some 99) ∧
    (let s := serve (fun x => { ready x with state := .filling, restoring := true })
     (s.part 0).restoring = true ∧ (s.part 0).image = some image3 ∧ (s.part 0).state = .filling ∧
      (s.part 0).disabling = false ∧ derivedRun s = true) := by decide +kernel

/-- A request for a freeze at a cheap point since fc 10. -/
def wish : Preempt := { cheap := true, since := 10, expired := false }

theorem test_preempt_witness :
    let s := serve (fun x => { busied x with preempt := some wish })
    derivedRun s = true ∧ (s.part 0).preempt = some wish ∧ jobRuns (s.part 0) = true ∧ (s.part 0).fault = none ∧
      quiescent (s.setCell 0 (cellOf [])) 0 = false ∧ allCheap s 0 = true ∧ wish.cheap = true ∧ wish.expired = false ∧
      reachable s 0 (wish.since + odForce s 0x2000 0x04 0 + 1) = true ∧ mayGuard s 0x1000 0 = true ∧
      (1#64).getLsbD 0 = true := by decide +kernel

/-- A job drained at fc 10. -/
def drained0 : Drained := { (default : Drained) with job := job0, fc := 10 }

theorem test_drain_witness :
    (let s := serve (fun x => { busied x with state := .draining, freezing := some { fc := 10, cheap := false } })
     (s.part 0).job = some job0 ∧ (s.part 0).freezing.isSome = true ∧ (s.part 0).state = .draining ∧ (s.part 0).fault = none ∧
      outfallEmpty s 0 = true) ∧
    (let s := serve (fun x => { ready x with drained := some drained0 })
     (s.part 0).drained = some drained0 ∧ (s.part 0).image = some image3 ∧ mayRefill s 0 = true ∧ drained0.discard = false ∧
      drained0.overtaken = false) ∧
    (let s := serve (fun x => { busied x with refilling := true })
     (s.part 0).state = .busy ∧ (s.part 0).refilling = true ∧ (s.part 0).fault = none ∧ clocksRun s = true ∧
      (s.part 0).first = true ∧ (s.part 0).freezing = none ∧ bit s.breach 7 = false) := by decide +kernel

theorem test_stop_ack_witness :
    (∀ b, let s := serve (fun x => { ready x with state := .halted, stopped := b })
      derivedRun s = true ∧ (s.part 0).state = .halted ∧ (s.part 0).stopped = b ∧ (s.part 0).restoring = false ∧
        (s.part 0).serving.step = none ∧ mayGuard s 0x1000 0 = true) ∧
    (∀ b, let s := serve (fun x => { ready x with state := .halted, disabling := b })
      mayGuard s 0x1000 0 = true ∧ (s.part 0).disabling = b) ∧ ((serve ready).part 0).state ≠ .halted := by decide +kernel

theorem test_enable_witness :
    ∀ st ∈ [PState.off, .loading, .checking, .filling, .ready, .refused, .busy, .draining, .halted],
      let s := serve (fun x => { ready x with state := st })
      isRequester 0x1000 = true ∧ isPart 0 = true ∧ mayGuard s 0x1000 0 = true ∧ s.boot.devState = 2 ∧ (s.part 0).state = st := by
  decide +kernel

/-- The bytes that are not zero of an image without cells, engines, references and loads (R158). -/
def imageMem : Mem :=
  { Mem.zero with
    cells := [(0, 0x43), (1, 0x44), (2, 0x4c), (3, 0x49), (4, 0x4d), (5, 0x41), (6, 0x47), (7, 0x45), (10, 1), (13, 0x10),
      (16, 0x10), (17, 1), (89, 0x10), (93, 0x10), (97, 0x10)] }

/-- That image in the frame of object 3. -/
def imaged (f : Part → Part) : State :=
  { serve f with frames := [(frameKey 0 1 5, { Frame.init with mem := imageMem })] }

/-- Reading beyond the bytes that are not zero. -/
theorem imageMem_zeros (n : Nat) : ∀ a, 98 ≤ a → imageMem.readN 0 a n = List.replicate n 0 := by
  induction n with
  | zero => intro a _; rfl
  | succ n ih =>
    intro a h
    have : imageMem.read a = 0 := by
      simp only [imageMem, Mem.zero, Mem.read, Assoc.get, Assoc.find?]
      repeat rw [if_neg (by omega)]
      rfl
    rw [Mem.readN, if_pos rfl, this, ih (a + 1) (by omega), List.replicate_succ]

theorem readN_add (m : Mem) (j k : Nat) : ∀ a, m.readN 0 a (j + k) = m.readN 0 a j ++ m.readN 0 (a + j) k := by
  induction j with
  | zero => intro a; simp [Mem.readN]
  | succ j ih => intro a; rw [Nat.succ_add]; simp [Mem.readN, ih (a + 1), Nat.add_assoc, Nat.add_comm 1 j]

theorem image_bytes : imageMem.readN 0 0 4096 = imageMem.readN 0 0 98 ++ List.replicate 3998 0 := by
  have := readN_add imageMem 98 3998 0
  rwa [imageMem_zeros 3998 (0 + 98) (by omega)] at this

theorem imaged_read (f : Part → Part) : objRead (imaged f) 0 3 0 4096 = imageMem.readN 0 0 4096 := by
  have h : (imaged f).obj 0 3 = some object0 := rfl
  have g : (imaged f).plot 0 0 = some plot0 := rfl
  have k : (imaged f).frame (curFrame 0 plot0) = { Frame.init with mem := imageMem } := rfl
  have c : chunksOf 0 4096 = [(0, 0, 4096)] := by decide
  have d : devRead (imaged f) 0 0 4096 = imageMem.readN 0 0 4096 := by
    unfold devRead
    rw [c, List.flatMap_cons, List.flatMap_nil, List.append_nil]
    simp only [g, k]
    rfl
  have e : min 4096 (object0.nplots * plotBytes - 0) = 4096 := by decide
  have z : 4096 - (object0.nplots * plotBytes - 0) = 0 := by decide
  have o : objAddr object0 0 = 0 := by decide
  unfold objRead
  rw [h]
  simp only [e, z, o, d, List.replicate_zero, List.append_nil]

theorem leNat_zeros (l : List Byte) (n : Nat) : leNat (l ++ List.replicate n 0) = leNat l := by
  induction l with
  | nil => induction n with
    | zero => rfl
    | succ n ih =>
      have h : leNat (List.replicate n 0) = 0 := ih
      show leNat (0 :: List.replicate n 0) = 0
      simp only [leNat, h]
      rfl
  | cons b l ih => rw [List.cons_append, leNat, ih, leNat]

/-- Its header. -/
def image0 : Img := { header := leNat (imageMem.readN 0 0 98), recs := [], engines := [], loads := [] }

theorem imaged_header (f : Part → Part) : leNat (objRead (imaged f) 0 3 0 4096) = image0.header := by
  rw [imaged_read, image_bytes, leNat_zeros]; rfl

theorem readImage_imaged (f : Part → Part) : readImage (imaged f) 0 3 = image0 := by
  have b : objBytes (imaged f) 0 3 = 2097152 := rfl
  have l : imageLength (imaged f) 0 3 = 4096 := by
    unfold imageLength; rw [imaged_header, b]; decide +kernel
  have n : (objRead (imaged f) 0 3 0 4096).length = 4096 := by
    rw [imaged_read, image_bytes, List.length_append, List.length_replicate]; decide +kernel
  have h : leAt (objRead (imaged f) 0 3 0 4096) 0 4096 = image0.header := by
    unfold leAt; rw [List.drop_zero, List.take_of_length_le (by omega), imaged_header]
  have c : hCells image0.header = 0 := by decide +kernel
  have e : hEngines image0.header = 0 := by decide +kernel
  have t : hLoads image0.header = 0 := by decide +kernel
  unfold readImage
  rw [l, show max 4096 4096 = 4096 from rfl]
  unfold parseImage
  simp only [h, c, e, t, Nat.zero_min, parseRecs, wordsAt, List.range_zero, List.map_nil]
  rfl

/-- An image that asks for no FG positions, in a partition without grantees, passes step 14. -/
theorem step14_passes {s : State} {p : Nat} {im : Img} (h1 : hFg1 im.header = 0) (h2 : hFg2 im.header = 0)
    (h3 : starved s p 1 = false ∧ overdrawn s p 1 = false) (h4 : starved s p 2 = false ∧ overdrawn s p 2 = false) :
    step14 s p im = [] := by
  simp [step14, failIf, h1, h2, h3, h4]

theorem firstFail_nil (n : Nat) (l : List (Nat × List Fail)) : firstFail ((n, []) :: l) = firstFail l := rfl

/-- Partition 0 that checks that image, for the first time or again. -/
def checked (b : Bool) : State := imaged (fun x => { ready x with state := .checking, recheck := b })

theorem readImage_checked (b : Bool) : readImage (checked b) 0 3 = image0 := readImage_imaged _

theorem checked_sluices : ∀ b, step14 (checked b) 0 image0 = [] := by
  intro b
  refine step14_passes ?_ ?_ ?_ ?_
  · decide +kernel
  · decide +kernel
  · revert b; decide +kernel
  · revert b; decide +kernel

theorem checked_steps : ∀ b, let s := checked b
    objBytes s 0 3 = 2097152 ∧ shapeOf s 0 = 0x10 ∧ step5 s 0 image0 = [] ∧ step9 s 0 image0 = [] ∧ step10 s 0 image0 = [] ∧
      step11 s 0 3 image0 = [] ∧ step12 s 0 image0 = [] ∧ step13 s 0 image0 = [] ∧ step15 s 0 = [] := by
  decide +kernel

theorem checked_form : step2 image0 2097152 = [] ∧ step3 image0 image3 = [] ∧ step4 image0 0x10 = [] ∧ step6 image0 = [] ∧
    step7 image0 = [] ∧ step8 image0 = [] := by decide +kernel

theorem test_check_witness :
    ∀ b, ((checked b).part 0).image = some image3 ∧ ((checked b).part 0).state = .checking ∧
      ((checked b).part 0).recheck = b ∧ partBlocked (checked b) 0 = false ∧ checkImage (checked b) 0 image3 = none ∧
      recheckImage (checked b) 0 image3 = none := by
  intro b
  obtain ⟨ho, hs, h5, h9, h10, h11, h12, h13, h15⟩ := checked_steps b
  obtain ⟨h2, h3, h4, h6, h7, h8⟩ := checked_form
  refine ⟨rfl, rfl, rfl, rfl, ?_, ?_⟩
  · unfold checkImage
    rw [show image3.handle = 3 from rfl, readImage_checked b, ho, hs]
    simp only [h2, h3, h4, h5, h6, h7, h8, h9, h10, h11, h12, h13, h15, checked_sluices b, firstFail_nil]
    rfl
  · unfold recheckImage
    rw [show image3.handle = 3 from rfl, readImage_checked b, checked_sluices b, h15]
    rfl

theorem test_check_fails_witness :
    let s := serve (fun x => { ready x with state := .checking })
    (checkImage s 0 image3).map (·.1) = some 2 ∧ (s.part 0).image = some image3 ∧ (s.part 0).state = .checking := by
  decide +kernel

theorem test_fill_witness :
    let s := serve (fun x => { ready x with state := .filling })
    (s.part 0).image = some image3 ∧ (s.part 0).state = .filling ∧ (s.part 0).restoring = false ∧
      (fillTier0 0 none (readImage s 0 3).loads s).2 = none := by decide +kernel


/-- The image's bytes with a load list of one entry, the header's first 16 bytes, which names object 1: there is none. -/
def lostMem : Mem :=
  { Mem.zero with
    cells := [(0, 0x43), (1, 0x44), (2, 0x4c), (3, 0x49), (4, 0x4d), (5, 0x41), (6, 0x47), (7, 0x45), (10, 1), (13, 0x10),
      (16, 0x10), (17, 1), (24, 1), (89, 0x10), (93, 0x10)] }

theorem test_fill_lost_witness :
    let s := { serve (fun x => { ready x with state := .filling, drained := some { drained0 with overtaken := true } }) with
      frames := [(frameKey 0 1 5, { Frame.init with mem := lostMem })] }
    (fillTier0 0 none (readImage s 0 3).loads s).2 ≠ none := by
  decide +kernel

/-! ### Witnesses: memory -/

/-- A memory command: OP, object, and lower fields. -/
def command (op obj low : Nat) : BitVec 512 := BitVec.ofNat 512 (op * 2 ^ 504 + obj * 2 ^ 480 + low)

/-- A command at the head of partition 0's ring; partition READY without an image. -/
def ringOf (c : BitVec 512) : State :=
  serve (fun x => setRingNat { x with state := .ready, mc := { x.mc with tail := 1 } } mcOfs c.toNat 8)

/-- One plot with HOME and ALLOWED tier 1. -/
def onePlot : Nat := 2 ^ 400 + 5 * 2 ^ 392

/-- The queue pair 0 of partition 0 on port 0, ready, with 7 retries and packets of 1,024 bytes. -/
def paired (s : State) (q : QueuePair) : State :=
  { odSet s 0x1700 0x10 0 (2 ^ 436 + 3 * 2 ^ 432 + 7 * 2 ^ 423 + 2 ^ 415) with qps := [(0, q)] }

def qp0 : QueuePair := { (default : QueuePair) with state := 1 }

theorem test_ring_witness :
    isRequester 0x1000 = true ∧ reachesPart (ringOf 0) 0x1000 0 = true ∧ shapeOf (ringOf 0) 0 ≠ 0 ∧
    (∀ x ∈ [(command 1 9 0, 0x10), (command 2 9 0, 1), (command 3 9 0, 1), (command 4 9 0, 1), (command 5 9 0, 1),
        (command 7 9 0, 1), (command 6 3 (2 ^ 499), 0x10)],
      let s := ringOf x.1
      mcHead (s.part 0) = some x.1 ∧ mcMayTake s 0 = true ∧ (s.part 0).mc.tail = ((s.part 0).mc.head + 1) % 256 ∧
        (mcReserved x.1 = true ∧ x.2 = 0x10 ∨
          mcReserved x.1 = false ∧ x.2 ≠ 0 ∧
            (mcOp x.1 = 1 ∧ allocRefusal 0 s x.1 = x.2 ∨ mcOp x.1 = 2 ∧ freeWait 0 s x.1 = false ∧ freeRefusal 0 s x.1 = x.2 ∨
              mcOp x.1 = 3 ∧ rangeWait 0 s x.1 = false ∧ moveRefusal 0 s x.1 = x.2 ∨
              mcOp x.1 = 4 ∧ rangeWait 0 s x.1 = false ∧ cleanRefusal 0 s x.1 = x.2 ∨
              mcOp x.1 = 5 ∧ placeCommandRefusal 0 s x.1 = x.2 ∨ mcOp x.1 = 7 ∧ digestCommandRefusal 0 s x.1 = x.2))) := by
  decide +kernel

/-- A plot with a copy in the polder, current there. -/
def plot2 : Plot := { plot0 with cur := 2, has2 := true, has1 := false, t2frame := 5 }

theorem test_commands_witness :
    (∀ x ∈ [(1, 9, onePlot), (2, 3, 0), (3, 3, 2 ^ 400 + 2 ^ 390), (4, 3, 2 ^ 400), (5, 3, 5 * 2 ^ 392), (6, 3, 0),
        (7, 3, 3 * 2 ^ 464)],
      let c := command x.1 x.2.1 x.2.2
      mcHead ((ringOf c).part 0) = some c ∧ mcMayTake (ringOf c) 0 = true ∧ mcReserved c = false) ∧
    (let s := ringOf 0
     freeWait 0 s (command 2 3 0) = false ∧ freeRefusal 0 s (command 2 3 0) = 0 ∧
     rangeWait 0 s (command 4 3 (2 ^ 400)) = false ∧ cleanRefusal 0 s (command 4 3 (2 ^ 400)) = 0 ∧
     placeCommandRefusal 0 s (command 5 3 (5 * 2 ^ 392)) = 0 ∧ digestCommandRefusal 0 s (command 7 3 (3 * 2 ^ 464)) = 0 ∧
     s.obj 0 3 = some object0) := by decide +kernel

theorem test_move_witness :
    let c := command 3 3 (2 ^ 400 + 2 ^ 390)
    let s := { ringOf c with plots := [(0, plot2)] }
    rangeWait 0 s c = false ∧ moveRefusal 0 s c = 0 ∧ objAny s 0 3 = some object0 ∧ 0 ∈ rangePlots object0 c ∧
      s.plotEntry 0 0 = some plot2 ∧ plot2.cur.toNat ≠ mcTier c ∧ plot2.copy = false := by decide +kernel

theorem test_ingest_witness :
    let c := command 6 3 (3 * 2 ^ 464 + 2 ^ 96)
    let s := paired (ringOf c) qp0
    ingestRefusal 0 s c = 0 ∧ mcLen c ≠ 0 ∧
      s.episodes.any (fun e => e.level == 6 && e.target == 0x5000 + qpPort (qpCtx s (mcQp c))) = false := by decide +kernel

theorem test_alloc_witness : mcOp (command 1 9 onePlot) = 1 ∧ allocRefusal 0 (ringOf (command 1 9 onePlot)) (command 1 9 onePlot) = 0 := by
  decide +kernel

/-- A run of a command, and a partition with runs. -/
def runOf (c : BitVec 512) (o : Option Obj) (todo : List Nat) : McRun :=
  { (default : McRun) with cmd := c, obj := 3, record := o, todo := todo }
def runs (l : List McRun) : State := serve (fun x => { x with state := .ready, mcRuns := l })

theorem test_work_witness :
    (let s := runs [runOf (command 1 3 onePlot) (some object0) [0]]
     findMcRun s 0 (fun r => mcOp r.cmd == 1 && r.todo.contains 0) = some 0 ∧ s.plotEntry 0 0 = some plot0 ∧
       migrates s 0 = true) ∧
    (let x := { plot2 with copy := true, has1 := true }
     let s := { runs [] with plots := [(0, x)] }
     s.plotEntry 0 0 = some x ∧ x.copy = true ∧ x.cancel = false ∧ x.pend = false ∧ migrates s 0 = true ∧ x.t1frame < 2 ^ 20 ∧
       x.t2frame < 2 ^ 20 ∧ (s.frame (curFrame 0 x)).mem.wf = true ∧ (s.frame (curFrame 0 x)).mem.fill = 0 ∧
       (s.frame (frameKey 0 x.other (x.frameIn x.other))).mem.fill = 0 ∧ (s.frame (curFrame 0 x)).poison &&& x.toCopy = 0) ∧
    (let s := runs [runOf (command 4 3 (2 ^ 400)) none [0]]
     findMcRun s 0 (fun r => mcOp r.cmd == 4 && r.todo.contains (0 / plotBytes)) = some 0 ∧
       (s.part 0).mcRuns[0]? = some (runOf (command 4 3 (2 ^ 400)) none [0])) ∧
    (let c := command 7 3 (2 ^ 496 + 3 * 2 ^ 464 + 2 ^ 96)
     let s := runs [runOf c none [0]]
     findMcRun s 0 (fun q => mcOp q.cmd == 7 && q.obj == 3) = some 0 ∧ (s.part 0).mcRuns[0]? = some (runOf c none [0]) ∧
       bit s.breach 7 = false ∧ s.obj 0 3 = some object0 ∧ mcObj c = 3 ∧ mcDmode c = false ∧ mcRoot c = true ∧ mcOffset c = 0 ∧
       mcLen c ≤ leafBytes ∧ (chunksOf (objAddr object0 0) (mcLen c)).all
         (fun ch => !poisoned s 0 (ch.1 * plotBytes + ch.2.1) ch.2.2) = true) := by decide +kernel

theorem test_commit_witness :
    (let s := runs []
     stepBoundary (s.part 0) = true ∧ bit s.breach 7 = false ∧ (s.part 0).serving.requests = [] ∧ (s.part 0).mcRuns = [] ∧
       Assoc.sorted s.objects = true) ∧
    (∀ r ∈ [runOf (command 1 3 onePlot) (some object0) [], runOf (command 2 3 0) none [], runOf (command 5 3 onePlot) none []],
      ((runs [r]).part 0).mcRuns = [r] ∧ expired (runs [r]) 0 = [] ∧ (runs [r]).obj 0 r.obj = some object0 ∧
        object0.leases = 0 ∧ object0.expiring = false ∧ r.todo = []) ∧
    (stepBoundary ((serve busied).part 0) = false ∧ ((serve busied).part 0).serving.requests = []) := by decide +kernel

/-- The BAR4 window of port A's physical function open at partition 0's object space. -/
def windowed (s : State) : State := { s with fns := [(0x1000, { (s.fn 0x1000) with bar4 := BitVec.ofNat 64 (2 ^ 60) })] }

theorem test_device_memory_witness :
    let s := windowed (runs [])
    bit (s.fn 0x1000).bar4 60 = true ∧ bit ((runs []).fn 0x1000).bar4 60 = false ∧ bar4Part s 0x1000 = 0 ∧
      bar4Addr s 0x1000 8 = 8 ∧ 8 % plotBytes + 1 ≤ plotBytes ∧ s.plot 0 (8 / plotBytes) = some plot0 ∧
      s.obj 0 3 = some object0 ∧ objProtected s 0 3 = false ∧ (s.frame (curFrame 0 plot0)).poison = 0 := by decide +kernel

theorem test_upkeep_witness :
    (let s := { runs [] with counter := { (runs []).counter with gt := 100000000 } }
     Assoc.sorted s.objects = true ∧ s.counter.gt % 100000000 = 0 ∧ s.counter.gt ≠ s.ttlGt ∧
       ∀ e ∈ s.objects, e.2.expiring = true ∨ e.2.ttl ≠ 1) ∧
    (isMemChannel 16 = true ∧ (partStacks (runs []) 0).contains (16 - 16) = true ∧ 0 < allFrames (runs []) 0 1 ∧
      channelOf (runs []) 0 1 0 0 = 16 ∧ scrubLast (runs []) 0 1 16 0 0 = false) ∧
    (0 < numChannels (runs []).boot.assembly ∧ od (runs []) 0x5000 0x01 < 2) ∧
    (let k := odKey 0x1600 0x20 0
     let s := { runs [] with inForce := [(k, 0)] }
     stepBoundary (s.part 0) = true ∧ s.inForce.any (fun e => (tableKeys s 0).contains e.1) = true ∧
       enabled (s.part 0) = true) := by decide +kernel

/-- An INGEST of 4,096 bytes into object 3 whose READ has asked for all of them. -/
def ingest0 : IngestRun :=
  { part := 0, cmd := command 6 3 (4096 * 2 ^ 96), asked := 4096, landed := 0, leaf := [], digests := [] }

/-- Window 0 of queue pair 0: 4,096 bytes of object 3 at virtual address 0 under key 5. -/
def windows (s : State) : State :=
  odSet s 0x1700 0x20 0 (2 ^ 255 + 3 * 2 ^ 228 + 5 * 2 ^ 196 + 4096 * 2 ^ 68)

theorem test_remote_witness :
    (let s := paired (runs []) { qp0 with runs := [ingest0] }
     isQp 0 = true ∧ (s.qp 0).runs = [ingest0] ∧ (s.qp 0).state = 1 ∧ packetBytes (qpCtx s 0) ingest0 = 1024 ∧
       bit s.breach 7 = false ∧ ingest0.landed + 1024 < mcLen ingest0.cmd ∧ ingest0.leaf.length + 1024 < leafBytes ∧
       ingest0.landed < ingest0.asked ∧ (s.qp 0).retries < qpRetry (qpCtx s 0) ∧
       qpRetry (qpCtx s 0) ≤ 7 ∧ 0 ∈ portQps s 0 ∧ isPort 0 = true) ∧
    (let s := windows (paired (runs []) qp0)
     lowest (fun w => winHolds (window s w) 0 0 5 64) 0 64 = some 0 ∧ s.obj (winPart (window s 0)) (winObj (window s 0)) = some object0 ∧
       objHeld s (winPart (window s 0)) (winObj (window s 0)) = false ∧
       winOfs (window s 0) + (0 - winBase (window s 0)) + 64 ≤ object0.nplots * plotBytes ∧
       lowest (fun w => winHolds (window s w) 0 0 6 64) 0 64 = none) := by decide +kernel

/-- Commands at the head of a ring are the host's; nothing waits to enter it; and migration and ingest have their slots, and not. -/
theorem test_served_witness :
    derivedRun (runs []) = true ∧ ((ringOf 0).part 0).serving.cmds = [] ∧
      migServed (runs []) 0 plot0.where_.1 = true ∧ copyServed (runs []) 0 = true ∧
      digestServed (runs []) 0 (runOf (command 7 3 (2 ^ 496 + 3 * 2 ^ 464 + 2 ^ 96)) none [0]) = true ∧
      ingestServed (runs []) 0 3 0 1024 = true ∧
      (let k := odKey 0x1600 0x20 0
       let s := odSet { runs [] with inForce := [(k, 1)] } 0x1600 0x14 0 0
       migServed s 0 1 = false ∧ ingestServed s 0 3 0 1024 = false) := by decide +kernel

theorem test_host_command_witness (c : BitVec 512) : headMark ((ringOf c).part 0) c = c := rfl
theorem test_resume_witness : resumeIngests (paired (ringOf 0) qp0) 0 = paired (ringOf 0) qp0 := rfl

/-- A complete copy that no command has, and one that a MOVE awaits. -/
def plotReady : Plot := { plot2 with copy := true, pend := true, has1 := true }

theorem test_copies_witness :
    (let s := { runs [] with plots := [(0, plotReady)] }
     loosePlots s 0 = [0] ∧ expired s 0 = [] ∧ s.plotEntry 0 0 = some plotReady) ∧
    (let r := { runOf (command 3 3 (2 ^ 400)) none [] with awaiting := [0] }
     let s := { runs [r] with plots := [(0, plotReady)] }
     (s.part 0).mcRuns = [r] ∧ loosePlots s 0 = [] ∧ expired s 0 = [] ∧ mcOp r.cmd = 3 ∧ plotReady.ready = true) ∧
    (let s := { ringOf (command 4 3 (2 ^ 400)) with plots := [(0, { plotReady with cur := 1, has2 := true, dirty := 1 })] }
     rangeWait 0 s (command 4 3 (2 ^ 400)) = false ∧ cleanRefusal 0 s (command 4 3 (2 ^ 400)) = 0 ∧
       rangePlots object0 (command 4 3 (2 ^ 400)) = [0]) := by decide +kernel

/-- A bank of the partition's through its open window; an object that is protected; the last granule of a controller; a channel
in service. -/
theorem test_windows_witness :
    windowOk (runs []) 0 (0xC0000 * 2 ^ 32 + 8) = true ∧ windowOpen ((runs []).part 0) = true ∧
    objProtected (serve ready) 0 3 = true ∧ objProtected (runs []) 0 3 = false ∧
    (let s := odSet (serve busied) 0x5000 0x01 0 2
     0 < numChannels s.boot.assembly ∧ od s 0x5000 0x01 = 2 ∧ partOfChannel s 0 = some 0 ∧ (s.part 0).state = .busy ∧
       (s.part 0).fault = none) ∧
    od (odSet (runs []) 0x5000 0x01 0 3) 0x5000 0x01 = 3 := by decide +kernel

theorem test_scrub_end_witness :
    let s := runs []
    let f := allFrames s 0 1 - 1
    f < allFrames s 0 1 ∧ scrubLast s 0 1 (channelOf s 0 1 f (plotBytes - 64)) f (plotBytes - 64) = true := by decide +kernel

/-- A packet for queue pair 0 at port 0, which is up with address 1. -/
def packet (psn : BitVec 24) : RdmaHead := { frame := 1100, dest := 1, qpn := 0x100, ce := false, psn := psn }
def ported (s : State) : State :=
  odSet (odSet s 0x1700 0x01 0 2) 0x1700 0x03 0 (leNat (beBytes 16 1))

theorem test_packet_witness :
    (let s := ported (windows (paired (runs []) { qp0 with runs := [ingest0] }))
     isPort 0 = true ∧ od s 0x1700 0x01 0 = 2 ∧ packetQp s 0 (packet 0) = some 0 ∧ packetQp s 0 { packet 0 with dest := 2 } = none ∧
       (packet 0).psn = (s.qp 0).respPsn ∧ (packet 0).psn = (s.qp 0).recvPsn ∧ (packet 5).psn ≠ (s.qp 0).recvPsn ∧
       waysInUse s 0 256 < ingestLimit s 0 ∧ writePlace s 0 0 6 64 = none ∧ writePlace s 0 0 5 64 = some (0, 3, 0) ∧
       s.clocks.clkMode ≠ 1) ∧
    od (runs []) 0x1700 0x01 0 ≠ 2 := by decide +kernel

/-! ### Witnesses: the serving loop and the prefix engine -/

/-- Partition 0 with its serving loop on. -/
def serveOn (f : Part → Part) : State := odSet (serve f) 0x1A00 0x01 0 1

/-- A serving request for REQ 9. -/
def request (op low : Nat) : BitVec 512 := BitVec.ofNat 512 (op * 2 ^ 504 + 9 * 2 ^ 480 + low)

/-- REQ 9 as it lives: a conversation in object 3 with ten prompt positions. -/
def live0 : Request := { (default : Request) with cust := 2, kobj := 3, prompt := 10, pos := 10, flags := 2 }

/-- A request in the ring, and the live requests. -/
def asking (c : BitVec 512) (l : Assoc Request) : State :=
  serveOn (fun x => setRingNat { x with state := .ready, ctlImage := 7, sr := { x.sr with tail := 1 },
                                        serving := { x.serving with requests := l } } srOfs c.toNat 8)

theorem test_request_witness :
    (∀ x ∈ [(1, 4 * 2 ^ 465), (2, 0), (6, 0), (5, 0), (3, 2 ^ 376), (4, 0)],
      let c := request x.1 x.2
      let s := asking c [(9, live0)]
      derivedRun s = true ∧ objExpiring s 0 (srKobj c) = false ∧ srHead (s.part 0) = some c ∧ srMayTake s 0 = true ∧ srBad c = false ∧ srOp c = x.1 ∧ liveReq s 0 (srReq c) = some live0 ∧
        liveReq (asking c []) 0 (srReq c) = none ∧ live0.leases = [] ∧ live0.inStep = false ∧ live0.kobj < 65536 ∧
        s.obj 0 3 = some object0 ∧ object0.expiring = false ∧ objHeld s 0 3 = false ∧ bit object0.allow 0 = true) ∧
    (let c := request 1 (3 * 2 ^ 448)
     let s := { asking c [] with objects := [(3, { object0 with expiring := true })] }
     srHead (s.part 0) = some c ∧ srBad c = false ∧ srOp c = 1 ∧ liveReq s 0 (srReq c) = none ∧
       objExpiring s 0 (srKobj c) = true) ∧
    srBad (request 1 (2 ^ 64)) = true ∧ reachesPart (asking 0 []) 0x1003 0 = false ∧
    bit (srFlags (request 1 (4 * 2 ^ 465))) 2 = true ∧
    isRequester 0x1000 = true ∧ reachesPart (asking 0 []) 0x1000 0 = true ∧ shapeOf (asking 0 []) 0 ≠ 0 ∧
    ({ live0 with inStep := true } : Request).inStep = true := by decide +kernel

/-- A turn of a PARK or of a RESUME. -/
def turn0 (resume : Bool) : ParkTurn := { resume := resume, ctx := 0, ttl := 0 }

theorem test_turns_witness :
    (∀ resume, let c := request (if resume = true then 4 else 3) (2 ^ 376)
      let s := asking c [(9, live0)]
      derivedRun s = true ∧ srHead (s.part 0) = some c ∧ srMayTake s 0 = true ∧ srBad c = false ∧
        liveReq s 0 (srReq c) = some live0 ∧ live0.turns = [] ∧ live0.turnWaits (turn0 resume) = false ∧
        ({ live0 with parking := 4 } : Request).turnWaits (turn0 resume) = true ∧
        ({ live0 with inStep := true } : Request).turnWaits (turn0 false) = true) ∧
    (let s := asking 0 [(9, live0)]
     (s.part 0).serving.cmds = [] ∧ ringFull (s.part 0).mc 256 = false ∧ (s.part 0).mc.tail < 256) := by
  decide +kernel

theorem test_parking_witness :
    (let r := { live0 with parking := 2 }
     let s := asking 0 [(9, r)]
     liveReq s 0 9 = some r ∧ s.obj 0 r.kobj = some object0 ∧ object0.leases = 0 ∧ r.status = 0 ∧
       keeperBusy s 0 5 (r.keeperCtx false) = false) ∧
    (∀ n, let r := { live0 with parking := 5, status := n }
     liveReq (asking 0 [(9, r)]) 0 9 = some r ∧ r.status = n ∧
       keeperBusy (asking 0 [(9, r)]) 0 3 (r.keeperCtx true) = false) := by
  refine ⟨by decide +kernel, fun n => ⟨rfl, rfl, rfl⟩⟩

/-- REQ 9 waits for a step that decodes; its customer's budget is 5 of 100, valid in partition 0. -/
def admissible : State :=
  let s := odSet (odSet (asking 0 [(9, live0)]) 0x1A00 0x06 1 7) 0x1A00 0x02 0 8
  odSet s 0x1A10 0x01 2 (5 * 2 ^ 96 + 100 * 2 ^ 32 + 2 ^ 31 + 1)

theorem test_admit_witness :
    let s := admissible
    derivedRun s = true ∧ srMayTake s 0 = true ∧ (s.part 0).job = none ∧ (s.part 0).prepared = none ∧ (s.part 0).serving.step = none ∧
      ((s.part 0).sq 1).held = 0 ∧ bit s.breach 7 = false ∧ (s.part 0).state = .ready ∧
      (waiting s 0).filter (fun e => stepImage s 0 e.2 == (s.part 0).ctlImage.toNat) = [(9, live0)] ∧
      liveReq s 0 9 = some live0 ∧ live0.tree = false ∧ 0 < od s 0x1A00 0x02 0 ∧
      bdValid (budget s 2) = true ∧ bdMask (budget s 2) 0 = true ∧ bdUnlim (budget s 2) = false ∧ bdCap (budget s 2) ≠ 0 ∧
      1 ≤ refilled (budget s 2) (refillTicks s s.counter.gt) ∧ live0.promptNow ≤ live0.pos := by decide +kernel

/-- A step whose one entry is REQ 9's, with its outcome; its step object 5 holds one result, token 77 at position 11. -/
def step0 (outcome : Option Nat) : ServeStep :=
  { obj := some 5, entries := [{ req := 9, pos := 10, npos := 1, drafts := 0, prefill := false, cancelled := false }],
    len := 0, seed := 0, digest := [], results := 0, retry := true, outcome := outcome }
def stepped (n : Nat) : State :=
  let s := serveOn (fun x => { x with state := .ready, serving := { x.serving with
    requests := [(9, { live0 with inStep := true })], step := some (step0 (some n)) } })
  { s with objects := [(3, object0), (5, { object0 with vbase := 1 })],
           plots := [(0, plot0), (1, { plot0 with obj := 5, t1frame := 6 })],
           frames := [(frameKey 0 1 6, { Frame.init with mem := { Mem.zero with
             cells := [(0, 1), (20, 77), (26, 0xB0), (29, 9)] } })] }

theorem test_complete_witness :
    (∀ n ∈ [0, 1, 3, 5, stAbort],
      ((stepped n).part 0).serving.step = some (step0 (some n)) ∧ (step0 (some n)).retry = true ∧
        derivedRun (stepped n) = true ∧ (∀ e ∈ ((stepped n).part 0).serving.requests, e.2.turns = []) ∧ (∀ e ∈ (step0 (some n)).entries, e.cancelled = false)) ∧
    stAbort ≠ 0 ∧ stAbort ≠ 1 ∧ stAbort ≠ 5 ∧
    (let s := stepped 0
     let k := step0 (some 0)
     let tag := 9 * 2 ^ 40 + 11 * 2 ^ 20
     k.entries.any (fun e => e.prefill) = false ∧ k.entries.any (fun e => e.req == tag / 2 ^ 40) = true ∧
       k.entries.any (fun e => e.req == tag / 2 ^ 40 && e.cancelled) = false ∧ (∀ e ∈ k.entries, e.req = tag / 2 ^ 40) ∧
       stepResults s 0 5 k.results = [(tag, 77)] ∧ liveReq s 0 9 = some { live0 with inStep := true } ∧
       live0.turns = [] ∧ live0.pos < 1048576 ∧ tag / 2 ^ 20 % 2 ^ 20 ≠ 1048575 ∧ live0.noInsert = true ∧ tag % 2 = 0 ∧ live0.left = none ∧ s.obj 0 3 = some object0 ∧
       4 * 11 + 4 ≤ object0.nplots * plotBytes ∧ s.plot 0 (objAddr object0 44 / plotBytes) = some plot0 ∧
       (s.frame (curFrame 0 plot0)).poison = 0) := by decide +kernel

/-- The prefix table: object 4 at virtual plots 1 to 16. -/
def table0 : Obj := { object0 with vbase := 1, nplots := 16, pin := true }

/-- Partition 0 with a prefix table in some plots and frames. -/
def prefixed (plots : Assoc Plot) (frames : Assoc Frame) : State :=
  { odSet (serve id) 0x1A20 0x01 0 4 with objects := [(3, object0), (4, table0)], plots := plots, frames := frames }

/-- A prefix command on one block of object 3. -/
def pcommand (op low : Nat) : BitVec 512 := BitVec.ofNat 512 (op * 2 ^ 504 + 3 * 2 ^ 480 + low)

/-- The hash of a block of zeros after namespace 0, from SHA-256. -/
def zeroHash : Nat := 7498898172952623172

/-- The table's frame with that block of object 3 in the first entry of its set. -/
def tableFrame : Assoc Frame :=
  let o := 256 * (zeroHash % 2 ^ 17) % plotBytes
  [(frameKey 0 1 7, { Frame.init with mem := Mem.zero.writeN 0 o (leBytes 32 (zeroHash * 2 ^ 192 + 3 * 2 ^ 176 + 2 ^ 161)) })]

theorem test_prefix_witness :
    (∀ op ∈ [1, 2, 3, 4, 5], pcBad (pcommand op 0) = false ∧ pcOp (pcommand op 0) = op ∧ pcBad (pcommand op (2 ^ 64)) = true) ∧
    pcOp (pcommand 2 0) ≠ 1 ∧ prefixTable (serve id) 0 = none ∧ derivedRun (prefixed [] []) = true ∧
    (let s := { prefixed [] [] with objects := [(3, { object0 with expiring := true }), (4, table0)] }
     prefixTable s 0 = some 4 ∧ namesExpiring s 0 (pcommand 1 0) = true) ∧ namesExpiring (prefixed [] []) 0 (pcommand 1 0) = false ∧
    (let s := prefixed [] []
     prefixTable s 0 = some 4 ∧ s.obj 0 (pcObj (pcommand 5 0)) = some object0 ∧ object0.expiring = false ∧
       pcBlocks (pcommand 2 0) = 1 ∧ pcLease (pcommand 2 0) = false) := by decide +kernel

theorem zero_hash : blockHash 0 (List.replicate 256 0) = zeroHash := by decide +kernel

theorem zero_tokens (ps : Assoc Plot) (fs : Assoc Frame) (h : ps.find? 0 = none) :
    blockTokens (prefixed ps fs) 0 3 0 = List.replicate 256 0 := by
  have g : (prefixed ps fs).plot 0 0 = none := by
    show (Option.filter _ (ps.find? 0)) = none
    rw [h]; rfl
  have e : chunksOf (objAddr object0 (256 * 0)) (min 256 (object0.nplots * plotBytes - 256 * 0)) = [(0, 0, 256)] := by decide
  show devRead (prefixed ps fs) 0 (objAddr object0 (256 * 0)) (min 256 (object0.nplots * plotBytes - 256 * 0)) ++
    List.replicate (256 - (object0.nplots * plotBytes - 256 * 0)) 0 = _
  rw [show 256 - (object0.nplots * plotBytes - 256 * 0) = 0 by decide]
  unfold devRead
  rw [e]
  simp only [List.flatMap_cons, List.flatMap_nil, g, List.append_nil, List.replicate_zero]

theorem test_prefix_find_witness :
    (let s := prefixed [] []
     let h := blockHash 0 (blockTokens s 0 3 0)
     prefixFind s 0 4 h = none ∧
       List.find? (fun i => !pfValid (prefixEntry s 0 4 i)) (prefixSet h) = some (8 * (zeroHash % 2 ^ 17))) ∧
    (let v := 1 + 256 * (zeroHash % 2 ^ 17) / plotBytes
     let s := prefixed [(v, { plot0 with obj := 4, t1frame := 7 })] tableFrame
     let h := blockHash 0 (blockTokens s 0 3 0)
     prefixFind s 0 4 h = some (8 * (zeroHash % 2 ^ 17)) ∧
       (let e := prefixEntry s 0 4 (8 * (zeroHash % 2 ^ 17))
        inPolder s 0 (pfObj e) (256 * pfBlock e) 256 = false ∧ pfObj e = 3 ∧ pfBlock e = 0)) := by
  have a := zero_tokens [] [] rfl
  have b := zero_tokens [(1 + 256 * (zeroHash % 2 ^ 17) / plotBytes, { plot0 with obj := 4, t1frame := 7 })] tableFrame
    (by decide +kernel)
  refine ⟨?_, ?_⟩
  · intro s h
    have : h = zeroHash := by show blockHash 0 (blockTokens _ 0 3 0) = _; rw [a]; exact zero_hash
    rw [this]; decide +kernel
  · intro v s h
    have : h = zeroHash := by show blockHash 0 (blockTokens _ 0 3 0) = _; rw [b]; exact zero_hash
    rw [this]; decide +kernel

/-- With no plots and no entries the whole table reads as zero. -/
theorem test_inval_witness (i : Nat) :
    (pfValid (prefixEntry (prefixed [] []) 0 4 i) && pfObj (prefixEntry (prefixed [] []) 0 4 i) == pcObj (pcommand 4 0)) = false := by
  have z : ∀ l : List Byte, (∀ x ∈ l, x = 0) → leNat l = 0 := by
    intro l
    induction l with
    | nil => intro _; rfl
    | cons b l ih =>
      intro h
      rw [leNat, h b (by simp), ih (fun x hx => h x (by simp [hx]))]; rfl
  have e : prefixEntry (prefixed [] []) 0 4 i = 0 := by
    unfold prefixEntry
    apply z
    intro x hx
    have ho : (prefixed [] []).obj 0 4 = some table0 := rfl
    have hp : ∀ v, (prefixed [] []).plot 0 v = none := by
      intro v; unfold State.plot State.plotEntry; split <;> rfl
    unfold objRead at hx
    rw [ho] at hx
    simp only [devRead, hp, List.mem_append, List.mem_flatMap, List.mem_replicate] at hx
    rcases hx with ⟨_, _, _, h⟩ | ⟨_, h⟩ <;> exact h
  rw [e]; decide

/-! ### Witnesses: further cases of jobs -/

/-- A slot that no operand has completed; a launch whose time has passed, and one that a commit precedes; a job that asks for
strictness; and a serving step whose task abort waits for its acknowledgement. -/
theorem test_further_jobs_witness :
    (let x := { Cell.init with record := true, slots := [(1, { fold := 0, tag := 7, ops := [none, none, none, none], complete := none,
                                                                firing := false })] }
     let s := (serve busied).setCell 0 x
     quiescent s 0 = true ∧ reachable s 0 (quiescentAt s 0) = true ∧ strandedSlot (reach s 0 (quiescentAt s 0)) 0 ≠ none) ∧
    (let d := desc0 ||| BitVec.ofNat 1024 (5 * 2 ^ 384)
     descLaunch d ≠ 0 ∧ descLaunch d + 1 < (serve ready).counter.gt) ∧
    commitDue (serve (fun x => { ready x with mcRuns := [runOf (command 2 3 0) none []] })) 0 = true ∧
    strictJob (odSet (serve ready) 0x1500 0x20 0 1) 0 desc0 = true ∧
    ndSummary ({ ready Part.init with image := some { image3 with header := [] ++ List.replicate 28 0 ++ [1] } }) ≠ 0 ∧
    (let s := serve (fun x => { ready x with state := .halted, serving := { x.serving with
        step := some { step0 (some stAbort) with retry := false } } })
     (s.part 0).state = .halted ∧ (s.part 0).stopped = false ∧ (s.part 0).restoring = false ∧ (s.part 0).disabling = false ∧
       mayGuard s 0x1000 0 = true) := by decide +kernel

/-! ### Witnesses: semaphores, registers, the mirror -/

theorem test_semaphore_witness :
    let s := serve id
    derivedRun s = true ∧ isRequester 0x1000 = true ∧ isRequester 0x2000 = true ∧ isSem 8 = true ∧ isSem 9 = true ∧ semNow s 9 = none ∧
      owns s 8 0x1000 = true ∧ semNow s 8 = some { owner := 0x1000, until_ := 1000 } ∧ owns s 8 0x2000 = false ∧
      bit (1#64) 0 = true ∧ bit (2#64) 0 = false ∧ 0 < od s 0x1800 0x04 ∧
      semNow { s with counter := { s.counter with gt := 1000 } } 8 = none := by decide +kernel

theorem test_register_witness :
    let s := serve (fun x => queueOf desc0 1 (ready x))
    derivedRun s = true ∧ isFnId 0x1000 = true ∧ shapeOf s 0 ≠ 0 ∧ 0x1000 % 0x1000 = 0 ∧ ownsQueue s 0x1000 0 2 = true ∧
      0x2002 % 0x1000 ≠ 0 ∧ 0x2002 % 0x1000 ≠ 0 + 1 ∧ isFnId 0x2002 = true ∧ showsBoot s 0x1000 = false ∧
      showsBoot { s with boot := { s.boot with devState := 0 }, clocks := { s.clocks with bootSel := 1 } } 0x1000 = true := by
  decide +kernel

theorem test_mirror_witness :
    findEntry 0x1A00 2 ≠ none ∧ (∀ e ∈ findEntry 0x1A00 2, mirrored e = true ∧ 0 < entryCount e ∧ entryCount e < 2 ^ 32) ∧
      admissible.clocks.tripStop = false ∧ admissible.boot.devState ≠ 0 ∧ odView admissible 0x1A00 2 0 ≠ (mirrorAt admissible 0x1A00 2 0).1 := by decide +kernel

/-- The slots of 0x1A10 in BAR2, wherever the firmware puts them: a period, the words of a budget, and an offset of neither. -/
theorem test_hw_slots :
    hwAt (8 * Config.mirrorSlot 0x1A10 0x02) = some (2, 0, 0) ∧ hwAt 1 = none ∧
    (∃ ofs elem, hwAt ofs = some (1, elem, 0)) ∧ ∃ ofs elem, hwAt ofs = some (1, elem, 1) := by
  have k : ∀ i, i < 4 → 8 * (Config.mirrorSlot 0x1A10 0x01 + i) ≠ 8 * Config.mirrorSlot 0x1A10 0x02 →
      hwAt (8 * (Config.mirrorSlot 0x1A10 0x01 + i)) = some (1, i / 2, i % 2) := by
    intro i hi h
    unfold hwAt
    simp only [Nat.mul_mod_right]
    rw [if_neg (by decide), if_neg (by simpa using h), if_pos (by omega)]
    have a : (8 * (Config.mirrorSlot 0x1A10 0x01 + i) - 8 * Config.mirrorSlot 0x1A10 0x01) = 8 * i := by omega
    rw [a]
    rw [show 8 * i / 16 = i / 2 by omega, show 8 * i / 8 % 2 = i % 2 by omega]
  refine ⟨by simp [hwAt], by simp [hwAt], ?_, ?_⟩
  · by_cases h : Config.mirrorSlot 0x1A10 0x01 = Config.mirrorSlot 0x1A10 0x02
    · exact ⟨_, _, k 2 (by omega) (by omega)⟩
    · exact ⟨_, _, k 0 (by omega) (by omega)⟩
  · by_cases h : Config.mirrorSlot 0x1A10 0x01 + 1 = Config.mirrorSlot 0x1A10 0x02
    · exact ⟨_, _, k 3 (by omega) (by omega)⟩
    · exact ⟨_, _, k 1 (by omega) (by omega)⟩

/-- A collection by the owner of semaphore 2, and not. -/
def collection (sub : Nat) (owned : Bool) : Collection := { sub := sub, elem := 2, words := [(0, 5)], owned := owned, last := 7 }
def collecting (c : Option Collection) (cs : List Collection) : State :=
  (serve id).updFn 0x1000 (fun x => { x with collect := c, ready := cs })

theorem test_collection_witness :
    ((collecting none []).fn 0x1000).collect = none ∧
    ((collecting (some (collection 1 true)) []).fn 0x1000).collect = some (collection 1 true) ∧
    (let s := collecting (some (collection 1 true)) []
     (collection 1 true).last + 100000 ≤ { s with counter := { s.counter with gt := 100007 } }.counter.gt) ∧
    (∀ sub ∈ [1, 2], ∀ b, ((collecting none [collection sub b]).fn 0x1000).ready = [collection sub b]) ∧
    collected (collecting none []) (collection 2 true) ≠ 0 := by decide +kernel

/-! ### Witnesses: links and the torus -/

/-- A link that is up with one key in both directions, its own state changed by a function. -/
def key0 : Key := { key := List.replicate 32 0, epoch := 1, switchAt := 0 }
def linkUp (l st : Nat) (f : Link → Link) : State :=
  odSet ((serve id).updLink l (fun x => f { x with txCur := some key0, rxCur := some key0 })) (0x3000 + 0x20 * l) 0x01 0 st

def zeros : List Byte := List.replicate 512 0
theorem zeros_length : zeros.length = 512 := by simp only [zeros, List.length_replicate]

theorem leBytes_length : ∀ n v, (leBytes n v).length = n := by
  intro n
  induction n with
  | zero => intro v; rfl
  | succ n ih => intro v; rw [leBytes, List.length_cons, ih]

/-- A frame of a type and number that verifies under key 0 at counter 0, its ciphertext all zero. -/
def header (typ lseq : Nat) : List Byte := leBytes 16 (typ * 2 ^ 124 + lseq * 2 ^ 16)
def sealed (typ lseq : Nat) : List Byte :=
  header typ lseq ++ (zeros ++ Crypto.gcmTag (Crypto.roundKeys key0.key) (frameIv key0 0) (header typ lseq) zeros)

theorem tag_length (iv aad ct : List Byte) : (Crypto.gcmTag (Crypto.roundKeys key0.key) iv aad ct).length = 16 := by
  have k : (nth [] (Crypto.roundKeys key0.key) 14).length = 16 := by decide +kernel
  simp only [Crypto.gcmTag, Crypto.xor, Crypto.aesBlock, Crypto.shiftRows, beBytes, List.length_zipWith, List.length_reverse,
    leBytes_length, List.length_map, List.length_range, k]
  decide

theorem header_length (typ lseq : Nat) : (header typ lseq).length = 16 := leBytes_length _ _

theorem header_counter (typ lseq : Nat) : leAt (sealed typ lseq) 0 2 = 0 := by
  have : ∀ (h r : List Byte), 2 ≤ h.length → leAt (h ++ r) 0 2 = leAt h 0 2 := by
    intro h r hh
    simp [leAt, List.take_append_of_le_length hh]
  unfold sealed
  rw [this _ _ (by rw [header_length]; omega)]
  simp only [header, leAt, leBytes, List.drop_zero, List.take_succ_cons, List.take_zero, leNat, BitVec.toNat_ofNat]
  omega

theorem sealed_opens (typ lseq : Nat) (x : Link) (hc : x.rxCur = some key0) (hn : x.rxNext = none) (hf : x.rxFrom = 0)
    (hr : x.rejected = 0) :
    ∃ payload, x.open_ (sealed typ lseq) = some (0, false, payload) := by
  have cnt : x.rxCounter (sealed typ lseq) = 0 := by
    rw [Link.rxCounter, if_neg (by rw [hr]; exact fun h => absurd h.1 (by decide)), header_counter, hf]; rfl
  have len : (sealed typ lseq).length = 544 := by
    unfold sealed; rw [List.length_append, List.length_append, header_length, zeros_length, tag_length]
  have d : (sealed typ lseq).drop 16 =
      zeros ++ Crypto.gcmTag (Crypto.roundKeys key0.key) (frameIv key0 0) (header typ lseq) zeros := by
    unfold sealed; rw [← header_length typ lseq, List.drop_left]
  have t : (sealed typ lseq).take 16 = header typ lseq := by
    unfold sealed; rw [← header_length typ lseq, List.take_left]
  have n : (zeros ++ Crypto.gcmTag (Crypto.roundKeys key0.key) (frameIv key0 0) (header typ lseq) zeros).length - 16 =
      zeros.length := by rw [List.length_append, tag_length]; omega
  unfold Link.open_
  rw [if_neg (by omega), cnt]
  simp only [Link.rxKey, hn, hc, Option.map_some]
  unfold Crypto.gcmOpen
  rw [d, t, if_neg (by rw [List.length_append, tag_length]; omega), n, List.take_left, List.drop_left, if_pos rfl]
  exact ⟨_, rfl⟩

theorem test_open_witness :
    (∀ typ lseq, ∃ payload, ((linkUp 12 4 id).link 12).open_ (sealed typ lseq) = some (0, false, payload)) ∧
    ((linkUp 12 4 id).link 12).open_ [] = none ∧
    (let x := (linkUp 12 4 (fun x => { x with rejected := 32767 })).link 12
     x.rejected + 1 = 32768 ∧ x.open_ [] = none) ∧
    (∀ x ∈ [(2, 0), (1, 0), (3, 0), (1, 5)], ∀ payload, (parseFrame (header x.1 x.2) payload).typ = BitVec.ofNat 4 x.1 ∧
      (parseFrame (header x.1 x.2) payload).lseq = BitVec.ofNat 24 x.2) ∧ ((linkUp 12 4 id).link 12).rxSeq = 0 := by
  refine ⟨fun _ _ => sealed_opens _ _ _ (by decide +kernel) (by decide +kernel) (by decide +kernel)
    (by decide +kernel), by decide +kernel, by decide +kernel, ?_, by decide +kernel⟩
  intro x hx payload
  simp only [parseFrame]
  revert x
  decide +kernel

theorem test_link_witness :
    (∀ st ∈ [1, 2, 3, 4, 5, 6], isLink 12 = true ∧ linkState (linkUp 12 st id) 12 = st) ∧
    (let x := ((linkUp 12 4 id).link 12).switchTx
     x.txCur = some key0 ∧ x.txUnder < keyLimit ∧ x.resend = 0 ∧ x.waiting = []) ∧
    (let x := ((linkUp 12 4 (fun x => { x with waiting := [{ idleFrame with typ := 1 }], credits := [1, 0, 0] })).link 12).switchTx
     x.resend = 0 ∧ x.waiting.length = 1 ∧ x.replay.length < 2048 ∧ 0 < nth 0 x.credits 0 ∧ x.txUnder < keyLimit) ∧
    (∀ cause ∈ [RetrainCause.lockLoss, .tagRun],
      causePresent (linkUp 12 4 (fun x => { x with tagRun := 16 })) 12 cause = true) ∧
    causePresent (linkUp 12 4 id) 12 .tagRun = false ∧ linkFitted (linkUp 12 1 id) 12 = true ∧
    (linkUp 12 2 id).counter.gt < ((linkUp 12 2 id).link 12).since + od (linkUp 12 2 id) 0x1C00 0x06 ∧
    (let s := { linkUp 12 2 id with counter := { (linkUp 12 2 id).counter with gt := 2 ^ 40 } }
     (s.link 12).since + od s 0x1C00 0x06 ≤ s.counter.gt ∧ linkState s 12 = 2) := by decide +kernel

theorem test_link_sources_witness :
    (let f := { idleFrame with typ := 1, held := some (13, 0) }
     let x := ((linkUp 12 4 (fun x => { x with waiting := [f], credits := [1, 0, 0] })).link 12).switchTx
     x.resend = 0 ∧ x.pick = some f ∧ f.typ ≠ 2 ∧ x.next.1.held = some (13, 0) ∧ x.mayGo f = true) ∧
    (let x := ((linkUp 12 4 id).link 12).switchTx
     x.resend = 0 ∧ x.pick = none ∧ x.next.1.held = none) ∧
    (let x := ((linkUp 12 4 (fun x => { x with waiting := [{ idleFrame with typ := 1 }, { idleFrame with typ := 2 }] })).link 12).switchTx
     x.waiting.find? (fun f => f.typ == 2) = some { idleFrame with typ := 2 }) ∧
    ((linkUp 12 4 (fun x => { x with replay := [idleFrame], resend := 1 })).link 12).switchTx.resend ≠ 0 ∧
    ((linkUp 12 4 id).link 12).nakFor = none ∧ ((5 : BitVec 24) - ((linkUp 12 4 id).link 12).rxSeq).toNat < 2 ^ 23 ∧
    causePresent (linkUp 12 7 id) 12 .lockLoss = true ∧ linkState (linkUp 12 7 id) 12 = 7 ∧
    (linkUp 12 2 id).clocks.clkMode ≠ 1 ∧ derivedRun (linkUp 12 2 id) = true ∧ (linkUp 12 2 id).clocks.tripStop = false := by
  decide +kernel

/-- A SEND of 8 bytes of object 3 to node 1 on channel 1, its RECV on channel 2, and a BARRIER of group 0 on channel 3. -/
def send0 : BitVec 512 := BitVec.ofNat 512 (2 ^ 504 + 2 ^ 496 + 2 ^ 474 + 3 * 2 ^ 398 + 8 * 2 ^ 258)
def recv0 : BitVec 512 := BitVec.ofNat 512 (2 * 2 ^ 504 + 2 * 2 ^ 496 + 2 ^ 474 + 5 * 2 ^ 414 + 3 * 2 ^ 382 + 8 * 2 ^ 258)
def barrier0 : BitVec 512 := BitVec.ofNat 512 (6 * 2 ^ 504 + 3 * 2 ^ 496)

/-- A SEND of 8 bytes of object 3 to the own node on channel 4, its RECV, and a SEND to node 200, which has no way, on channel 5. -/
def sendOwn : BitVec 512 := BitVec.ofNat 512 (2 ^ 504 + 4 * 2 ^ 496 + 3 * 2 ^ 398 + 8 * 2 ^ 258)
def recvOwn : BitVec 512 := BitVec.ofNat 512 (2 * 2 ^ 504 + 4 * 2 ^ 496 + 6 * 2 ^ 414 + 3 * 2 ^ 382 + 8 * 2 ^ 258)
def sendFar : BitVec 512 := BitVec.ofNat 512 (2 ^ 504 + 5 * 2 ^ 496 + 200 * 2 ^ 474 + 3 * 2 ^ 398 + 8 * 2 ^ 258)

/-- The plan object's bytes: header, group 0 with node 1, and the six entries. -/
def planMem : Mem :=
  let h := 0x4E414C50544C4443 + 7 * 2 ^ 64 + 6 * 2 ^ 128 + 2 ^ 144
  ((Mem.zero.writeN 0 0 (leBytes 19 h)).writeN 0 66 [1, 1]).writeN 0 320
    ([send0, recv0, barrier0, sendOwn, recvOwn, sendFar].flatMap (fun e => leBytes 64 e.toNat))

def plan0 : Plan := { planId := 7, groups := [[1]], entries := [send0, recv0, barrier0, sendOwn, recvOwn, sendFar] }

/-- Partition 0 runs a job launched with that plan, in object 5. -/
def planned (f : Part → Part) : State :=
  let s := odSet (linkUp 0 4 id) 0x1C00 0x02 0 0x010104
  let s := { s with objects := [(3, object0), (5, { object0 with vbase := 1 })],
                    plots := [(0, plot0), (1, { plot0 with obj := 5, t1frame := 6 })],
                    frames := [(frameKey 0 1 6, { Frame.init with mem := planMem })] }
  s.updPart 0 (fun _ => f (busied { Part.init with job := none }))

def planJob (x : Part) : Part := { x with job := some { job0 with plan := some 5 } }

theorem plan0_read : readPlan (planned planJob) 0 5 = some plan0 := by decide +kernel

theorem planned_read (f : Part → Part) : readPlan (planned f) 0 5 = some plan0 := by
  have h : ∀ o a n, objRead (planned f) 0 o a n = objRead (planned planJob) 0 o a n := fun _ _ _ => rfl
  have g : (planned f).obj 0 5 = (planned planJob).obj 0 5 := rfl
  have := plan0_read
  unfold readPlan at this ⊢
  simp only [h, g]
  exact this

/-- The job's plan is that one. -/
theorem planned_plan (f : Part → Part) (j : Job) (hj : ((planned f).part 0).job = some j) (hp : j.plan = some 5) :
    (planned f).plan 0 = some plan0 := by
  unfold State.plan jobPlan; rw [hj, Option.bind_some, hp, Option.bind_some]; exact planned_read f

def planned0 : Job := { job0 with plan := some 5 }

/-- Its job, with progress. -/
def triggered (l : Assoc Transfer) (x : Part) : Part := { x with job := some planned0, transfers := l }
def sending0 : Transfer := { (default : Transfer) with trigger := some 10 }

theorem test_transfer_witness :
    (∀ l, (planned (triggered l)).plan 0 = some plan0) ∧
    (let s := planned (triggered [(1, sending0)])
     derivedRun s = true ∧ dueEntry s 0 plan0 = some send0 ∧ (s.part 0).fault = none ∧ outfallEmpty s 0 = true ∧
       recvLacking s send0 true = true ∧ recvLacking s send0 false = false ∧ sourceLost s 0 send0 .good = false ∧
       sourceLost s 0 send0 .uncorrectable = true ∧ peOp barrier0 = opBarrier ∧ peOp send0 = opSend ∧
       pePeer send0 ≠ ownNode s ∧ 0 < peLen send0 ∧ peLen send0 ≤ 512 ∧ (wayOut s (pePeer send0) 0).isSome = true) ∧
    (let s := planned (triggered [])
     peOp recv0 = opRecv ∧ pePeer recv0 = 1 ∧ peChan recv0 = 2 ∧ 512 * 0 + 8 ≤ peLen recv0 ∧
       ((s.part 0).transfer 2).landed = [] ∧ ((s.part 0).transfer 2).counted = false ∧
       memberLanded ((s.part 0).transfer 2) 1 + 8 = peLen recv0 ∧ memberLanded ((s.part 0).transfer 2) 1 + 4 ≠ peLen recv0 ∧
       objCount (s.syncObj (peAdie recv0) (peAobj recv0)) + 1 < 2 ^ 32 ∧ taker (serve id) 0 2 1 = none) := by
  refine ⟨fun l => planned_plan _ planned0 rfl rfl, by decide +kernel, by decide +kernel⟩

theorem test_taker_witness : taker (planned (triggered [])) 0 2 1 = some (true, plan0, recv0) := by decide +kernel

theorem test_own_node_witness :
    (let s := planned (triggered [(4, sending0)])
     dueEntry s 0 plan0 = some sendOwn ∧ (s.part 0).fault = none ∧ outfallEmpty s 0 = true ∧ recvLacking s sendOwn false = false ∧
       sourceLost s 0 sendOwn .good = false ∧ peOp sendOwn = opSend ∧ pePeer sendOwn = ownNode s ∧ 0 < peLen sendOwn ∧
       taker s 0 (peChan sendOwn) (ownNode s) = some (true, plan0, recvOwn) ∧ peOp recvOwn = opRecv ∧
       peLen sendOwn ≤ peLen recvOwn ∧ ((s.part 0).transfer (peChan sendOwn)).landed = [] ∧
       (objRead s 0 (peSobj sendOwn) (peSofs sendOwn) (peLen sendOwn)).length = peLen sendOwn) ∧
    (let s := planned (triggered [(5, sending0)])
     dueEntry s 0 plan0 = some sendFar ∧ recvLacking s sendFar false = false ∧ sourceLost s 0 sendFar .good = false ∧
       pePeer sendFar ≠ ownNode s ∧ wayOut s (pePeer sendFar) 0 = none) := by decide +kernel

theorem test_hold_witness :
    let s := serve (fun x => { busied x with hold := some { since := 7, spent := 0 } })
    jobRuns (s.part 0) = true ∧ (s.part 0).hold.isSome = true ∧ (s.part 0).fault = none ∧ clocksRun s = true ∧ s.clocks.edge = 0 ∧
      arrivalsMet s 0 = true ∧ 0 + (s.counter.gt - 7) < od s 0x1C00 0x11 0 ∧
      (let r := { s with counter := { s.counter with gt := 2 ^ 60 } }
       od r 0x1C00 0x11 0 ≤ 0 + (r.counter.gt - 7) ∧ (r.part 0).hold = some { since := 7, spent := 0 }) := by decide +kernel

/-- The down link is one that the SEND still needs. -/
theorem test_link_loss_witness :
    let s := planned (triggered [])
    (s.part 0).fault = none ∧ (∀ l ∈ wayOut s (pePeer send0) 0, entryUses s plan0 l send0 = true ∧ entryOpen s 0 true l send0 = true) := by
  decide +kernel

/-- Switch link 12 up, beside the running plan. -/
def switched : State := odSet (planned (triggered [])) (0x3000 + 0x20 * 12) 0x01 0 4

theorem test_message_witness :
    isLink 12 = true ∧ isLink 0 = true ∧ linkState switched 12 = 4 ∧ switched.seenMsgs.contains (1, 9) = false ∧
    { switched with seenMsgs := [(1, 9)] }.seenMsgs.contains (1, 9) = true ∧ (switched.part 0).fault = none ∧
    List.find? (fun e => peChan e == 3 && peOp e == opBarrier && (plan0.members e).contains 1) plan0.entries = some barrier0 ∧
    noticeJobs (serve id) 7 0 = [] := by decide +kernel

theorem test_notice_witness : (0, true) ∈ noticeJobs switched 7 (descStep desc0) := by decide +kernel

/-! ### Witnesses: the counter, clocks, breaches, power, heat -/

/-- The counter's mode and state, and its fields. -/
def counting (mode st : Nat) (f : Counter → Counter) : State :=
  let s := odSet (odSet (linkUp 12 4 id) 0x1C00 0x21 0 mode) 0x1C00 0x20 0 st
  { s with counter := f { s.counter with gt := 2 ^ 40 } }

theorem test_counter_witness :
    (let s := counting 1 2 id
     s.clocks.tripStop = false ∧ s.counter.pending = none ∧ linkState s 12 = 4 ∧ gcMode s ≠ 0 ∧ gcMode s = 1 ∧
       s.counter.lastT1 ≠ some 5 ∧ s.counter.batch + 1 ≠ 16 ∧ gcState s = 2 ∧ s.counter.lastSync + 65536 ≤ s.counter.gt) ∧
    (∀ b ∈ [0, 15], let s := counting 1 2 (fun x => { x with exchange := some (12, 1, 2, 3), batch := b, acquired := true })
      s.counter.exchange = some (12, 1, 2, 3) ∧ s.counter.batch = b ∧ s.counter.acquired = true ∧ gcMode s = 1 ∧
        linkState s 12 = 4) ∧
    (gcMode (counting 2 2 id) = 2 ∧ (counting 2 2 id).counter.batch + 1 ≠ 16) ∧
    (let s := counting 1 3 id
     gcState s = 3 ∧ s.counter.holdFrom + od s 0x1C00 0x26 ≤ s.counter.gt) ∧
    (let s := counting 1 0 (fun x => { x with waitFrom := some 0 })
     s.counter.waitFrom = some 0 ∧ gcMode s ≠ 0 ∧ s.counter.acquired = false ∧ s.counter.waitOver = false ∧
       0 + od s 0x1C00 0x28 ≤ s.counter.gt) ∧
    (let s := { serve id with clocks := { (serve id).clocks with tripStop := true } }
     s.clocks.tripStop = true) := by decide +kernel

theorem test_clock_witness :
    ({ serve id with clocks := { (serve id).clocks with pllOn := true } }).clocks.pllOn = true ∧
    (serve id).clocks.locked = true ∧ (serve id).clocks.edge = 0 ∧ clocksRun (serve id) = true ∧ (serve id).clocks.alert = false ∧
    (serve id).clocks.tripStop = false ∧ bit (serve id).breach 7 = false ∧ bit { serve id with breach := 129 }.breach 7 = true ∧
    derivedRun State.reset = false ∧ State.reset.clocks.locked = false ∧ State.reset.clocks.pllOn = false ∧
    { (serve id).clocks with edge := 5 }.edge ≠ 0 ∧ 1 ≤ (serve id).clocks.govPace ∧
    1 ≤ od (serve id) 0x1100 0x06 ∧ 1 ≤ (serve id).thermal.ceiling ∧
    ((after (exec (.breachRaise (some 5) none none) State.reset)).map (fun t => bits t.breach 31 16)) = some 5 := by decide +kernel

theorem test_power_witness :
    (serve id).pins.pmbAlertN = true ∧ (serve id).clocks.tripStop = false ∧ (serve id).power.telLost = false ∧ (serve id).power.evaluated = false ∧
    ({ serve id with power := { (serve id).power with evaluated := true, nextPace := 3, telLost := true } }).power.evaluated = true ∧
    ({ serve id with clocks := { (serve id).clocks with govPace := 2 } }).clocks.govPace < 3 := by decide +kernel

/-- A sensor of die 0 at 110 °C. -/
def hot0 : TempReading := { kind := 0, unit := 0, sensor := 5, mc := 110000 }

theorem test_heat_witness :
    (serve id).thermal.excluded = [] ∧ (serve id).thermal.ceiling ≤ 16 ∧ 1 ≤ (serve id).thermal.ceiling ∧
    badSensor (List.foldl noteReading (serve id) [hot0]) hot0 = false ∧ (serve id).clocks.tripStop = false ∧
    0 < numChannels (serve id).boot.assembly ∧ od (serve id) 0x1400 0x10 * 1000 ≤ hot0.mc ∧ (serve id).thermal.latch = false ∧
    (let s := { serve id with thermal := { (serve id).thermal with latch := true } }
     s.thermal.latch = true ∧ s.clocks.tripStop = false) := by decide +kernel

/-! ### Witnesses: MDP -/

theorem round_length {n : Nat} (p : Crypto.Sha n) (v : List (BitVec n)) (k : BitVec n × BitVec n) :
    (Crypto.round p v k).length = v.length := by
  unfold Crypto.round; split <;> rfl

theorem compress_length {n : Nat} (p : Crypto.Sha n) (ks : List (BitVec n)) (b : Nat) :
    ∀ msg h, (Crypto.compress p ks b msg h).length = h.length := by
  induction b with
  | zero => intro _ _; rfl
  | succ b ih =>
    intro msg h
    have f : ∀ (l : List (BitVec n × BitVec n)) (v : List (BitVec n)), (l.foldl (Crypto.round p) v).length = v.length := by
      intro l
      induction l with
      | nil => intro _; rfl
      | cons a l il => intro v; rw [List.foldl_cons, il, round_length]
    rw [Crypto.compress, ih, List.length_zipWith, f, Nat.min_self]

theorem sha256_length (m : List Byte) : (Crypto.sha256 m).length = 32 := by
  have g : ∀ l : List (BitVec 32), (l.flatMap (fun w => beBytes 4 w.toNat)).length = 4 * l.length := by
    intro l
    induction l with
    | nil => rfl
    | cons a l il => rw [List.flatMap_cons, List.length_append, il, beBytes, List.length_reverse, leBytes_length,
        List.length_cons]; omega
  unfold Crypto.sha256
  rw [g, compress_length]; rfl

/-- A session 5 of a custody principal in slot 0, on port 0 that is up. -/
def session0 : Session := { (default : Session) with sid := 5, role := 3, kmac := List.replicate 32 0, seq := 3, last := 7 }
def managed (x : Session) : State :=
  let s := odSet (serve id) 0x1F00 0x04 0 1
  { s with mgmt := { s.mgmt with sessions := [(0, x)] } }

/-- Port 0's own address, and a datagram under a key of zeros to it. -/
def home : BitVec 128 := linkLocal State.reset 0

/-- A frame to port 0's own address that carries some bytes to MDP's UDP port. -/
def framed (bytes : List Byte) : Dgram := { port := 0, addr := 0, udp := 0, ipv4 := false, dest := home, dport := 7439, bytes := bytes }

/-- The warden runs, port 0 is up and takes frames to its own address. -/
def Up (s : State) : Prop := s.clocks.tripStop = false ∧ mgUp s 0 = true ∧ ownAddress s 0 home = true

theorem own_home {s : State} (h : od s 0x1F00 0x03 0 = od State.reset 0x1F00 0x03 0) : ownAddress s 0 home = true := by
  have e : linkLocal s 0 = home := by unfold home linkLocal; rw [h]
  rw [ownAddress, e, beq_self_eq_true]; rfl

theorem up_reaches {s : State} {b : List Byte} (h : Up s) (f : mdpForm (framed b) = true) : Reaches s (framed b) := by
  refine ⟨h.1, h.2.1, ?_, f⟩
  simp only [foreignFrame, framed, h.2.2]; rfl

def dgram (kind op sid seq : Nat) (pl : List Byte) : Dgram :=
  let h := mdpHeader kind 0 op sid seq 0 pl.length 0 0
  framed ((h ++ pl) ++ Crypto.hmac (List.replicate 32 0) (h ++ pl))

/-- What a datagram of session 5 with SEQ 4 says, but for its length and MAC. -/
def fields (kind op sid seq : Nat) (pl : List Byte) : Bool :=
  let d := dgram kind op sid seq pl
  decide (pl.length ≤ 1388 ∧ leAt d.bytes 0 4 = mdpMagic ∧ leAt d.bytes 4 1 = 1 ∧ mdpKind d = kind ∧ mdpFlags d = 0 ∧
    mdpOp d = op ∧ mdpSession d = sid ∧ mdpSeq d = seq ∧ mdpLen d = pl.length ∧ mdpBody d = pl)

theorem dgram_length (kind op sid seq : Nat) (pl : List Byte) : (dgram kind op sid seq pl).bytes.length = pl.length + 64 := by
  have m : ∀ b, (Crypto.hmac (List.replicate 32 0) b).length = 32 := fun _ => sha256_length _
  simp only [dgram, framed, mdpHeader, List.length_append, leBytes_length, m]; omega

theorem dgram_mac (kind op sid seq : Nat) (pl : List Byte) : macHolds (List.replicate 32 0) (dgram kind op sid seq pl) = true := by
  have m : ∀ b : List Byte, (b ++ Crypto.hmac (List.replicate 32 0) b).length - 32 = b.length := by
    intro b
    have : (Crypto.hmac (List.replicate 32 0) b).length = 32 := sha256_length _
    rw [List.length_append, this]; omega
  simp only [macHolds, dgram, framed, m, List.take_left, List.drop_left, beq_self_eq_true]

theorem dgram_form {kind op sid seq : Nat} {pl : List Byte} (f : fields kind op sid seq pl = true) :
    mdpForm (dgram kind op sid seq pl) = true := by
  simp only [fields, decide_eq_true_eq] at f
  obtain ⟨h0, h1, h2, _, _, _, _, _, h3, _⟩ := f
  unfold mdpForm
  rw [dgram_length, h1, h2, h3]
  simp only [beq_self_eq_true, Bool.and_true, Bool.and_eq_true, decide_eq_true_eq]
  omega

/-- A datagram of session `x` with SEQ 4 asks for its OP. -/
theorem asks_of {s : State} {x : Session} {op role : Nat} {boot : Bool} {pl : List Byte}
    (hs : Up s ∧ dictReady s = true ∧ findSession (idleOut s) 5 = some (0, x) ∧ rateSpent (idleOut s) = false)
    (hx : x.kmac = List.replicate 32 0 ∧ x.enc = false ∧ x.stored = [] ∧ x.seq = 3)
    (hb : s.boot.devState ≠ 0 ∨ boot = true) (hr : role ≤ x.role) (f : fields 0 op 5 4 pl = true) :
    Asks s (dgram 0 op 5 4 pl) op role boot 0 x pl := by
  have form := dgram_form f
  have mac := dgram_mac 0 op 5 4 pl
  simp only [fields, decide_eq_true_eq] at f
  obtain ⟨_, _, _, hk, hf, ho, hi, hq, _, hp⟩ := f
  obtain ⟨h1, h2, h3, h4⟩ := hs
  obtain ⟨k1, k2, k3, k4⟩ := hx
  refine ⟨⟨up_reaches h1 form, h2, hk, by rw [hi]; exact h3, by rw [k1]; exact mac, ?_⟩, ⟨?_, ?_, ?_, h4⟩, ho, by rw [hf]; omega, hb, hr⟩
  · unfold mdpPlain; rw [hf, k2, hp]; rfl
  · rw [k3]; intro e he; cases he
  · rw [k4]; decide
  · rw [k4, hq]; decide

theorem managed_plain : Up (managed session0) ∧ dictReady (managed session0) = true ∧
    rateSpent (managed session0) = false ∧ ¬ 7 + od (managed session0) 0x1F00 0x09 ≤ 7 := by
  have h : (managed session0).clocks.tripStop = false ∧ mgUp (managed session0) 0 = true ∧ dictReady (managed session0) = true ∧
    rateSpent (managed session0) = false ∧ ¬ 7 + od (managed session0) 0x1F00 0x09 ≤ 7 := by decide +kernel
  exact ⟨⟨h.1, h.2.1, own_home rfl⟩, h.2.2⟩

theorem managed_idle (x : Session) (hl : x.last = 7) : idleOut (managed x) = managed x := by
  have h : ¬ x.last + od (managed x) 0x1F00 0x09 ≤ (managed x).counter.gt := by
    rw [hl]; exact managed_plain.2.2.2
  have f : (managed x).mgmt.sessions.filter (fun e => decide (e.2.last + od (managed x) 0x1F00 0x09 ≤ (managed x).counter.gt)) = [] := by
    show ([(0, x)] : List (Nat × Session)).filter _ = []
    rw [List.filter_cons_of_neg (by simpa using h)]
    exact List.filter_nil
  unfold idleOut
  rw [f]
  exact List.foldl_nil

theorem managed_ready (x : Session) (h : x.sid = 5) (hl : x.last = 7) :
    Up (managed x) ∧ dictReady (managed x) = true ∧ findSession (idleOut (managed x)) 5 = some (0, x) ∧
      rateSpent (idleOut (managed x)) = false := by
  rw [managed_idle x hl]
  refine ⟨managed_plain.1, managed_plain.2.1, ?_, managed_plain.2.2.1⟩
  unfold findSession
  rw [show (managed x).mgmt.sessions = [(0, x)] from rfl, List.find?_cons, h]
  rfl

/-- Every request has a datagram that asks for it, in a session of custody. -/
theorem test_asks_witness :
    ∀ r ∈ [(1, [0, 1, 1, 0]), (1, [0]), (3, [0, 0x10, 1, 0, 0, 0, 0, 0, 0, 0]), (9, (List.replicate 16 0)), (2, []), (2, [0]),
        (4, List.replicate 10 0), (5, [9]), (6, [9]), (6, [8]), (5, [200]), (7, 1 :: List.replicate 19 0), (7, 2 :: 0 :: 0 :: 0 :: 1 :: List.replicate 15 0), (12, []),
        (10, List.replicate 40 0), (11, []), (8, [1, 0x1F, 2, 0, 5, 0]), (8, [2, 0x1F, 1, 0, 3]), (8, [0, 0]), (8, [0]),
        (8, [1, 0x12, 4, 0, 1, 0, 0, 0]), (8, [2, 0x12, 1, 0, 1]), (8, [3, 0x12, 33, 0] ++ List.replicate 33 0),
        (8, [1, 0x13, 4, 0, 0, 0, 0, 0]), (8, [2, 0x13, 0, 0]), (8, [3, 0x13, 1, 0, 0])],
      ∀ boot, Asks (managed session0) (dgram 0 r.1 5 4 r.2) r.1 3 boot 0 session0 r.2 := by
  have f : ∀ r ∈ [(1, [0, 1, 1, 0]), (1, [0]), (3, [0, 0x10, 1, 0, 0, 0, 0, 0, 0, 0]), (9, (List.replicate 16 0)), (2, []), (2, [0]),
        (4, List.replicate 10 0), (5, [9]), (6, [9]), (6, [8]), (5, [200]), (7, 1 :: List.replicate 19 0), (7, 2 :: 0 :: 0 :: 0 :: 1 :: List.replicate 15 0), (12, []),
        (10, List.replicate 40 0), (11, []), (8, [1, 0x1F, 2, 0, 5, 0]), (8, [2, 0x1F, 1, 0, 3]), (8, [0, 0]), (8, [0]),
        (8, [1, 0x12, 4, 0, 1, 0, 0, 0]), (8, [2, 0x12, 1, 0, 1]), (8, [3, 0x12, 33, 0] ++ List.replicate 33 0),
        (8, [1, 0x13, 4, 0, 0, 0, 0, 0]), (8, [2, 0x13, 0, 0]), (8, [3, 0x13, 1, 0, 0])], fields 0 r.1 5 4 r.2 = true := by decide +kernel
  intro r hr boot
  exact asks_of (managed_ready _ rfl rfl) (by decide) (.inl (by decide)) (by decide) (f r hr)

/-! ### Witnesses: which datagrams are answered, reads and writes -/

theorem idle_one {s : State} {x : Session} (hs : s.mgmt.sessions = [(0, x)])
    (hl : ¬ x.last + od s 0x1F00 0x09 ≤ s.counter.gt) : idleOut s = s := by
  have f : s.mgmt.sessions.filter (fun e => decide (e.2.last + od s 0x1F00 0x09 ≤ s.counter.gt)) = [] := by
    rw [hs, List.filter_cons_of_neg (by simpa using hl)]
    exact List.filter_nil
  unfold idleOut
  rw [f]
  exact List.foldl_nil

/-- A datagram of a state's one session is authentic. -/
theorem authentic_of {s : State} {x : Session} {op : Nat} {pl : List Byte}
    (hs : s.mgmt.sessions = [(0, x)]) (hl : ¬ x.last + od s 0x1F00 0x09 ≤ s.counter.gt)
    (hu : Up s ∧ dictReady s = true) (hx : x.kmac = List.replicate 32 0 ∧ x.enc = false ∧ x.sid = 5)
    (f : fields 0 op 5 4 pl = true) : Authentic s (dgram 0 op 5 4 pl) 0 x pl := by
  have form := dgram_form f
  have mac := dgram_mac 0 op 5 4 pl
  simp only [fields, decide_eq_true_eq] at f
  obtain ⟨_, _, _, hk, hf, ho, hi, hq, _, hp⟩ := f
  obtain ⟨k1, k2, k3⟩ := hx
  refine ⟨up_reaches hu.1 form, hu.2, hk, ?_, by rw [k1]; exact mac, ?_⟩
  · rw [idle_one hs hl, hi]
    unfold findSession
    rw [hs, List.find?_cons, k3]
    rfl
  · unfold mdpPlain; rw [hf, k2, hp]; rfl

theorem noop_fields : fields 0 12 5 4 [] = true := by decide +kernel

/-- States in which a datagram gets no further than its port, its frame, its form or the dictionary. -/
theorem test_not_ready_witness :
    mgUp (serve id) (dgram 0 12 5 4 []).port = false ∧
    (let s := odSet State.reset 0x1F00 0x04 0 1
     let t := { s with mgmt := { s.mgmt with stCount := 2000 } }
     Reaches s (dgram 0 12 5 4 []) ∧ dictReady s = false ∧ s.mgmt.stCount < 2000 ∧
     Reaches t (dgram 0 12 5 4 []) ∧ dictReady t = false ∧ t.mgmt.stSecond = t.counter.gt / 100000000 ∧ 2000 ≤ t.mgmt.stCount ∧
     foreignFrame s { framed [] with ipv4 := true } = true ∧ foreignFrame s (framed []) = false ∧ mdpForm (framed []) = false) := by
  have u : (odSet State.reset 0x1F00 0x04 0 1).clocks.tripStop = false ∧ mgUp (odSet State.reset 0x1F00 0x04 0 1) 0 = true := by
    decide +kernel
  have f := dgram_form noop_fields
  refine ⟨by decide +kernel, up_reaches ⟨u.1, u.2, own_home rfl⟩ f, by decide +kernel, by decide +kernel,
    up_reaches ⟨u.1, u.2, own_home rfl⟩ f, by decide +kernel, by decide +kernel, by decide +kernel, rfl, ?_, by decide⟩
  simp only [foreignFrame, framed, own_home (s := odSet State.reset 0x1F00 0x04 0 1) rfl]; rfl

/-- A NOOP of session 5 whose MAC is zeros. -/
def noMac : List Byte := mdpHeader 0 0 12 5 4 0 0 0 0 ++ List.replicate 32 0

/-- No session; another MAC; a plaintext where ENC was granted. -/
theorem test_unauthentic_witness :
    (let s := managed session0
     Up s ∧ dictReady s = true ∧ mdpKind (framed noMac) ≠ 3 ∧ mdpForm (framed noMac) = true ∧
     findSession (idleOut s) (mdpSession (dgram 0 12 6 4 [])) = none ∧
     findSession (idleOut s) (mdpSession (framed noMac)) = some (0, session0) ∧ macHolds session0.kmac (framed noMac) = false) ∧
    (∃ (s : State) (x : Session) (d : Dgram), Reaches s d ∧ dictReady s = true ∧ mdpKind d ≠ 3 ∧
      findSession (idleOut s) (mdpSession d) = some (0, x) ∧ macHolds x.kmac d = true ∧ mdpPlain x d = none) := by
  refine ⟨?_, managed { session0 with enc := true }, { session0 with enc := true }, dgram 0 12 5 4 [], ?_⟩
  · have m : macHolds session0.kmac (framed noMac) = false := by decide +kernel
    refine ⟨managed_plain.1, by decide +kernel, by decide +kernel, by decide +kernel, ?_, ?_, m⟩
    · rw [managed_idle session0 rfl]; decide +kernel
    · rw [managed_idle session0 rfl]; decide +kernel
  · have f : fields 0 12 5 4 [] = true := by decide +kernel
    have r := managed_ready { session0 with enc := true } rfl rfl
    have form := dgram_form f
    have mac := dgram_mac 0 12 5 4 []
    simp only [fields, decide_eq_true_eq] at f
    obtain ⟨_, _, _, hk, hf, _, hi, _⟩ := f
    refine ⟨up_reaches r.1 form, r.2.1, by rw [hk]; decide, by rw [hi]; exact r.2.2.1, mac, ?_⟩
    unfold mdpPlain; rw [hf]; rfl

/-- An authentic NOOP with SEQ 4 in a session that has answered it, in one at its last SEQ, in one already at 4, beyond the rate, and
in one that may only observe nothing; and an authentic SET of one that may only observe. -/
theorem test_authentic_witness :
    (∀ x ∈ [{ session0 with stored := [(4, [1])] }, { session0 with stored := [(4, []), (4, [1])] }, { session0 with seq := 0xFFFFFFFF }, { session0 with seq := 4 },
        { session0 with role := 0 }], Authentic (managed x) (dgram 0 12 5 4 []) 0 x []) ∧
    Authentic (managed { session0 with role := 1 }) (dgram 0 2 5 4 []) 0 { session0 with role := 1 } [] ∧
    NewSeq (managed { session0 with role := 1 }) (dgram 0 2 5 4 []) { session0 with role := 1 } ∧
    (let s := managed session0
     let t := { s with mgmt := { s.mgmt with reqCount := 20000 } }
     Authentic t (dgram 0 12 5 4 []) 0 session0 [] ∧ rateSpent (idleOut t) = true) := by
  have f : fields 0 12 5 4 [] = true := by decide +kernel
  have g : fields 0 2 5 4 [] = true := by decide +kernel
  have l : ∀ x : Session, x.last = 7 → ¬ x.last + od (managed x) 0x1F00 0x09 ≤ (managed x).counter.gt := by
    intro x h; rw [h]; exact managed_plain.2.2.2
  have u : ∀ x : Session, Up (managed x) ∧ dictReady (managed x) = true :=
    fun _ => ⟨managed_plain.1, managed_plain.2.1⟩
  refine ⟨?_, authentic_of rfl (l _ rfl) (u _) ⟨rfl, rfl, rfl⟩ g, ?_, ?_⟩
  · intro x hx
    rcases List.mem_cons.mp hx with rfl | hx
    · exact authentic_of rfl (l _ rfl) (u _) ⟨rfl, rfl, rfl⟩ f
    rcases List.mem_cons.mp hx with rfl | hx
    · exact authentic_of rfl (l _ rfl) (u _) ⟨rfl, rfl, rfl⟩ f
    rcases List.mem_cons.mp hx with rfl | hx
    · exact authentic_of rfl (l _ rfl) (u _) ⟨rfl, rfl, rfl⟩ f
    rcases List.mem_cons.mp hx with rfl | hx
    · exact authentic_of rfl (l _ rfl) (u _) ⟨rfl, rfl, rfl⟩ f
    rcases List.mem_cons.mp hx with rfl | hx
    · exact authentic_of rfl (l _ rfl) (u _) ⟨rfl, rfl, rfl⟩ f
    · cases hx
  · have r := managed_ready { session0 with role := 1 } rfl rfl
    unfold NewSeq
    refine ⟨(by intro e he; cases he), by decide, ?_, r.2.2.2⟩
    simp only [fields, decide_eq_true_eq] at g
    rw [g.2.2.2.2.2.2.2.1]; decide
  · have h : ¬ session0.last + od { managed session0 with mgmt := { (managed session0).mgmt with reqCount := 20000 } } 0x1F00 0x09 ≤
        7 := managed_plain.2.2.2
    refine ⟨authentic_of rfl h ⟨managed_plain.1, managed_plain.2.1⟩ ⟨rfl, rfl, rfl⟩ f, ?_⟩
    rw [idle_one (x := session0) rfl h]; decide +kernel

/-- Payloads for each way a read goes. -/
theorem test_reads_witness :
    (let s := served (managed session0)
     let one := (pieces 4 8 [0, 0x10, 1, 0, 0, 0x01, 1, 0]).foldl (getItem 3) ([], s)
     one.1.length ≤ payloadLimit session0 ∧
     payloadLimit session0 <
      ((pieces 4 44 (List.replicate 11 [0x00, 0x11, 0x10, 0]).flatten).foldl (getItem 3) ([], s)).1.length ∧
     (let pl := [0x00, 0x11, 0x10, 0, 0, 0, 0, 0, 2, 0]
      ∃ e, findEntry (leAt pl 0 2) (leAt pl 2 1) = some e ∧ leAt pl 4 4 + leAt pl 8 2 ≤ entryCount e ∧ e.size = 8) ∧
     (let pl := [0x00, 0x11, 0x10, 0, 0, 0, 0, 0, 18, 0]
      ∃ e, findEntry (leAt pl 0 2) (leAt pl 2 1) = some e ∧ entryCount e < leAt pl 4 4 + leAt pl 8 2) ∧
     (let pl := [0, 0x10, 0x00, 0x11, 0, 0, 0, 0, 0, 0, 0, 0, 17, 0, 0, 0]
      ∃ e k, targetKey pl 0 = some k ∧ findEntry (k / 256) (k % 256) = some e ∧ leAt pl 4 8 + leAt pl 12 4 ≤ entryCount e) ∧
     s.mgmt.sessions.find? 0 = some session0) ∧
    (∀ r ∈ [(1, [0, 0x10, 1, 0, 0, 0x01, 1, 0]), (1, (List.replicate 11 [0x00, 0x11, 0x10, 0]).flatten), (1, [0]),
        (3, [0x00, 0x11, 0x10, 0, 0, 0, 0, 0, 2, 0]), (3, [0x00, 0x11, 0x10, 0, 0, 0, 0, 0, 18, 0]),
        (9, [0, 0x10, 0x00, 0x11, 0, 0, 0, 0, 0, 0, 0, 0, 17, 0, 0, 0])], fields 0 r.1 5 4 r.2 = true) ∧
    (let s := managed session0
     let t := { s with mgmt := { s.mgmt with
       bulk := [{ slot := 0, seq := 3, gen := 0, port := 0, addr := 0, udp := 0, again := none, key := some 0x110010, next := 0, left := 17, ofs := 0, sent := 0 }] } }
     let u := { t with mgmt := { t.mgmt with reqCount := 20000 } }
     let v := { s with mgmt := { s.mgmt with
       bulk := [{ slot := 0, seq := 3, gen := 0, port := 0, addr := 0, udp := 0, again := some [[1]], key := none, next := 0,
                  left := 0, ofs := 0, sent := 0 }] } }
     v.mgmt.bulk.length = 1 ∧ rateSpent v = false ∧ v.mgmt.sessions.find? 1 = none ∧     t.clocks.tripStop = false ∧ rateSpent t = false ∧ rateSpent u = true ∧ t.mgmt.sessions.find? 0 = some session0) := by
  refine ⟨⟨by decide +kernel, by decide +kernel, ⟨(findEntry 0x1100 0x10).getD default, by decide +kernel⟩,
    ⟨(findEntry 0x1100 0x10).getD default, by decide +kernel⟩,
    ⟨(findEntry 0x1100 0x10).getD default, 0x110010, by decide +kernel⟩, by decide +kernel⟩, by decide +kernel, by decide +kernel⟩

/-! ### Witnesses: writes, semaphores, subscriptions, notifications -/

/-- The custody session owns SEM1. -/
def guarded : State := { managed session0 with sems := [(1, { owner := 0x4005, until_ := 1000 })] }

theorem guarded_idle : idleOut guarded = guarded := idle_one (x := session0) rfl managed_plain.2.2.2

/-- A SET and a TABLE_SET that pass, and a SET whose second item and a TABLE_SET whose second element fail. -/
theorem test_writes_witness :
    (∀ r ∈ [(2, [0x00, 0x1C, 6, 0, 4, 0, 1, 0, 0, 0]), (2, [0x00, 0x1C, 6, 0, 4, 0, 1, 0, 0, 0, 0x00, 0x1C, 1, 0, 1, 0, 0]),
        (4, [0x00, 0x1E, 0x11, 0, 1, 0, 0, 0, 1, 0, 0, 0, 0, 0, 0, 0, 0, 0]),
        (4, [0x00, 0x1E, 0x11, 0, 31, 0, 0, 0, 2, 0] ++ List.replicate 16 0)], fields 0 r.1 5 4 r.2 = true) ∧
    (let s := served guarded
     let w : Write := { index := 0x1C00, sub := 6, elem := 0, value := [1, 0, 0, 0] }
     let v : Write := { index := 0x1C00, sub := 1, elem := 0, value := [0] }
     setItems 10 [0x00, 0x1C, 6, 0, 4, 0, 1, 0, 0, 0] = some [w] ∧ checkWrites s session0 [w] = [0] ∧
     setItems 17 [0x00, 0x1C, 6, 0, 4, 0, 1, 0, 0, 0, 0x00, 0x1C, 1, 0, 1, 0, 0] = some [w, v] ∧
     checkWrites s session0 [w, v] = [0, mg 0x05] ∧
     (∃ e, findEntry 0x1E00 0x11 = some e ∧ e.size = 8) ∧
     checkWrites s session0 [{ index := 0x1E00, sub := 0x11, elem := 1, value := List.replicate 8 0 }] = [0] ∧
     checkWrites s session0 [{ index := 0x1E00, sub := 0x11, elem := 31, value := List.replicate 8 0 },
       { index := 0x1E00, sub := 0x11, elem := 32, value := List.replicate 8 0 }] = [0, mg 0x02]) ∧
    (let e := (findEntry 0x1C00 6).getD default
     accessRefused e 3 0 = false ∧ writeRole e ≤ 3 ∧ 1 < writeRole e ∧ principalEntry e = false ∧ e.acc = .rws ∧
     valueOk (managed session0) e 0x1C00 6 0 1 = true ∧ owns guarded (guardOf 0x1C00 6 0) 0x4005 = true ∧
     owns (managed session0) (guardOf 0x1C00 6 0) 0x4005 = false) ∧
    (let e := (findEntry 0x1C00 0x30).getD default
     e.acc = .ro ∧ valueOk (managed session0) e 0x1C00 0x30 0 1 = true) := by
  refine ⟨by decide +kernel, ⟨by decide +kernel, by decide +kernel, by decide +kernel, by decide +kernel,
    ⟨(findEntry 0x1E00 0x11).getD default, by decide +kernel⟩, by decide +kernel, by decide +kernel⟩, by decide +kernel, by decide +kernel⟩

/-- The SINGLE mode with and without the manager of record, an owned and a free semaphore. -/
theorem test_semaphore_requests_witness :
    (let s := served (odSet (managed session0) 0x1F00 0x0C 0 1)
     od s 0x1F00 0x0C = 1 ∧ recordHolder s session0 = false ∧ od (served guarded) 0x1F00 0x0C = 0 ∧
     owns (served guarded) 1 (sessionOwner session0) = true ∧ owns (served guarded) 2 (sessionOwner session0) = false) ∧
    (let t := { odSet (managed session0) 0x1F00 0x0C 0 1 with sems := [(0, { owner := 0x4005, until_ := 1000 })] }
     recordHolder (served t) session0 = true) := by decide +kernel

/-- A target to subscribe, a session with room and one without, both asking. -/
theorem test_subscribe_witness :
    (let pl : List Byte := 1 :: 0 :: 0 :: 0 :: 0 :: 0x10 :: 0 :: 0x11 :: List.replicate 12 0
     fields 0 7 5 4 pl = true ∧ leAt pl 4 1 = 0 ∧ leAt pl 0 1 = 1 ∧
     ∃ k e, targetKey pl 4 = some k ∧ findEntry (k / 256) (k % 256) = some e ∧ leAt pl 8 4 < entryCount e) ∧
    (let sub : Subscription := { key := some 0x110010, elem := 0, interval := 0, last := 0, sent := 0 }
     let full := { session0 with subs := (List.range 16).map (fun n => (n, sub)) }
     16 ≤ full.subs.length ∧ session0.subs.find? 0 = none ∧
     ∀ pl, fields 0 7 5 4 pl = true → Asks (managed full) (dgram 0 7 5 4 pl) 7 1 false 0 full pl) := by
  refine ⟨⟨by decide +kernel, by decide, by decide, 0x110010, (findEntry 0x1100 0x10).getD default, by decide +kernel⟩,
    by decide, by decide, ?_⟩
  intro pl f
  exact asks_of (managed_ready _ rfl rfl) ⟨rfl, rfl, rfl, rfl⟩ (.inl (by decide)) (by decide) f

/-- A subscription whose target has changed, one whose has not, one within its interval, and a session at its last NSEQ. -/
theorem test_notify_witness :
    let sub : Subscription := { key := some 0x110010, elem := 0, interval := 5, last := 0, sent := 9 }
    let st := fun (k : Subscription) => managed { session0 with subs := [(0, k)] }
    targetNow (st sub) sub.key 0 ≠ 9 ∧ targetNow (st sub) sub.key 0 = 0 ∧ (st sub).counter.gt + 1 < 7 + sub.interval ∧
      mgUp (st sub) 0 = true ∧ (∃ e, findEntry (0x110010 / 256) (0x110010 % 256) = some e) := by
  refine ⟨by decide +kernel, by decide +kernel, by decide +kernel, by decide +kernel, ⟨(findEntry 0x1100 0x10).getD default, by decide +kernel⟩⟩

/-! ### Witnesses: sessions and management commands -/

/-- No session, on a port that is up, with no episode. -/
def open0 : State := { odSet (serve id) 0x1F00 0x04 0 1 with episodes := [] }

theorem open0_idle (m : Mgmt) (h : m.sessions = []) : idleOut { open0 with mgmt := m } = { open0 with mgmt := m } := by
  unfold idleOut; rw [show ({ open0 with mgmt := m } : State).mgmt.sessions = [] from h]; rfl

/-- A valid OPEN of principal 0, whose key is 32 zeros; an OPEN of another MAC; a nonce that repeats; no entropy. -/
theorem test_mdp_open_witness :
    let d := dgram 3 0 0 0 (List.replicate 40 0)
    let bad := framed (mdpHeader 3 0 0 0 0 0 40 0 0 ++ List.replicate 72 0)
    Reaches open0 d ∧ dictReady open0 = true ∧ mdpKind d = 3 ∧ mdpLen d = 40 ∧ mdpSession d = 0 ∧ mdpSeq d = 0 ∧
      leAt (mdpBody d) 0 1 = 0 ∧ principalKey open0 0 = some (List.replicate 32 0) ∧ principalRole open0 0 = 3 ∧
      macHolds (List.replicate 32 0) d = true ∧ slice (mdpBody d) 8 32 = List.replicate 32 0 ∧ open0.mgmt.nonces = [] ∧
      open0.mgmt.used = [] ∧ open0.mgmt.sessions = [] ∧ idleOut open0 = open0 ∧ entropyUp open0 = false ∧
      entropyUp (odSet open0 0x1E00 0x20 0 1) = true ∧
      mdpForm bad = true ∧ mdpKind bad = 3 ∧ leAt (mdpBody bad) 0 1 = 0 ∧ macHolds (List.replicate 32 0) bad = false := by
  have f : fields 3 0 0 0 (List.replicate 40 0) = true := by decide +kernel
  have form := dgram_form f
  have mac := dgram_mac 3 0 0 0 (List.replicate 40 0)
  simp only [fields, decide_eq_true_eq] at f
  obtain ⟨_, _, _, hk, _, _, hi, hq, hl, hp⟩ := f
  refine ⟨up_reaches ⟨rfl, by decide +kernel, own_home rfl⟩ form, by decide +kernel, hk, hl, hi, hq, by rw [hp]; decide, by decide +kernel, by decide +kernel, mac,
    by rw [hp]; decide, rfl, rfl, rfl, open0_idle _ rfl, by decide +kernel, by decide +kernel, by decide, by decide, by decide,
    by decide +kernel⟩

/-- All 32 sessions open, none idle. -/
theorem test_open_full_witness :
    let s := { open0 with mgmt := { open0.mgmt with sessions := (List.range 32).map (fun n => (n, session0)) } }
    mgUp s 0 = true ∧ dictReady s = true ∧ 32 ≤ (idleOut s).mgmt.sessions.length ∧
      principalKey (idleOut s) 0 = some (List.replicate 32 0) := by decide +kernel

/-- RENEW with and without entropy; SESSION_END of an open session and of none; a code of no command; a session that has idled. -/
theorem test_session_end_witness :
    (let s := served (managed session0)
     entropyUp s = false ∧ entropyUp (served (odSet (managed session0) 0x1E00 0x20 0 1)) = true ∧
     principalKey s session0.principal = some (List.replicate 32 0) ∧
     List.find? (fun (e : Nat × Session) => bits e.2.sid 11 0 == 5) s.mgmt.sessions = some (0, session0) ∧
     (∀ e ∈ s.mgmt.sessions, bits e.2.sid 11 0 ≠ 6)) ∧
    fields 0 8 5 4 [1, 0x1F, 2, 0, 6, 0] = true ∧ leAt [0, 0] 0 2 ∉ execCodes ∧ fields 0 8 5 4 [0] = true ∧
    (let s := managed { session0 with last := 0 }
     let t := { s with counter := { s.counter with gt := 6000000000 } }
     (0 : Nat) + od t 0x1F00 0x09 ≤ t.counter.gt ∧ 7 < 7 + od (managed session0) 0x1F00 0x09) := by decide +kernel

/-- The custody session where no episode is in progress. -/
def quiet0 : State := { managed session0 with episodes := [] }

theorem quiet_asks {op role : Nat} {boot : Bool} {pl : List Byte} (hr : role ≤ 3) (f : fields 0 op 5 4 pl = true) :
    Asks quiet0 (dgram 0 op 5 4 pl) op role boot 0 session0 pl := by
  have l : ¬ session0.last + od quiet0 0x1F00 0x09 ≤ quiet0.counter.gt := managed_plain.2.2.2
  have e : idleOut quiet0 = quiet0 := idle_one (x := session0) rfl l
  have g := f
  simp only [fields, decide_eq_true_eq] at g
  obtain ⟨_, _, _, _, hf, ho, _, hq, _⟩ := g
  refine ⟨authentic_of rfl l ⟨managed_plain.1, managed_plain.2.1⟩ ⟨rfl, rfl, rfl⟩ f, ?_, ho, by rw [hf]; decide, .inl (by decide), hr⟩
  refine ⟨(by intro e he; cases he), by decide, by rw [hq]; decide, by rw [e]; decide +kernel⟩

/-- Requests for every way a command of R387, R399, R401 and R398 goes. -/
theorem test_mdp_payloads_witness :
    ∀ pl ∈ [[1, 0x12, 4, 0, 1, 0, 0, 0], [1, 0x12, 4, 0, 0, 0, 0, 0], [1, 0x12, 4, 0, 5, 0, 0, 0], [1, 0x12, 4, 0, 5, 7, 0, 0],
        [1, 0x12, 4, 0, 6, 0, 0, 0x30], [2, 0x12, 1, 0, 1], [2, 0x12, 1, 0, 2], [3, 0x12, 33, 0, 7] ++ List.replicate 32 0,
        [3, 0x12, 33, 0, 0] ++ List.replicate 32 0, [3, 0x12, 33, 0, 8] ++ List.replicate 32 0, [1, 0x13, 6, 0, 0, 0, 0, 0, 9, 9],
        [2, 0x13, 0, 0], [3, 0x13, 1, 0, 0], [3, 0x13, 1, 0, 2]], fields 0 8 5 4 pl = true := by decide +kernel

/-- A state in which they are accepted, and the results of RESET. -/
theorem test_mdp_states_witness :
    let r := served quiet0
    resetResult r 1 0 0 = (0, 0) ∧ resetRole 1 = 3 ∧ resetResult r 5 0 0 = (0, 0) ∧ shapeOf r 7 = 0 ∧
    blockExists r 0x3000 = true ∧ blockIdle (served (quiet0.updPart 0 (fun x => { x with state := .busy }))) 0x3000 = false ∧
    lcState r = 0 ∧ r.power.aonFault = false ∧ otpBusy r = false ∧ blankGen r 0x10 = some 0 ∧ otpNamed 7 = true ∧
    otpWritable 7 0 = true ∧ blankGen r 7 = some 0 ∧ svnMin r = 0 ∧ otpWritable 8 0 = true ∧ r.boot.running = [] ∧
    quiet0.boot.devState = 2 := by decide +kernel

/-- No blank generation is left. -/
theorem test_mdp_no_blank_witness :
    let used : OtpGen := { data := 1, marker := 0, bad := false, fixed := false }
    let s := { quiet0 with boot := { quiet0.boot with otp := (List.range 256).map (fun n => (n, used)) } }
    blankGen (served s) 0x10 = none ∧ blankGen (served s) 7 = none ∧ lcState (served s) = 0 ∧ otpBusy (served s) = false := by decide +kernel

/-- SVN_MIN 5 in life cycle 2, with a running bundle. -/
theorem test_mdp_marked_witness :
    let m : OtpGen := { data := 5, marker := 0xFF, bad := false, fixed := false }
    let s := { quiet0 with boot := { quiet0.boot with otp := [(32, m), (72, m), (96, m), (100, m)], running := [1] } }
    svnMin (served s) = 5 ∧ otpWritable 8 (lcState (served s)) = true ∧ otpWritable 0 (lcState (served s)) = false ∧
    slotOfs (served s) 0 + 1 ≤ s.boot.flashSize := by decide +kernel

/-- A fault of the always-on rail. -/
theorem test_mdp_aon_witness :
    let s := { quiet0 with power := { quiet0.power with aonFault := true } }
    (served s).power.aonFault = true := by decide +kernel

/-- The network form serves. -/
theorem test_mdp_network_witness :
    let s := { quiet0 with boot := { quiet0.boot with devState := 0, waiting := true }, clocks := { quiet0.clocks with bootSel := 3 } }
    dictReady s = true ∧ mgUp s 0 = true := by decide +kernel

/-- A port that is down, and one that is up with an address that is its own and one that is not. -/
theorem test_ports_witness :
    mgUp (serve id) 0 = false ∧
    (let s := { open0 with dict := open0.dict.insert (odKey 0x1F00 0x03 0) 0x010203040506 }
     mgUp s 0 = true ∧ ownAddress s 0 0 = false ∧ ownAddress s 0 (linkLocal s 0) = true) := by decide +kernel

/-! ### Witnesses: resets, the release sequence, OTP, boot, training, entropy -/

/-- An episode of a level whose sources are listed. -/
def episode0 (level target step : Nat) (sources : List Nat) (running : Bool) : Episode :=
  { level := level, target := target, sources := sources, seen := 8, running := running, step := step, keep := false }

/-- Sources ignored and not, with and without a pulse in progress; a map to ignore for function-level resets. -/
theorem test_sources_witness :
    (let s := { open0 with boot := { open0.boot with map := BitVec.ofNat 256 (0xFF * 2 ^ 56 + 0xFF * 2 ^ 80) } }
     srcMap s 7 = 0xFF ∧ srcMap s 10 = 0xFF ∧ srcMap s 3 ≠ 0xFF ∧ s.boot.writing = none) ∧
    ({ open0.boot with writing := some ⟨7, 0, 1, 2, none⟩ } : Boot).writing ≠ none ∧ isFnId 0x1000 = true ∧
    (let s := serve (fun x => queueOf desc0 1 (ready x))
     queueOwner (s.part 0) 2 = 0x1000 ∧ keeperQueue s 0 2 = false) ∧
    (episode0 2 0 0 [3] false).sources = [3] := by decide +kernel

/-- No episode and one of each level; the blocks that an L5 resets. -/
theorem test_narrow_witness :
    open0.episodes = [] ∧ ((episode0 2 0 0 [3] false).level ≤ 2) ∧ (episode0 5 0 0 [] true).sources = [] ∧ isPart 0 = true ∧
      blockExists open0 0x1003 = true ∧ (0x1003 : Nat) / 4096 = 1 ∧ blockExists open0 0x4002 = true ∧ (0x4002 : Nat) % 4096 < 14 ∧
      (∀ e ∈ open0.episodes, ¬ (e.level = 5 ∧ e.target = 0 ∧ e.sources = [])) := by decide +kernel

/-- Every step of the release sequence has a state in which it comes next; steps that wait; the last step of an L3. -/
theorem test_release_steps_witness :
    (∀ n ∈ [1, 2, 3, 4, 5, 6, 7, 8, 9, 10, 11, 12],
      let s := { open0 with clocks := { open0.clocks with locked := true }, episodes := [episode0 0 0 (n - 1) [] true] }
      n ≤ lastStep s ∧ s.clocks.locked = true ∧ s.pins.perstAN = true ∧ s.pins.perstBN = true) ∧
    (let s := { open0 with episodes := [episode0 0 0 3 [] true], clocks := { open0.clocks with locked := false } }
     s.clocks.locked = false ∧ s.clocks.clkMode ≠ 1) ∧
    (let s := { open0 with episodes := [episode0 0 0 9 [] true], pins := { open0.pins with perstAN := false, perstBN := false } }
     perstHigh s 0 = false ∧ perstHigh s 3 = false) ∧ open0.clocks.tripStop = false ∧ open0.power.aonFault = false ∧
    (let s := { open0 with clocks := { open0.clocks with clkMode := 3 } }
     lastStep s < 3) ∧
    10 ≤ lastStep open0 ∧ perstHigh open0 3 = true := by decide +kernel

/-- An assertion of source 3 at level 2 that waits for a pulse, and whether it has ended. -/
def deferred0 (released : Bool) : Deferred := { source := 3, level := 2, target := 0, released := released }

/-- A write at its first and second pulse, alone, followed by a state record, and interrupted. -/
theorem test_otp_witness :
    open0.boot.writing = none ∧ (otpGen open0 7 0).bad = false ∧ (∀ g, g < 4 → 0 < g → (otpGen open0 7 g).marked = false) ∧
      blankGen open0 0x18 = some 0 ∧ (otpGen open0 7 0).isBlank = true ∧
      ({ open0.boot with writing := some ⟨7, 0, 5, 2, none⟩, deferred := [deferred0 true] } : Boot).deferred = [deferred0 true] ∧
      (deferred0 true).level ≤ 2 := by
  decide +kernel

/-- The ROM ready with and without a bundle written, and not; both flash slots without a bundle; a bundle that is accepted. -/
theorem test_boot_witness :
    romReady open0 = false ∧
    (let s := { open0 with boot := { open0.boot with devState := 0, result := 1 } }
     romReady s = true ∧ bundleOk (fwImages s (readBuffer s) 4096 0) = false) ∧
    (let s := { open0 with boot := { open0.boot with devState := 0, result := 0 } }
     romReady s = true ∧ s.clocks.bootSel = 0 ∧ s.boot.waiting = false ∧ bundleOk (fwImages s (readSlot s 0) 4096 0) = false ∧
     bundleOk (fwImages s (readSlot s 1) 4096 0) = false) ∧
    bundleOk [{ type := 1, version := 0, result := 1, ofs := 0, len := 0 }, { type := 2, version := 0, result := 1, ofs := 0, len := 0 }] =
      true := by decide +kernel

/-- Units that train and that do not; a device that may accept and one that may not. -/
theorem test_training_witness :
    derivedRun open0 = true ∧ open0.clocks.clkMode ≠ 1 ∧ numChannels open0.boot.assembly = 16 ∧ stackFitted open0.boot.assembly 0 = true ∧
    (let s := odSet (odSet (odSet open0 0x5003 0x01 0 1) 0x5011 0x01 0 1) 0x1800 0x02 0 1
     od s 0x5003 0x01 = 1 ∧ od s 0x5011 0x01 = 1 ∧ od s 0x1800 0x02 0 = 1 ∧ od s 0x1800 0x02 1 ≠ 1) ∧
    (let s := { (List.range 16).foldl (fun s c => odSet s (0x5000 + c) 0x01 0 2) open0 with
                boot := { open0.boot with devState := 1, keepersOk := true }, counter := { open0.counter with acquired := true } }
     mayAccept s = true) ∧
    (open0.boot.devState ≠ 1) := by decide +kernel

/-- The entropy source in each of its states, with a buffer that has room and one that is full. -/
theorem test_entropy_witness :
    od open0 0x1E00 0x20 = 0 ∧ od (odSet open0 0x1E00 0x20 0 1) 0x1E00 0x20 = 1 ∧
    (let s := { odSet open0 0x1E00 0x20 0 2 with counter := { open0.counter with gt := 1000000 } }
     od s 0x1E00 0x20 = 2 ∧ s.entropy.failGt + 1000000 ≤ s.counter.gt) ∧
    (Assoc.get (fun _ => []) open0.entropy.buffers 0).length < 256 ∧
    256 ≤ (List.replicate 256 (0 : BitVec 64)).length := by decide +kernel

/-! ### Witnesses: the whole machine -/

/-- A state with a queue and none; shared registers as laid out; partitions that count, are held and are stopped; a fabric cycle that is
reached; a unit that is absent. -/
theorem test_machine_witness :
    SharedOk (busy id) ∧ (busy id).pending = [] ∧ clocksRun State.reset = false ∧ clocksRun (busy id) = true ∧
      delivers ((busy id).part 0) = true ∧ ((busy id).part 0).fc ≤ 12 ∧ reachable (busy id) 0 12 = true ∧ ((busy id).part 0).fc < 12 ∧
      jobRuns ((busy (fun x => { x with hold := some default })).part 0) = true ∧ jobRuns (State.reset.part 0) = false ∧
      (busy id).clocks.pace ≤ 16 ∧ Instr.wf (.channelOutOfService 15) = true ∧
      AbsentUnit { open0 with boot := { open0.boot with assembly := 6 } } (.channelOutOfService 15) := by
  unfold SharedOk BreachWord AbsentUnit
  decide +kernel

/-! ### Small checks on fixed values: the published vectors of the functions that the spec names, and results worked out by hand -/

/-- FIPS 180-4: SHA-256 and SHA-384 of "abc". -/
theorem test_sha :
    beNat (Crypto.sha256 (ascii "abc")) = 0xBA7816BF8F01CFEA414140DE5DAE2223B00361A396177A9CB410FF61F20015AD ∧
    beNat (Crypto.sha384 (ascii "abc")) =
      0xCB00753F45A35E8BB5A03D699AC65007272C32AB0EDED1631A8B605A43FF5BED8086072BA1E7CC2358BAECA134C825A7 := by decide +kernel

/-- RFC 4231, test case 2. -/
theorem test_hmac :
    beNat (Crypto.hmac (ascii "Jefe") (ascii "what do ya want for nothing?")) =
      0x5BDCC146BF60754E6A042426089575C75A003F089D2739839DEC58B964EC3843 := by decide +kernel

/-- RFC 8439, section 2.3.2. -/
theorem test_chacha :
    (Crypto.chachaBlock ([0x61707865, 0x3320646E, 0x79622D32, 0x6B206574] ++
      (List.range 8).map (fun i => BitVec.ofNat 32 (leAt ((List.range 32).map (BitVec.ofNat 8)) (4 * i) 4)) ++
      [1, 0x09000000, 0x4A000000, 0])).take 8 = [0x10, 0xF1, 0xE7, 0xE4, 0xD1, 0x3B, 0x59, 0x15] := by decide +kernel

/-- The three words of R228's test vector. -/
theorem test_draws :
    [8, 9, 15].map (drawWord ((List.range 32).map (BitVec.ofNat 8)) 0x4A00000009000000 0) =
      [0x15593BD1E4E7F110, 0xC47120A31FDD0F50, 0x4E3C50A2E883D0CB] := by decide +kernel

/-- The GCM specification, test case 14: AES-256 with a key, an IV and a block of zeros. -/
theorem test_gcm :
    beNat (Crypto.gcmSeal (List.replicate 32 0) (List.replicate 12 0) [] (List.replicate 16 0)) =
      0xCEA7403D4D606B6E074EC5D3BAF39D18D0D1C8A799996BF0265B98B5D48AB919 := by decide +kernel

/-- Scalar results: the wrap of SUB, the sign of SRA, signed and unsigned order, tags that precede round the wrap (R41, R55). -/
theorem test_scalar_values :
    alu 1 0 1 = 0xFFFFFFFFFFFFFFFF ∧ alu 8 0x8000000000000000 63 = 0xFFFFFFFFFFFFFFFF ∧ alu 6 1 64 = 0 ∧ alu 9 0xFFFFFFFFFFFFFFFF 1 =
      0xFFFFFFFFFFFFFFFF ∧ compare 2 0xFFFFFFFFFFFFFFFF 0 = true ∧ compare 3 0xFFFFFFFFFFFFFFFF 0 = false ∧
    tagPrecedes 0xFFFF 0 = true ∧ tagPrecedes 0 0xFFFF = false ∧ tagPrecedes 0 0x8000 = false := by decide

/-- SMOVI to S[3], TAGRD and OPLD of the operand's first word, in the firing of `cellOf` (R53). -/
theorem test_scalar_steps :
    (let t := after (exec (.smovi 0) (one 0x04 (3 * 2 ^ 91 + 9)))
     t.map (fun t => ((t.cell 0).fold 0).reg 3) = some 9) ∧
    (let t := after (exec (.tagrd 0) (one 0x09 (3 * 2 ^ 91)))
     t.map (fun t => ((t.cell 0).fold 0).reg 3) = some 7) ∧
    (let t := after (exec (.opld 0) (one 0x08 (3 * 2 ^ 91)))
     t.map (fun t => ((t.cell 0).fold 0).reg 3) = some 0x0505050505050505) := by decide +kernel

/-- A write to S[0] is discarded (R42), and the instruction of another opcode does not issue. -/
theorem test_scalar_zero :
    (after (exec (.smovi 0) (one 0x04 9))).map (fun t => ((t.cell 0).fold 0).reg 0) = some 0 ∧
    (after (exec (.nop 0) (one 0x04 9))).map (fun t => (t.cell 0).firing.map (·.pc)) = some (some 0) := by decide +kernel

/-- A step takes the front of the queue; on an empty queue it passes a source edge. -/
theorem test_step :
    (after (step { State.reset with pending := [.mgPortUp 0, .mgPortUp 1] })).map (fun t => (t.pending, mgUp t 0, mgUp t 1)) =
      some ([.mgPortUp 1], true, false) ∧
    (after (step (busy id))).map (fun t => (t.clocks.edge, (t.part 0).fc)) = some (1, 11) := by decide +kernel

/-- The largest and smallest values of the element encodings (R68), and rounding to nearest with ties to even (R89). -/
theorem test_numeric :
    Fmt.mxFp4.decode 7 = .fin false 3 1 ∧ Fmt.mxFp4.decode 9 = .fin true 1 (-1) ∧ Fmt.e4m3.decode 0x7E = .fin false 14 5 ∧
    Fmt.e4m3.decode 0xFF = .nan ∧ Fmt.e5m2.decode 0x7B = .fin false 7 13 ∧ Fmt.e5m2.decode 0xFC = .inf true ∧
    Fmt.fp16.decode 0x7BFF = .fin false 2047 5 ∧ Fmt.mxInt8.decode 0x80 = .fin true 128 (-6) ∧
    Fmt.bf16.encode false (.fin false 257 (-8)) = ⟨0x3F80, true, false⟩ ∧
    Fmt.bf16.encode false (.fin true 259 (-8)) = ⟨0xBF82, true, false⟩ ∧
    Fmt.e4m3.encode false (.fin false 464 0) = ⟨0x7E, true, false⟩ ∧ Fmt.e4m3.encode false (.fin false 465 0) = ⟨0x7E, true, true⟩ ∧
    Fmt.e4m3.encode true (.fin true 465 0) = ⟨0x7F, true, true⟩ := by decide +kernel

/-! ### The spec's worked examples -/

/-- R11's cell; R32's injection; R79's occupancies of a 64 × 64 × 3,840 MXFP4 tile with and without a scan, kept, and with M = 1. -/
theorem test_example_times :
    cellAt 29 41 = 2141 ∧ slotFrom 1 201 = 201 ∧ slotFrom 0 201 = 204 ∧
    (let t : Tile := { m := 64, n := 64, k := 3840, a := .mxFp4, w := .mxFp4 }
     t.panels = 30 ∧ t.load 0 = 64 ∧ t.scan = 120 ∧ t.time true false = 2104 ∧ t.time false true = 1920 ∧
     ({ t with m := 1 } : Tile).time false false = 1921) := by decide +kernel

/-- The BF16 product split over two packages: the anchors, the sums on each grid, the flag and the FP32 result. -/
theorem test_example_anchor :
    let t : Tile := { m := 1, n := 1, k := 4, a := .bf16, w := .bf16 }
    let a := [(0x4980, 0), (0xC980, 0), (0x3800, 0), (0x3580, 0)]
    let w := [[(0x4980, 0)], [(0x4980, 0)], [(0x3820, 0)], [(0x35C0, 0)]]
    autoAnchor t [a] w = 62 ∧ (products t 62 [a] w).1.map (fun e => e.2.int) = [10] ∧ (products t 62 [a] w).2 = mInexactP ∧
      (Fmt.fp32.encode false (winVal 62 { WinElem.zero with sum := 10 }).1).code = 0x30A00000 ∧
      autoAnchor { t with k := 2 } [a.drop 2] (w.drop 2) = -8 ∧ autoAnchor { t with k := 2 } [a.take 2] (w.take 2) = 62 ∧
      (products { t with k := 2 } (-8) [a.drop 2] (w.drop 2)).1.map (fun e => e.2.int) = [5 * 2 ^ 71 + 3 * 2 ^ 62] := by decide +kernel

/-- R230's message: P of the test job (its SHA-256 worked out apart). -/
theorem test_example_provenance :
    let d : List Byte := (beBytes 32 0x3F6A0C219B47D2E50C88A1F47D2E6B9011C5A3E75F08D9B26A4C7E1328F0B5D6)
    let w : List Byte := (beBytes 32 0xA0D3917E42C6B85F0E7A2C19D4F6038B9B21E5C76F3A8D04C1E7529A3B806F2D)
    let x : List Byte := (beBytes 32 0x5E29F1A807C3D64B8A1F2E90C7B5346D2D09E8A1F46B7C35908E1D2FA5C4637B)
    let im : Image := { (default : Image) with header := List.replicate 32 0 ++ d ++ List.replicate 192 0 }
    beNat (provenance im w (BitVec.ofNat 1024 (leNat x * 2 ^ 512 + 0x4B2C1 * 2 ^ 448))) =
      0x86147BF52307FA17433A3846B98DAE09591B4D17BA5814DC70BFA879B6AAB757 := by decide +kernel

/-- R247's block 0, and R243's refills. -/
theorem test_example_serving :
    blockHash 0x0123456789ABCDEF ((range 1 64).flatMap (leBytes 4)) = 0xF1F3E214CC1315FF ∧
    (let b := fun (a : Nat) => BitVec.ofNat 128 (a * 2 ^ 96 + 2000 * 2 ^ 64 + 6000 * 2 ^ 32 + 2 ^ 31 + 1)
     refilled (b 300) 0 = 300 ∧ refilled (b 300) 1 = 2300 ∧ refilled (b 1788) 5 = 6000) ∧
    (let s := { open0 with refillL := 7200000000 }
     refillTicks s 7200050000 = 0 ∧ refillTicks s 7300012400 = 1) ∧
    (let w := [(1, { live0 with cust := 2 }), (4, { live0 with cust := 3 }), (6, { live0 with cust := 2 })]
     w.map (firstTicks 5 w) = [5, 5, 0]) := by decide +kernel

/-- R415's watermark 2. -/
theorem test_example_watermark :
    let s := { open0 with marks := [(2, { Mark.init with extreme := 91200, latest := 91200 })] }
    let t := ([96100, 93500, 92800, 95400, 90000] : List Int).foldl (fun s v => markSample s 2 v) s
    (t.mark 2).crossed = true ∧ (t.mark 2).count = 2 ∧ (t.mark 2).extreme = 96100 ∧ (t.mark 2).above = false ∧
      t.events.length = s.events.length + 1 ∧ ((resetMark t 2).mark 2).count = 0 ∧ ((resetMark t 2).mark 2).extreme = 90000 := by
  decide +kernel

/-- R389's example: an L3A is widened by WARM_RST_N, which then rises. -/
theorem test_example_widened :
    let e : Episode := { level := 3, target := 0, sources := [4], seen := 0x10, running := false, step := 0, keep := false }
    let s := (after (exec (.resetSourceAssert 3 0) { State.reset with episodes := [e] })).getD State.reset
    s.episodes.map (fun e => (e.level, e.sources, e.seen, e.running)) = [(2, [4, 3], 0x18, false)] ∧
      s.episodes.map (fun e => (e.deassert 3).sources) = [[4]] := by decide +kernel

/-- R389's example, on: the keeper watchdog joins it, and the last deassertion runs the sequence from step 3. -/
theorem test_example_joined :
    let go := fun (c : Instr) (s : State) => (after (exec c s)).getD s
    let e : Episode := { level := 2, target := 0, sources := [4], seen := 0x18, running := false, step := 0, keep := true }
    let s := go .keeperWatchdogExpire { State.reset with episodes := [e] }
    let t := go (.resetSourceDeassert 4 0) (go (.resetSourceDeassert 7 0) s)
    s.episodes.map (fun e => (e.level, e.running)) = [(2, false)] ∧ t.episodes.map (fun e => (e.running, e.step)) = [(true, 2)] ∧
      od t 0x1200 0x01 = 2 ∧ od t 0x1200 0x02 = 0x98 := by decide +kernel

/-- The leases of R375's example: the standby waits, then acquires; the old owner's write is not guarded any more. -/
theorem test_example_lease :
    let at_ := fun (s : State) (gt : Nat) => ({ s with counter := { s.counter with gt := gt } } : State)
    let g := 1000000
    let s := semAcquire (semAcquire (at_ open0 g) 0 0x4005) 1 0x4005
    let a := semAcquire (at_ s (g + 93000000)) 0 0x4009
    let b := semAcquire (at_ s (g + 103000000)) 0 0x4009
    semWord a 0 0x4009 = BitVec.ofNat 64 (2 ^ 62 + 0x4005 * 2 ^ 32 + 3500000 * 2) ∧ owns b 0 0x4009 = true ∧ owns b 1 0x4005 = false ∧
      semNow (at_ s (g + 100000000)) 0 = none := by decide +kernel

end Sys2Proof.Tests
end

section
/-! ## O5: every well-formed command answers

A meaning is a chain of guards, none to three, and then `.next`; each guard refuses by the name of a unit that the part does not
have. Well-formedness gives every guard but those that ask for a unit of the assembly. -/
namespace Sys2Proof.Machine

/-- The outcome is a next state, or else `named` fails (the command names what the part does not have) and it is a refusal by the
name of a unit. -/
def AnswersWhen (named : Prop) (o : Host.Outcome State Fault Refusal) : Prop :=
  (∃ t, o = .next t) ∨ ¬ named ∧ ∃ kind n, o = .refused (.noSuchUnit kind n)

section
variable {p : Prop} {o : Host.Outcome State Fault Refusal} {kind : String} {n c : Nat} {ok : Bool} {s : State}

theorem AnswersWhen.next (h : AnswersWhen p o) (hp : p) : ∃ t, o = .next t :=
  h.resolve_right fun hr => hr.1 hp

theorem AnswersWhen.ne_fault (h : AnswersWhen p o) (r : Fault) : o ≠ .fault r := by
  rintro rfl
  obtain ⟨t, ht⟩ | ⟨-, kind, n, hr⟩ := h
  · cases ht
  · cases hr

theorem answersWhen_next {t : State} : AnswersWhen p (.next t) := .inl ⟨t, rfl⟩

theorem answersWhen_guard {g : Prop} [Decidable g] (hg : p → g) (h : AnswersWhen p o) :
    AnswersWhen p (if g then o else .refused (.noSuchUnit kind n)) := by
  split
  · exact h
  · next hn => exact .inr ⟨mt hg hn, kind, n, rfl⟩

theorem answersWhen_onUnit {f : State → State} (hok : p → ok = true) : AnswersWhen p (onUnit ok kind n s f) :=
  answersWhen_guard hok answersWhen_next

theorem answersWhen_onSrcPart {src k : Nat} {f : State → State} (h : p → (isRequester src && isPart k) = true) :
    AnswersWhen p (onSrcPart src k s f) :=
  answersWhen_guard (fun hp => (Bool.and_eq_true_iff.mp (h hp)).1)
    (answersWhen_onUnit fun hp => (Bool.and_eq_true_iff.mp (h hp)).2)

theorem answersWhen_issueFrom {since : State → Nat} {op : Nat} {can : InsnWord → Bool} {eff : Issue → State → State}
    (hc : p → isCell c = true) : AnswersWhen p (issueFrom since op can c eff s) := by
  unfold issueFrom
  exact answersWhen_onUnit hc

theorem answersWhen_issue {op : Nat} {eff : Issue → State → State} (hc : p → isCell c = true) :
    AnswersWhen p (issue op c eff s) :=
  answersWhen_issueFrom hc

theorem onUnit_of_eq_false {f : State → State} (h : ok = false) :
    onUnit ok kind n s f = .refused (.noSuchUnit kind n) := by
  subst h; rfl

end

/-- Every command answers where it is well formed and the assembly has the unit that it names. -/
theorem exec_answersWhen (c : Instr) (s : State) : AnswersWhen (c.wf = true ∧ ¬ AbsentUnit s c) (exec c s) := by
  cases c with
  -- the commands that name no unit
  | paceStepApply | breachRaise | rootPllLock | rootPllLockLoss | mirrorUpdate | ttlTick | ctrSyncEdge | gcTick | gcSyncLoss
  | gcHoldoverExpire | firstAcqTimeout | railPoll | vrmAlertAssert | vrmAlertDeassert | governorEvaluation | governorStepPoint
  | thermalReading | tripClockStop | openSession | get | set | tableGet | tableSet | semAcq | semRel | subscribe | sessionEnd
  | principalEnd | reset | lcAdvance | otpWrite | bootWrite | bootGo | flashWrite | bulkRead | bulkReadDatagram | renew | close
  | noop | starting | wardenWatchdogExpire | keeperWatchdogExpire | otpPulseEnd | releaseStep | firmwareVerify
  | devStateAccepting | entropyStartupTest | entropyHealthFail | entropyRetest => exact answersWhen_next
  -- the instructions that need no unit of the cell, and those that do
  | nop | endFiring | emit | select | smovi | salu | scmp | pmov | opld | tagrd | spld | spst | entdraw | gtread | nrgread
  | syadd | symax | sywait | syrd | syset | syarr | xpread | stin | swap | sandbag | stwait =>
    unfold exec
    exact answersWhen_issue And.left
  | chadraw | stld | stst | flow | stidx | stptr | mldw | mmul | macc | mout | manchSetMode | manchReadProbe | manchReadStatus
  | vcfg | vrun | vrunt | vstatRead | vstatLast | vstatReadClear =>
    unfold exec
    exact answersWhen_issueFrom And.left
  | mmulProbe =>
    unfold exec execMmulProbe
    exact answersWhen_onUnit And.left
  | generatorFree =>
    unfold exec execGeneratorFree
    exact answersWhen_onUnit And.left
  -- those whose unit is one of the assembly's
  | channelOutOfService | ddr5TrainingDone =>
    exact answersWhen_onUnit fun ⟨_, hpresent⟩ => decide_eq_true (Nat.lt_of_not_le hpresent)
  | hbmInitialisationDone =>
    exact answersWhen_onUnit fun ⟨hwf, hpresent⟩ => Bool.and_eq_true_iff.mpr ⟨hwf, eq_true_of_ne_false hpresent⟩
  | l5Release => exact answersWhen_guard (fun ⟨_, hpresent⟩ => eq_true_of_ne_false hpresent) answersWhen_next
  -- those of a requester on a partition, and on one of its queues
  | partCtlEnable | partCtlDisable | mcDoorbell | srDoorbell | stopAck | preemptRequest =>
    exact answersWhen_onSrcPart And.left
  | sqDoorbell | sqCfgWrite =>
    exact answersWhen_guard (fun h => of_decide_eq_true (Bool.and_eq_true_iff.mp h.1).2)
      (answersWhen_onSrcPart fun h => (Bool.and_eq_true_iff.mp h.1).1)
  -- those of two units, each with its guard
  | scrubRead | semReadAcquire | semWriteRelease | notify =>
    exact answersWhen_guard (fun h => (Bool.and_eq_true_iff.mp h.1).1)
      (answersWhen_onUnit fun h => (Bool.and_eq_true_iff.mp h.1).2)
  | keeperMsgRecv =>
    exact answersWhen_guard (fun h => of_decide_eq_true (Bool.and_eq_true_iff.mp h.1).2)
      (answersWhen_onUnit fun h => (Bool.and_eq_true_iff.mp (Bool.and_eq_true_iff.mp h.1).1).1)
  -- those whose meaning leaves the well-formedness of a route, an offset or a node unasked
  | flowFlitInject | bar2HwWrite | registerWrite | launchMsgRecv | barrierMsgRecv | abortMsgRecv | breachMsgRecv =>
    exact answersWhen_onUnit fun h => (Bool.and_eq_true_iff.mp h.1).1
  -- those of a reset source; source 10 names a function too
  | resetSourceDeassert => exact answersWhen_guard And.left answersWhen_next
  | resetSourceAssert source fn =>
    refine answersWhen_guard (fun h => (Bool.and_eq_true_iff.mp h.1).1) ?_
    split
    · next hsource =>
      subst hsource
      exact answersWhen_onUnit And.left
    · exact answersWhen_next
  -- every other command names one unit, and its meaning's guard is its well-formedness
  | _ => exact answersWhen_onUnit And.left

/-- A unit that the assembly does not have is refused by name (R1, R9). -/
theorem exec_refused_of_absentUnit {c : Instr} {s : State} (h : AbsentUnit s c) :
    ∃ kind n, exec c s = .refused (.noSuchUnit kind n) := by
  cases c with
  | channelOutOfService | ddr5TrainingDone => exact ⟨_, _, onUnit_of_eq_false (decide_eq_false (Nat.not_lt_of_le h))⟩
  | hbmInitialisationDone => exact ⟨_, _, onUnit_of_eq_false (Bool.and_eq_false_imp.mpr fun _ => h)⟩
  | l5Release => exact ⟨_, _, if_neg (ne_true_of_eq_false h)⟩
  | _ => exact h.elim

/-- Settles O5: it holds, for each meaning checks no more than well-formedness and the assembly's units. -/
theorem commandsAnswer : Obligations.CommandsAnswer := by
  unfold Obligations.CommandsAnswer
  refine ⟨fun c s hwf => ?_, fun c s h => exec_refused_of_absentUnit h, fun c s r => (exec_answersWhen c s).ne_fault r⟩
  by_cases habs : AbsentUnit s c
  · exact .inr habs
  · exact .inl ((exec_answersWhen c s).next ⟨hwf, habs⟩)

end Sys2Proof.Machine
end
